-- ==== Sys2Proof/Word.lean ====
section
/-! DEFINITION. The word types of the Saheri 4 (R9): a byte, a half, a word and a doubleword. -/

namespace Sys2Proof

/-- Eight bits. -/
abbrev Byte := BitVec 8
/-- A half: 16 bits (R9). -/
abbrev W16 := BitVec 16
/-- A word: 32 bits (R9). -/
abbrev W32 := BitVec 32
/-- A doubleword: 64 bits (R9). -/
abbrev W64 := BitVec 64

end Sys2Proof
end

