-- ==== Sys2Proof/Machine/CregMap.lean ====
section
/-! DEFINITION. Which control-register numbers the manual assigns (R215 and the tables it names), and the encoding
predicates that the decoder shares with WellFormed. -/

namespace Sys2Proof.Machine

/-- `lo ≤ n ≤ hi`. -/
def inRange (n lo hi : Nat) : Bool := decide (lo ≤ n) && decide (n ≤ hi)

/-- The control-register numbers that a table of the manual assigns (R215, R113, R254, R272, R287, R313, R334, R339,
R358, R374, R377, R386, R393 to R396, R404 to R416, R427 and R80).  Every other number raises ILLEGAL (R48). -/
def cregAssigned (c : BitVec 14) : Bool :=
  let n := c.toNat
  inRange n 0x000 0x00E || inRange n 0x010 0x01F || inRange n 0x020 0x021
    || inRange n 0x100 0x17F || inRange n 0x180 0x191 || inRange n 0x1A0 0x1AF
    || inRange n 0x1C0 0x1CC || inRange n 0x1D0 0x1DE || inRange n 0x1E0 0x1E7
    || (inRange n 0x200 0x23F && decide (n % 16 ≤ 4))
    || inRange n 0x240 0x242 || inRange n 0x280 0x283 || inRange n 0x290 0x29F
    || inRange n 0x2A0 0x2B9 || inRange n 0x2C0 0x2C4
    || inRange n 0x300 0x302 || inRange n 0x310 0x315 || inRange n 0x320 0x325
    || inRange n 0x330 0x333 || inRange n 0x338 0x339 || inRange n 0x340 0x34B
    || n == 0x350 || inRange n 0x354 0x35B || inRange n 0x360 0x362
    || inRange n 0x370 0x374 || inRange n 0x380 0x386 || inRange n 0x388 0x38A
    || inRange n 0x390 0x39C

/-- A scope code that R36 assigns: `.t`, `.c`, `.pl`, `.d`, `.dev` or `.sys`. -/
def scopeOk (s : BitVec 3) : Bool := decide (s.toNat ≤ 5)

/-- A conversion that R42 assigns: neither code 0, and the two codes differ. -/
def cvtOk (f t : BitVec 3) : Bool := f != 0 && t != 0 && f != t

end Sys2Proof.Machine
end

