-- ==== Sys2Proof/Syntax.lean ====
section
/-! DEFINITION. The instructions and events of the Wyolo instruction set, one constructor per row of
spec/opcode_table.json, in its order.  A row with an encoding keeps its fields as bit vectors, exactly as wide as
the table gives them and named as the table names them.  A row without an encoding is an event of the module (one of
"the part's steps" of spec/95); its parameters say which agent, message or command the event concerns, or what an
agent outside the module supplies. -/

namespace Sys2Proof

/-- What arrives through a peer port (R420): accesses, fills and entries of a peer's reduction stream (R322). -/
inductive PeerOp where
  /-- A load of `size` bytes at module address `x`. -/
  | read (x size : Nat)
  /-- A store carrying the sender's TOPINF and core id (R101). -/
  | write (x : Nat) (bytes : List (BitVec 8)) (topinf : Bool) (src : BitVec 12)
  /-- An atomic: operation code of R37, width, operand and compare value, the sender's TOPINF and core id. -/
  | atomic (x : Nat) (op : BitVec 4) (dbl : Bool) (b c : BitVec 64) (topinf : Bool) (src : BitVec 12)
  /-- An entry of a peer module's result for one round of a group: a sparse pair, or a dense header with its words (R305, R306,
  R322). -/
  | entry (group round : Nat) (words : List (BitVec 64))
  /-- The end of a peer module's result stream. -/
  | streamEnd (group round : Nat)
  deriving DecidableEq, Repr

/-- A granule of 64 bits with check bits of its own (R399), as the scrubber reads it (R402). -/
inductive Granule where
  /-- Of a scratchpad, a column, or memory behind a home node: the byte at physical address `pa`. -/
  | memory (pa : Nat)
  /-- Of a tile (4096 t + n) or an accumulator (4096 (8 + a) + n) of a core. -/
  | engine (core n : Nat)
  /-- Word `w` of mailbox `m` of a core. -/
  | mailbox (core m w : Nat)
  /-- Shared register g[n] of a core. -/
  | shared (core n : Nat)
  /-- Scalar register s[n] of a slot. -/
  | scalar (core slot n : Nat)
  /-- Granule `i` of vector register v[n] of a slot. -/
  | vector (core slot n i : Nat)
  /-- Of the mask and affine registers of a slot: masks (0, 1), bases (16 + n), strides (32 + n / 2). -/
  | register (core slot n : Nat)
  deriving DecidableEq, Repr

/-- A step of the sluice on one command (R118): the model's own name of the command (`SlCmd.uid`; two of one number may run at once),
and which step, 0 for the next that its engine takes, n for the performance of the n-th write that it has sent. -/
structure SlTurn where
  uid : Nat
  act : Nat
  deriving DecidableEq, Repr

/-- The rows of spec/opcode_table.json.  Where an event of the sluice or of a weir names a command, `num` is the model's own name of it
(`SlCmd.uid`): two commands of one number may run at once. -/
inductive Instr where
  /-- Writes s[rs1] + s[rs2], modulo 2^64, to sd (R222). -/
  | add (d a b : BitVec 6)
  /-- Writes s[rs1] - s[rs2], modulo 2^64, to sd (R222). -/
  | sub (d a b : BitVec 6)
  /-- Writes the bitwise AND of the two sources to sd (R222). -/
  | and (d a b : BitVec 6)
  /-- Writes the bitwise OR of the two sources to sd (R222). -/
  | or (d a b : BitVec 6)
  /-- Writes the bitwise XOR of the two sources to sd (R222). -/
  | xor (d a b : BitVec 6)
  /-- Writes a AND NOT b to sd (R222). -/
  | andn (d a b : BitVec 6)
  /-- Shifts a left by b[5:0] (R222). -/
  | sll (d a b : BitVec 6)
  /-- Shifts a right logically by b[5:0] (R222). -/
  | srl (d a b : BitVec 6)
  /-- Shifts a right arithmetically by b[5:0] (R222). -/
  | sra (d a b : BitVec 6)
  /-- Rotates a left by b[5:0] (R222). -/
  | rol (d a b : BitVec 6)
  /-- Rotates a right by b[5:0] (R222). -/
  | ror (d a b : BitVec 6)
  /-- Writes 1 when a < b signed, else 0 (R222). -/
  | slt (d a b : BitVec 6)
  /-- Writes 1 when a < b unsigned, else 0 (R222). -/
  | sltu (d a b : BitVec 6)
  /-- Writes the signed minimum of a and b (R222). -/
  | min (d a b : BitVec 6)
  /-- Writes the signed maximum of a and b (R222). -/
  | max (d a b : BitVec 6)
  /-- Writes the unsigned minimum of a and b (R222). -/
  | minu (d a b : BitVec 6)
  /-- Writes the unsigned maximum of a and b (R222). -/
  | maxu (d a b : BitVec 6)
  /-- Writes the sign-extended 32-bit sum (R222). -/
  | addw (d a b : BitVec 6)
  /-- Writes the sign-extended 32-bit difference (R222). -/
  | subw (d a b : BitVec 6)
  /-- Counts the leading zero bits of a; gives 64 when a is 0 (R222). -/
  | clz (d a : BitVec 6)
  /-- Counts the trailing zero bits of a; gives 64 when a is 0 (R222). -/
  | ctz (d a : BitVec 6)
  /-- Counts the one bits of a (R222). -/
  | popc (d a : BitVec 6)
  /-- Sign-extends a[7:0] (R222). -/
  | sextb (d a : BitVec 6)
  /-- Sign-extends a[15:0] (R222). -/
  | sexth (d a : BitVec 6)
  /-- Sign-extends a[31:0] (R222). -/
  | sextw (d a : BitVec 6)
  /-- Writes the low 64 bits of the product (R225). -/
  | mul (d a b : BitVec 6)
  /-- Writes the high 64 bits of the signed product (R225). -/
  | mulh (d a b : BitVec 6)
  /-- Writes the high 64 bits of the unsigned product (R225). -/
  | mulhu (d a b : BitVec 6)
  /-- Writes the high 64 bits of the product of signed a and unsigned b (R225). -/
  | mulhsu (d a b : BitVec 6)
  /-- Starts a signed 64-bit division that truncates and never traps (R226). -/
  | div (d a b : BitVec 6)
  /-- Starts an unsigned 64-bit division (R226). -/
  | divu (d a b : BitVec 6)
  /-- Starts a signed 64-bit remainder (R226). -/
  | rem (d a b : BitVec 6)
  /-- Starts an unsigned 64-bit remainder (R226). -/
  | remu (d a b : BitVec 6)
  /-- Writes the sign-extended 32-bit product (R225). -/
  | mulw (d a b : BitVec 6)
  /-- Starts a signed 32-bit division with a sign-extended result (R225). -/
  | divw (d a b : BitVec 6)
  /-- Starts an unsigned 32-bit division with a sign-extended result (R225). -/
  | divwu (d a b : BitVec 6)
  /-- Starts a signed 32-bit remainder (R225). -/
  | remw (d a b : BitVec 6)
  /-- Starts an unsigned 32-bit remainder (R225). -/
  | remwu (d a b : BitVec 6)
  /-- A divide, remainder, VFDIV, VFSQRT or vector function finishes, writes its result and unparks its thread (R227). -/
  | divideComplete (core slot : Nat)
  /-- Writes a plus the sign-extended imm14 (R223). -/
  | addi (d a : BitVec 6) (i : BitVec 14)
  /-- Writes 1 when a is below the immediate, signed (R223). -/
  | slti (d a : BitVec 6) (i : BitVec 14)
  /-- Writes 1 when a is below the sign-extended immediate, unsigned (R223). -/
  | sltiu (d a : BitVec 6) (i : BitVec 14)
  /-- Writes a AND the sign-extended immediate (R223). -/
  | andi (d a : BitVec 6) (i : BitVec 14)
  /-- Writes a OR the sign-extended immediate (R223). -/
  | ori (d a : BitVec 6) (i : BitVec 14)
  /-- Writes a XOR the sign-extended immediate (R223). -/
  | xori (d a : BitVec 6) (i : BitVec 14)
  /-- Shifts left by an immediate amount (R224). -/
  | slli (d a n : BitVec 6)
  /-- Shifts right logically by an immediate amount (R224). -/
  | srli (d a n : BitVec 6)
  /-- Shifts right arithmetically by an immediate amount (R224). -/
  | srai (d a n : BitVec 6)
  /-- Rotates right by an immediate amount (R224). -/
  | rori (d a n : BitVec 6)
  /-- Writes sext(imm20) × 2^14 to sd (R228). -/
  | ldhi (d : BitVec 6) (i : BitVec 20)
  /-- Writes the word's fetch address plus sext(imm20) to sd (R229). -/
  | pcrel (d : BitVec 6) (i : BitVec 20)
  /-- Sets an affine register's base and stride from two scalars (R230). -/
  | afset (d : BitVec 4) (a b : BitVec 6)
  /-- Sets an affine register's base (R230). -/
  | afbase (d : BitVec 4) (a : BitVec 6)
  /-- Sets an affine register's stride (R230). -/
  | afstr (d : BitVec 4) (a : BitVec 6)
  /-- Adds a scalar to an affine base and copies the stride (R230). -/
  | afadd (d a : BitVec 4) (b : BitVec 6)
  /-- Advances an affine base by 16 strides (R230). -/
  | afstep (d a : BitVec 4)
  /-- Copies one affine register to another (R230). -/
  | afmov (d a : BitVec 4)
  /-- Reads an affine base into a scalar (R230). -/
  | afrdb (d : BitVec 6) (a : BitVec 4)
  /-- Reads a sign-extended affine stride into a scalar (R230). -/
  | afrds (d : BitVec 6) (a : BitVec 4)
  /-- Marks a scalar register empty (R231). -/
  | sete (d : BitVec 6)
  /-- Marks a scalar register full (R231). -/
  | setf (d : BitVec 6)
  /-- Writes 1 when a scalar register is full, without parking (R232). -/
  | tstf (d a : BitVec 6)
  /-- Reads a shared g register and waits while it is empty (R235). -/
  | gld (d : BitVec 6) (n : BitVec 3)
  /-- Writes a g register, marks it full and runs its wake chain (R235). -/
  | gst (n : BitVec 3) (a : BitVec 6)
  /-- Waits until a g register is full, then reads it and empties it (R236). -/
  | gldfe (d : BitVec 6) (n : BitVec 3)
  /-- Waits until a g register is empty, then writes it and fills it (R236). -/
  | gstfe (n : BitVec 3) (a : BitVec 6)
  /-- Releases at .dev and sends a value to a remote register or memory target (R237). -/
  | rfill (a b : BitVec 6)
  /-- Marks a vector register empty (R231). -/
  | vsete (d : BitVec 5)
  /-- Writes 1 when a vector register is full (R232). -/
  | vtstf (d : BitVec 6) (v : BitVec 5)
  /-- Reads the full/empty bit vector of a register class (R233). -/
  | rdfe (d c : BitVec 6)
  /-- Waits for the class's outstanding fills, then sets its full/empty bits in one step (R234). -/
  | wrfe (c a : BitVec 6)
  /-- Pushes a control entry on an output queue port (R373). -/
  | qpushc (q : BitVec 2) (a : BitVec 6)
  /-- Writes a queue port's status word without parking (R373). -/
  | qstat (q : BitVec 2) (d : BitVec 6)
  /-- Reads a control register into a scalar after the privilege and allocation checks (R238). -/
  | movc (d : BitVec 6) (c : BitVec 14)
  /-- Writes a control register field by field, for every register that has no row of its own (R238). -/
  | movtc (a : BitVec 6) (c : BitVec 14)
  /-- Traps with TRAPI and n (R382). -/
  | trap (n : BitVec 6)
  /-- Restores privilege and the masks and resumes at EPC (R381). -/
  | eret
  /-- Traps with BREAK, or halts the slot when SWBP is set (R382). -/
  | bkpt (n : BitVec 6)
  /-- Takes the slot out of readiness until the other ready slots have issued or 64 cycles pass (R372). -/
  | yield
  /-- The 64-cycle bound of a YIELD expires and the slot becomes ready (R372). -/
  | yieldExpiry (core slot : Nat)
  /-- Parks the thread until TIME reaches the given tick (R372). -/
  | sleep (a : BitVec 6)
  /-- TIME reaches a sleeping thread's tick and the thread resumes (R372). -/
  | sleepWake (core slot : Nat)
  /-- Invalidates a block, or the whole fetch cache, on this core (R384). -/
  | icinv (a : BitVec 6)
  /-- Removes matching translation entries in the scope and parks until walkers and accesses have drained (R385). -/
  | tlbinv (a b : BitVec 6)
  /-- At S, puts the slot in run state 12 (R383). -/
  | halt
  /-- Branches when a = b (R330). -/
  | beq (a b : BitVec 6) (o : BitVec 11)
  /-- Branches when a ≠ b (R330). -/
  | bne (a b : BitVec 6) (o : BitVec 11)
  /-- Branches when a < b, signed (R330). -/
  | blt (a b : BitVec 6) (o : BitVec 11)
  /-- Branches when a ≥ b, signed (R330). -/
  | bge (a b : BitVec 6) (o : BitVec 11)
  /-- Branches when a < b, unsigned (R330). -/
  | bltu (a b : BitVec 6) (o : BitVec 11)
  /-- Branches when a ≥ b, unsigned (R330). -/
  | bgeu (a b : BitVec 6) (o : BitVec 11)
  /-- Branches by a 26-bit word offset (R331). -/
  | br (o : BitVec 26)
  /-- Writes the link to s57 and branches (R331). -/
  | call (o : BitVec 26)
  /-- Jumps to a register plus an offset and writes the link to sd (R331). -/
  | jalr (d a : BitVec 6) (i : BitVec 14)
  /-- Branches when any active lane of k is set (R333). -/
  | bany (k : BitVec 3) (o : BitVec 11)
  /-- Branches when every active lane of k is set (R333). -/
  | ball (k : BitVec 3) (o : BitVec 11)
  /-- Branches when no active lane of k is set (R333). -/
  | bnone (k : BitVec 3) (o : BitVec 11)
  /-- Branches when some active lane of k is clear (R333). -/
  | bnall (k : BitVec 3) (o : BitVec 11)
  /-- Pushes an IF entry and narrows the active mask by k (R335). -/
  | dif (k : BitVec 3)
  /-- Switches the active mask to the else arm (R335). -/
  | delse
  /-- Pops an IF or ELSE entry and restores the active mask (R335). -/
  | dend
  /-- Removes lanes of k from the active mask and from the else arm (R335). -/
  | dbrk (k : BitVec 3)
  /-- Pushes a WHOLE entry and enables all lanes (R335). -/
  | whole
  /-- Pushes a WHOLE.H entry and makes the inactive lanes helpers (R335). -/
  | wholeH
  /-- Pops a WHOLE entry and restores A and H (R335). -/
  | endwhole
  /-- Opens the core's channel and publishes the thread's later instructions (R341). -/
  | chpub
  /-- Publishes a close marker and ends publishing (R341). -/
  | chclose
  /-- Subscribes to a channel and parks until the publisher's next CHSYNC (R342). -/
  | chsub (a : BitVec 6)
  /-- Detaches subscribers in a stream, or this thread alone when issued privately (R342). -/
  | chunsub
  /-- Lets waiting subscribers join the stream (R342). -/
  | chsync
  /-- Departs a subscriber to private execution at the label when the register is nonzero (R346). -/
  | chleaveIf (a : BitVec 6) (o : BitVec 14)
  /-- Parks a departed subscriber as rejoining with a tag (R347). -/
  | chresub (a : BitVec 6) (t : BitVec 14)
  /-- Holds the stream until subscribers catch up and rejoins waiters of the tag (R347). -/
  | chrdv (t : BitVec 14)
  /-- RDVTMO expires at a CHRDV, which passes and sets TMO (R347). -/
  | rendezvousTimeout (core slot : Nat)
  /-- A published bundle enters a subscriber's buffer (R344). -/
  | bundleArrival (core slot : Nat)
  /-- A subscriber's hold, raised or dropped, reaches the publisher (R344). -/
  | channelHold (core slot : Nat)
  /-- A subscriber's departure or rejoin reaches the publisher and changes DEP (R346). -/
  | departureReport (core slot : Nat)
  /-- A cross-die channel's FIFO relocks after a clock step and the channel resumes (R345). -/
  | clockCrossingRelock (core slot : Nat)
  /-- Reads and checks a record, releases, and sends it to a hub or starts a SIB thread (R364). -/
  | spawn (a : BitVec 6)
  /-- Places a record as SPAWN does, with a reply to sd, which it marks empty (R366). -/
  | callat (d a : BitVec 6)
  /-- Sends the task's reply if none was sent, then quits (R368). -/
  | retv (a : BitVec 6)
  /-- Frees the issuing slot; the task ends when the slot held its last thread (R368). -/
  | quit
  /-- Turns a 128-byte block into a pending task with a dependence count (R369). -/
  | tmake (d a b : BitVec 6)
  /-- Posts a decrement to a dependence counter (R370). -/
  | tdec (a : BitVec 6)
  /-- A decrement is performed at the block's home and places the record at zero (R370). -/
  | tdecArrival (n : Nat)
  /-- Drains the thread and sends its 912-byte package to the core that is the address's home (R371). -/
  | migr (a : BitVec 6)
  /-- A migration package starts the thread as a new task on the target core (R371). -/
  | migrationArrival (n : Nat)
  /-- Returns from a queue handler to QRPC and clears INH (R374). -/
  | qret
  /-- Loads a sign-extended byte (R155). -/
  | ldB (d a : BitVec 6) (i : BitVec 11)
  /-- Loads a sign-extended half (R155). -/
  | ldH (d a : BitVec 6) (i : BitVec 11)
  /-- Loads a sign-extended word (R155). -/
  | ldW (d a : BitVec 6) (i : BitVec 11)
  /-- Loads a doubleword (R155). -/
  | ldD (d a : BitVec 6) (i : BitVec 11)
  /-- Loads a zero-extended byte (R155). -/
  | ldBu (d a : BitVec 6) (i : BitVec 11)
  /-- Loads a zero-extended half (R155). -/
  | ldHu (d a : BitVec 6) (i : BitVec 11)
  /-- Loads a zero-extended word (R155). -/
  | ldWu (d a : BitVec 6) (i : BitVec 11)
  /-- Posts a byte store (R155). -/
  | stB (d a : BitVec 6) (i : BitVec 11)
  /-- Posts a half store (R155). -/
  | stH (d a : BitVec 6) (i : BitVec 11)
  /-- Posts a word store (R155). -/
  | stW (d a : BitVec 6) (i : BitVec 11)
  /-- Posts a doubleword store (R155). -/
  | stD (d a : BitVec 6) (i : BitVec 11)
  /-- Waits until the words are full, reads them and sets them empty; an acquire (R156). -/
  | ldfe (d a : BitVec 6) (s : BitVec 3) (w : BitVec 1) (o : BitVec 8)
  /-- Waits until the words are full and reads them; an acquire (R156). -/
  | ldff (d a : BitVec 6) (s : BitVec 3) (w : BitVec 1) (o : BitVec 8)
  /-- Waits until the words are empty, writes them and sets them full; a release (R156). -/
  | stfe (d a : BitVec 6) (s : BitVec 3) (w : BitVec 1) (o : BitVec 8)
  /-- Posts a write that sets the words full; a release (R156). -/
  | stff (d a : BitVec 6) (s : BitVec 3) (w : BitVec 1) (o : BitVec 8)
  /-- Posts a step that sets the words empty; a release (R156). -/
  | feclr (a : BitVec 6) (s : BitVec 3) (w : BitVec 1) (o : BitVec 8)
  /-- Atomic add at the home, returning the old value (R162). -/
  | aadd (d a b : BitVec 6) (w : BitVec 1) (s : BitVec 3)
  /-- Atomic AND at the home (R162). -/
  | aand (d a b : BitVec 6) (w : BitVec 1) (s : BitVec 3)
  /-- Atomic OR at the home (R162). -/
  | aor (d a b : BitVec 6) (w : BitVec 1) (s : BitVec 3)
  /-- Atomic XOR at the home (R162). -/
  | axor (d a b : BitVec 6) (w : BitVec 1) (s : BitVec 3)
  /-- Atomic signed minimum (R162). -/
  | amin (d a b : BitVec 6) (w : BitVec 1) (s : BitVec 3)
  /-- Atomic signed maximum (R162). -/
  | amax (d a b : BitVec 6) (w : BitVec 1) (s : BitVec 3)
  /-- Atomic unsigned minimum (R162). -/
  | aminu (d a b : BitVec 6) (w : BitVec 1) (s : BitVec 3)
  /-- Atomic unsigned maximum (R162). -/
  | amaxu (d a b : BitVec 6) (w : BitVec 1) (s : BitVec 3)
  /-- Atomic swap (R162). -/
  | aswap (d a b : BitVec 6) (w : BitVec 1) (s : BitVec 3)
  /-- Atomic compare-and-swap against sd (R162). -/
  | acas (d a b : BitVec 6) (w : BitVec 1) (s : BitVec 3)
  /-- Atomic FP32 add under RNE, whose flags return to FSTAT (R163). -/
  | atomicAfadd (d a b : BitVec 6) (s : BitVec 3)
  /-- Waits until earlier accesses in the scope's domain are performed (R164). -/
  | fence (s : BitVec 3)
  /-- Initialises a barrier object and runs its wake chain (R166). -/
  | barinit (a b : BitVec 6)
  /-- Posts an arrival with a byte count at a barrier object (R167). -/
  | bararr (a b : BitVec 6)
  /-- Parks until the barrier's phase passes the given phase (R168). -/
  | barwait (a b : BitVec 6)
  /-- Reads PHASE, ARRIVED and PEND atomically (R169). -/
  | barrd (d a : BitVec 6)
  /-- Joins a polder at an index and installs its slot windows (R147). -/
  | pjoin (a b : BitVec 6)
  /-- Leaves the polder, revokes the slot everywhere and drains accesses in flight (R148). -/
  | pleave
  /-- Reads a polder's MASK atomically (R149). -/
  | pquery (d a : BitVec 6)
  /-- Seals the slot's open batch and advances OPEN (R170). -/
  | bseal
  /-- Parks until at most n sealed batches remain unfinished (R171). -/
  | bwait (a : BitVec 6)
  /-- Releases and copies eight registers into a mailbox, stamping it and counting a request (R172). -/
  | mbsend (m : BitVec 3) (a : BitVec 6)
  /-- In slot 15, takes a mailbox into registers and opens the request in SLREQ (R173). -/
  | mbtake (d : BitVec 6) (m : BitVec 3)
  /-- Lane-wise 32-bit add (R242). -/
  | vadd (d a b : BitVec 5) (k : BitVec 3)
  /-- Lane-wise subtract (R242). -/
  | vsub (d a b : BitVec 5) (k : BitVec 3)
  /-- Lane-wise low product (R242). -/
  | vmul (d a b : BitVec 5) (k : BitVec 3)
  /-- Lane-wise signed high product (R242). -/
  | vmulh (d a b : BitVec 5) (k : BitVec 3)
  /-- Lane-wise unsigned high product (R242). -/
  | vmulhu (d a b : BitVec 5) (k : BitVec 3)
  /-- Lane-wise AND (R242). -/
  | vand (d a b : BitVec 5) (k : BitVec 3)
  /-- Lane-wise OR (R242). -/
  | vor (d a b : BitVec 5) (k : BitVec 3)
  /-- Lane-wise XOR (R242). -/
  | vxor (d a b : BitVec 5) (k : BitVec 3)
  /-- Lane-wise AND NOT (R242). -/
  | vandn (d a b : BitVec 5) (k : BitVec 3)
  /-- Lane-wise left shift (R242). -/
  | vsll (d a b : BitVec 5) (k : BitVec 3)
  /-- Lane-wise logical right shift (R242). -/
  | vsrl (d a b : BitVec 5) (k : BitVec 3)
  /-- Lane-wise arithmetic right shift (R242). -/
  | vsra (d a b : BitVec 5) (k : BitVec 3)
  /-- Lane-wise signed minimum (R242). -/
  | vmin (d a b : BitVec 5) (k : BitVec 3)
  /-- Lane-wise signed maximum (R242). -/
  | vmax (d a b : BitVec 5) (k : BitVec 3)
  /-- Lane-wise unsigned minimum (R242). -/
  | vminu (d a b : BitVec 5) (k : BitVec 3)
  /-- Lane-wise unsigned maximum (R242). -/
  | vmaxu (d a b : BitVec 5) (k : BitVec 3)
  /-- Lane-wise signed saturating add (R242). -/
  | vadds (d a b : BitVec 5) (k : BitVec 3)
  /-- Lane-wise signed saturating subtract (R242). -/
  | vsubs (d a b : BitVec 5) (k : BitVec 3)
  /-- Lane-wise unsigned saturating add (R242). -/
  | vaddsu (d a b : BitVec 5) (k : BitVec 3)
  /-- Lane-wise unsigned saturating subtract (R242). -/
  | vsubsu (d a b : BitVec 5) (k : BitVec 3)
  /-- Lane-wise absolute value (R242). -/
  | vabs (d a : BitVec 5) (k : BitVec 3)
  /-- Lane-wise leading-zero count (R242). -/
  | vclz (d a : BitVec 5) (k : BitVec 3)
  /-- Lane-wise population count (R242). -/
  | vpopc (d a : BitVec 5) (k : BitVec 3)
  /-- Lane-wise equality into a mask (R242). -/
  | vceq (d : BitVec 3) (a b : BitVec 5) (k : BitVec 3)
  /-- Lane-wise signed less-than into a mask (R242). -/
  | vclt (d : BitVec 3) (a b : BitVec 5) (k : BitVec 3)
  /-- Lane-wise unsigned less-than into a mask (R242). -/
  | vcltu (d : BitVec 3) (a b : BitVec 5) (k : BitVec 3)
  /-- Lane-wise FP32 add under FSTAT (R243). -/
  | vfadd (d a b : BitVec 5) (k : BitVec 3)
  /-- Lane-wise FP32 subtract (R243). -/
  | vfsub (d a b : BitVec 5) (k : BitVec 3)
  /-- Lane-wise FP32 multiply (R243). -/
  | vfmul (d a b : BitVec 5) (k : BitVec 3)
  /-- Starts a lane-wise FP32 divide (R243). -/
  | vfdiv (d a b : BitVec 5) (k : BitVec 3)
  /-- Lane-wise fused a × b + d (R243). -/
  | vfma (d a b : BitVec 5) (k : BitVec 3)
  /-- Lane-wise fused a × b - d (R243). -/
  | vfms (d a b : BitVec 5) (k : BitVec 3)
  /-- Lane-wise fused d - a × b (R243). -/
  | vfnma (d a b : BitVec 5) (k : BitVec 3)
  /-- Lane-wise minimumNumber (R243). -/
  | vfmin (d a b : BitVec 5) (k : BitVec 3)
  /-- Lane-wise maximumNumber (R243). -/
  | vfmax (d a b : BitVec 5) (k : BitVec 3)
  /-- Clears the sign bit of each lane (R243). -/
  | vfabs (d a : BitVec 5) (k : BitVec 3)
  /-- Inverts the sign bit of each lane (R243). -/
  | vfneg (d a : BitVec 5) (k : BitVec 3)
  /-- Quiet FP32 equality into a mask (R243). -/
  | vfceq (d : BitVec 3) (a b : BitVec 5) (k : BitVec 3)
  /-- Signalling FP32 less-than into a mask (R243). -/
  | vfclt (d : BitVec 3) (a b : BitVec 5) (k : BitVec 3)
  /-- Signalling FP32 less-or-equal into a mask (R243). -/
  | vfcle (d : BitVec 3) (a b : BitVec 5) (k : BitVec 3)
  /-- Quiet unordered test into a mask (R243). -/
  | vfcun (d : BitVec 3) (a b : BitVec 5) (k : BitVec 3)
  /-- Starts a correctly rounded lane-wise square root (R244). -/
  | vfsqrt (d a : BitVec 5) (k : BitVec 3)
  /-- Starts a lane-wise reciprocal square root (R244). -/
  | vfrsq (d a : BitVec 5) (k : BitVec 3)
  /-- Starts a lane-wise reciprocal (R244). -/
  | vfrcp (d a : BitVec 5) (k : BitVec 3)
  /-- Starts a lane-wise 2^x (R244). -/
  | vfexp2 (d a : BitVec 5) (k : BitVec 3)
  /-- Starts a lane-wise log2 (R244). -/
  | vflog2 (d a : BitVec 5) (k : BitVec 3)
  /-- Starts a lane-wise sine (R244). -/
  | vfsin (d a : BitVec 5) (k : BitVec 3)
  /-- Starts a lane-wise cosine (R244). -/
  | vfcos (d a : BitVec 5) (k : BitVec 3)
  /-- Starts a lane-wise tanh (R244). -/
  | vftanh (d a : BitVec 5) (k : BitVec 3)
  /-- Converts each lane from one format to another (R245). -/
  | vcvt (d a : BitVec 5) (k f t : BitVec 3)
  /-- Permutes lanes by an index vector (R246). -/
  | vperm (d a b : BitVec 5) (k : BitVec 3)
  /-- Exchanges values with a quad partner (R246). -/
  | qxch (d a : BitVec 5) (p : BitVec 2) (k : BitVec 3)
  /-- Broadcasts lane n of each quad (R246). -/
  | qbcast (d a : BitVec 5) (n : BitVec 2) (k : BitVec 3)
  /-- Shifts lanes up by n, filling with zero (R246). -/
  | vshup (d a : BitVec 5) (n : BitVec 4) (k : BitVec 3)
  /-- Shifts lanes down by n, filling with zero (R246). -/
  | vshdn (d a : BitVec 5) (n : BitVec 4) (k : BitVec 3)
  /-- FP32 tree sum over the live lanes (R247). -/
  | vradd (d a : BitVec 5) (k : BitVec 3)
  /-- Integer sum over the live lanes (R247). -/
  | vraddi (d a : BitVec 5) (k : BitVec 3)
  /-- FP32 tree maximum over the live lanes (R247). -/
  | vrmax (d a : BitVec 5) (k : BitVec 3)
  /-- FP32 tree minimum over the live lanes (R247). -/
  | vrmin (d a : BitVec 5) (k : BitVec 3)
  /-- FP32 sequential prefix sum (R247). -/
  | vscan (d a : BitVec 5) (k : BitVec 3)
  /-- Integer prefix sum (R247). -/
  | vscani (d a : BitVec 5) (k : BitVec 3)
  /-- Copies the lanes of E (R248). -/
  | vmov (d a : BitVec 5) (k : BitVec 3)
  /-- Selects each lane from va or vb by the predicate (R248). -/
  | vsel (d a b : BitVec 5) (k : BitVec 3)
  /-- Broadcasts a scalar to the lanes (R248). -/
  | vbcast (d : BitVec 5) (s : BitVec 6) (k : BitVec 3)
  /-- Extracts one lane into a scalar (R248). -/
  | vext (v : BitVec 5) (d : BitVec 6) (l : BitVec 4)
  /-- Inserts a scalar into one lane (R248). -/
  | vins (d : BitVec 5) (s : BitVec 6) (l : BitVec 4) (k : BitVec 3)
  /-- Mask AND (R248). -/
  | kand (d a b : BitVec 3)
  /-- Mask OR (R248). -/
  | kor (d a b : BitVec 3)
  /-- Mask XOR (R248). -/
  | kxor (d a b : BitVec 3)
  /-- Mask NOT (R248). -/
  | knot (d a : BitVec 3)
  /-- Mask copy (R248). -/
  | kmov (d a : BitVec 3)
  /-- Keeps the lowest active set lane (R248). -/
  | elect (d a : BitVec 3)
  /-- Copies a mask into a scalar (R248). -/
  | ktos (a : BitVec 3) (d : BitVec 6)
  /-- Copies a scalar into a mask (R248). -/
  | stok (d : BitVec 3) (s : BitVec 6)
  /-- Votes whether any active lane of the mask is set (R248). -/
  | vany (a : BitVec 3) (d : BitVec 6)
  /-- Votes whether all active lanes of the mask are set (R248). -/
  | vall (a : BitVec 3) (d : BitVec 6)
  /-- Counts the active set lanes of the mask (R248). -/
  | kpopc (a : BitVec 3) (d : BitVec 6)
  /-- Checks every lane address, then loads a word per lane through an affine register (R249). -/
  | vld (d : BitVec 5) (a : BitVec 4) (k : BitVec 3) (i : BitVec 14)
  /-- Checks every lane address, then stores a word per live lane (R249). -/
  | vst (d : BitVec 5) (a : BitVec 4) (k : BitVec 3) (i : BitVec 14)
  /-- Gathers a word per lane with byte indices (R249). -/
  | vldx (d i : BitVec 5) (n : BitVec 4) (k : BitVec 3)
  /-- Scatters a word per live lane with byte indices (R249). -/
  | vstx (d i : BitVec 5) (n : BitVec 4) (k : BitVec 3)
  /-- Gathers with word-scaled indices (R249). -/
  | vldxW (d i : BitVec 5) (n : BitVec 4) (k : BitVec 3)
  /-- Scatters with word-scaled indices (R249). -/
  | vstxW (d i : BitVec 5) (n : BitVec 4) (k : BitVec 3)
  /-- Issues a linear sluice copy with conversion (R119). -/
  | slcopy (d s : BitVec 6) (e m f : BitVec 1)
  /-- Issues a strided two-dimensional sluice copy (R119). -/
  | slcopy2 (d s : BitVec 6) (e m f : BitVec 1)
  /-- Issues an index-list gather (R119). -/
  | slgath (d s : BitVec 6) (e f : BitVec 1)
  /-- Issues an index-list scatter with no claim (R119). -/
  | slscat (d s : BitVec 6) (e f : BitVec 1)
  /-- Issues a fill of the destination with SLAUX bytes (R119). -/
  | slfill (d : BitVec 6) (e f : BitVec 1)
  /-- Issues a compress or expand of a sparse tile through a pattern slot (R121). -/
  | slpat (d : BitVec 6) (e f : BitVec 1)
  /-- Issues a stream send into a reduction round (R316). -/
  | slsend (g s : BitVec 6) (e f : BitVec 1)
  /-- Issues the receipt of a round's output stream (R317). -/
  | slrecv (g d : BitVec 6) (e f : BitVec 1)
  /-- Issues a dense buffer reduction in a round (R319). -/
  | sldred (g u : BitVec 6) (e f : BitVec 1)
  /-- Quiesces slots, stops their commands and writes or discards an image (R133). -/
  | slquiesce (a b : BitVec 6) (e x : BitVec 1)
  /-- Restarts a stopped command, or re-issues a command image (R134). -/
  | slresume (a b : BitVec 6) (e x : BitVec 1)
  /-- Writes the sluice status word to a register (R135). -/
  | slstat (d : BitVec 6) (e : BitVec 1)
  /-- A claim reaches a home, waits for pins and absences, and clears presence of its lines (R123). -/
  | sluiceClaim (core num : Nat)
  /-- The sluice reads, converts and writes one element at its homes, with the TOPINF check (R118): one step of it. -/
  | sluiceElement (core : Nat) (num : SlTurn)
  /-- Every write of a command has performed; the command completes (R118). -/
  | sluiceComplete (core num : Nat)
  /-- Loads a tile from rows of memory, pinning lines at each home (R262). -/
  | tld (a b : BitVec 6) (t : BitVec 3)
  /-- Stores a tile's rows to memory (R263). -/
  | tst (a b : BitVec 6) (t : BitVec 3)
  /-- Commits the shape and zeroes a tile and its scale (R264). -/
  | tzero (t : BitVec 6) (i : BitVec 1)
  /-- Multiplies tiles A and B into an accumulator with one rounding (R267). -/
  | mma
  /-- Sparse product over a pattern window in forward order (R298). -/
  | spmma (o : BitVec 6) (i : BitVec 1) (p : BitVec 2)
  /-- Sparse transposed product using window ranks (R298). -/
  | spmmat (o : BitVec 6) (i : BitVec 1) (p : BitVec 2)
  /-- Applies a Hadamard rotation to a tile in place (R270). -/
  | had (t p : BitVec 6) (i d : BitVec 1)
  /-- Quantises a tile into tapered scratchpad banks (R271). -/
  | tquant (a b : BitVec 6) (t : BitVec 3)
  /-- Reads two accumulator elements into a register (R265). -/
  | accrd (d b : BitVec 6) (c : BitVec 2)
  /-- Stores an accumulator's rows to memory (R263). -/
  | accst (a b : BitVec 6) (c : BitVec 2)
  /-- Commits the shape and zeroes an accumulator (R264). -/
  | acczero (c : BitVec 6) (i : BitVec 1)
  /-- Checks and writes the recurrence program and initial value (R272). -/
  | mxrec (a b : BitVec 6)
  /-- Runs the recurrence over the tiles into an accumulator (R273). -/
  | mxrun
  /-- A matrix or recurrence command completes, fills registers, ORs flags and clears its lock (R259). -/
  | matrixComplete (core num : Nat)
  /-- Loads and validates a pattern program into a slot (R291). -/
  | psld (a b : BitVec 6) (p : BitVec 2)
  /-- Emits up to n kept coordinates and ranks into two vectors (R292). -/
  | psgen (v n : BitVec 6) (d : BitVec 1) (p : BitVec 2)
  /-- Builds and registers a count table (R293). -/
  | prank (a b : BitVec 6) (p : BitVec 2)
  /-- Writes the rank of a coordinate, or all ones (R294). -/
  | pschk (d b : BitVec 6) (p : BitVec 2)
  /-- Writes a slot's context image (R296). -/
  | pssave (a : BitVec 6) (p : BitVec 2)
  /-- Checks an image and restores a slot from it (R296). -/
  | psrest (a : BitVec 6) (p : BitVec 2)
  /-- Opens a reduction group and sets up its weirs (R315). -/
  | rgopen (a b : BitVec 6)
  /-- Cuts any round, drains the group and closes it (R315). -/
  | rgclose (g : BitVec 6) (i : BitVec 1)
  /-- Writes a group's status word (R315). -/
  | rgstat (d b : BitVec 6)
  /-- A weir merges a window of its two inputs and emits it sparse or masked (R308). -/
  | weirMerge (group round node : Nat)
  /-- Every member has sent and every receiver has taken round k (R312). -/
  | roundComplete (group round : Nat)
  /-- A reduction command's WDOG expires and cuts its round (R321). -/
  | watchdogExpiry (core num : Nat)
  /-- An unassigned or malformed word traps precisely with ILLEGAL (R49). -/
  | illegal (w : BitVec 32)
  /-- At a boundary at U, delivers the lowest pending asynchronous cause (R380). -/
  | asyncTrapDelivery (core slot : Nat)
  /-- A format-mismatch record reaches its task's queue of four (R380). -/
  | fmtmismatchRecord (n : Nat)
  /-- A posted pre-emption reaches its core and marks every thread of the task (R386). -/
  | preempt (n : Nat)
  /-- A fill reaches its target core and writes the register, or is dropped or discarded (R212). -/
  | fill (n : Nat)
  /-- A load, atomic or BARRD value returns and fills its register (R152). -/
  | loadValueReturn (num : Nat)
  /-- An access that a thread or agent sent is performed at its home (R175). -/
  | accessPerform (num : Nat)
  /-- A trap's withdrawal reaches the home and removes the wait or reports its result (R161). -/
  | waitWithdrawal (num : Nat)
  /-- A page walk ends and fills the translation buffers or faults (R74). -/
  | walkComplete (cluster n : Nat)
  /-- A task record reaches its cluster hub, spilling to the ring when the bank is full (R357). -/
  | recordArrival (n : Nat)
  /-- The spill engine moves the ring's oldest entry back into the bank (R357). -/
  | ringRefill (cluster : Nat)
  /-- A core takes the best eligible record it can satisfy and starts its first thread (R362). -/
  | dispatch (core : Nat)
  /-- After the task's accesses and commands end, sends the reply, leaves the polder and frees the allocation (R368). -/
  | taskEnd (core task : Nat)
  /-- An entry from a joined neighbour port enters an input port (R373). -/
  | queueEntryArrival (core port : Nat)
  /-- At TIME mod INTERVAL = 0, each core latches run states and PCs and each die writes a record (R406). -/
  | samplingPulse
  /-- A die completes its old clock's last cycle and stops issuing for a step (R422). -/
  | frequencyStep (die : Nat)
  /-- The die's new clock starts and it writes its STEPLOG entry (R422). -/
  | newClockStart (die : Nat)
  /-- A die reaches 100 °C and the governor starts stepping it down and sets THROT (R426). -/
  | thermalThrottle (die : Nat) (temp : BitVec 8)
  /-- The 10 µs throttle interval expires and the die steps down one clock (R426). -/
  | throttleStep (die : Nat)
  /-- A die reaches 110 °C; every die is held at 0.6 GHz and TRIP is set (R426). -/
  | thermalTrip (die : Nat) (temp : BitVec 8)
  /-- Every 1024 ticks while an offset remains, the timer adds or withholds one tick (R421). -/
  | timeSlew
  /-- Clears scratchpads and columns, sets bits full and present, and resets registers and the timer (R452). -/
  | moduleReset
  /-- The controller updates the home map and raises BRINGUP.LEVEL (R424). -/
  | bringupLevelRaise
  /-- A peer link trains with OPEN on both ends and its window gains a home (R420). -/
  | peerLinkUp (port : Nat) (serial : BitVec 16)
  /-- A far-memory port trains and joins with FARSTAT.UP (R424). -/
  | farPortUp (port : Nat) (gib : BitVec 11)
  /-- A rail is lost for good; the link rebuilds from XOR and RAILS rises (R403). -/
  | railLoss (link : Nat) (rail : Nat)
  /-- A second rail loss takes a link down and sets LINKDN (R403). -/
  | linkDown (link : Nat) (rail : Nat)
  /-- The scrubber reads a granule, corrects it or marks it poisoned (R402). -/
  | scrub (g : Granule)
  /-- The dump engine drains and writes a slot's dump sections (R415). -/
  | dump (core : Nat)
  /-- A 64-byte write into a launch window enqueues a valid record or is refused (R359). -/
  | launchWindowWrite (pa : Nat) (bytes : List (BitVec 8))
  /-- An 8-byte host access performs a MOVC or MOVTC at S on a core's register (R419). -/
  | managementWindowAccess (core : Nat) (num : BitVec 14) (size : Nat) (wr : Option (BitVec 64))
  /-- A host CXL.mem access is performed at its home, or poisoned or dropped (R418). -/
  | cxlMemAccess (x : Nat) (size : Nat) (wr : Option (List (BitVec 8)))
  /-- An access arriving through a peer port is performed under this module's map (R420). -/
  | peerAccess (port : Nat) (op : PeerOp)
  /-- Answers an SPDM GET_VERSION request (R425). -/
  | getVersion
  /-- Answers an SPDM GET_CAPABILITIES request (R425). -/
  | getCapabilities
  /-- Answers an SPDM NEGOTIATE_ALGORITHMS request (R425). -/
  | negotiateAlgorithms
  /-- Answers an SPDM GET_DIGESTS request (R425). -/
  | getDigests
  /-- Answers an SPDM GET_CERTIFICATE request (R425). -/
  | getCertificate (offset length : Nat)
  /-- Answers an SPDM CHALLENGE request (R425). -/
  | challenge (nonce : BitVec 256)
  /-- Answers an SPDM GET_MEASUREMENTS request (R425). -/
  | getMeasurements (nonce : BitVec 256)
  /-- Writing SLREQ sets SLOT, clears OPEN and ends any open request (R111). -/
  | slreqWrite (v : BitVec 64)
  /-- Writing HMAP parks until every copy of the home map holds the word (R80). -/
  | hmapWrite (core slot : Nat)
  /-- Writing PDIRBASE parks until every hub of the partition holds the value (R143). -/
  | pdirbaseWrite (core slot : Nat)
  /-- Reading SPTAG reads a line's presence and full bits at its home (R141). -/
  | sptagRead (num : Nat)
  /-- Writing SPTAG sets a line's full bits at its home and wakes waiters (R141). -/
  | sptagWrite (num : Nat)
  /-- Writing QRING always sets AGE and sets SIZE and OFFSET only when allowed (R358). -/
  | qringWrite (v : BitVec 64)
  /-- Writing QCFG enables ports only where a neighbour exists and no other slot holds the port (R207). -/
  | qcfgWrite (v : BitVec 64)
  /-- Writing ACCPUT stores two accumulator elements and advances ELEM (R395). -/
  | accputWrite (v : BitVec 64)
  /-- Reading DROPD removes the head drop record and latches its value in DROPV (R396). -/
  | dropdRead
  /-- Reading PMRD fetches a counter of a core of the partition (R409). -/
  | pmrdRead (core slot : Nat)
  /-- Writing PRPOST posts a pre-emption to a task (R386). -/
  | prpostWrite (v : BitVec 64)
  /-- Writing RSTPOST asks a core to restore a task and parks until it answers (R393). -/
  | rstpostWrite (core slot : Nat)
  /-- Writing MAPOUT maps out an idle core (R405). -/
  | mapoutWrite (v : BitVec 64)
  /-- Writing TADJ steps TIME forward or starts a slew (R421). -/
  | tadjWrite (v : BitVec 64)
  /-- Writing TFREQ trims the timer rate, saturating (R421). -/
  | tfreqWrite (v : BitVec 64)
  /-- Writing FCAPd caps a die's clock and may request a step down (R422). -/
  | fcapWrite (d : BitVec 2) (v : BitVec 64)
  /-- Writing SMPBUFd sets a die's sample ring and resets HEAD (R406). -/
  | smpbufWrite (d : BitVec 2) (v : BitVec 64)
  /-- Writing DUMPREQ requests a dump of a slot (R414). -/
  | dumpreqWrite (v : BitVec 64)
  /-- Setting a HALTREQ bit halts the slot at its next boundary (R410). -/
  | haltreq (core slot : Nat)
  /-- Clearing a HALTREQ bit resumes the slot (R410). -/
  | dbgResume (core slot : Nat)
  /-- Setting a STEP bit lets a halted slot issue one instruction (R410). -/
  | step (core slot : Nat)
  /-- FREEZE halts the core and queues its arrivals; clearing it performs them in order (R412). -/
  | freeze (core : Nat)
  /-- Clearing OPEN takes the peer window down on both ends (R420). -/
  | peerstatOpenWrite (p : BitVec 3) (v : BitVec 64)
  /-- Writing HOSTWIN opens or closes the host window in the home map (R419). -/
  | hostwinWrite (v : BitVec 64)
  /-- A pattern generator command finishes, commits its slot update in one step and unparks its thread, letting the next queued command start (R290). -/
  | patternCommandComplete (core : Nat)
  /-- A weir's full input buffer raises or drops a hold that reaches the sending sluice, which stops or resumes reading its stream (R304). -/
  | weirHold (core num : Nat)
  /-- A far-memory port loses its link, becomes an absent home and sets RELSTAT.LINKDN (R424). -/
  | farPortDown (port : Nat)
  /-- The remote module clears OPEN on a peer port, taking this end's window down at once (R420). -/
  | remoteOpenClear (port : Nat)
  /-- A polder install or removal message reaches a member core, updates its window map and acknowledges, completing the PJOIN or PLEAVE once every acknowledgement is in (R147). -/
  | polderWindowUpdate (n : Nat)
  /-- RGOPEN's set-up of the weirs on every member path finishes, the group is marked open and the issuing thread unparks (R315). -/
  | groupSetupComplete (core slot : Nat)
  /-- A TLBINV of cluster, partition or device scope reaches another core or walker, removes matching entries and acknowledges, which lets the TLBINV complete (R385). -/
  | tlbShootdown (n : Nat)
  deriving DecidableEq, Repr

end Sys2Proof
end

