-- ==== Sys2Proof/WellFormed.lean ====
section
/-! DEFINITION. Which instructions the encodings admit, beyond the widths of their fields: scope codes (R36 to R38),
full/empty classes (R27), control-register numbers (R28, R215), mask destinations (R45), conversion codes (R42),
quad exchanges and lane shifts (R43), and the register blocks of the mailbox instructions (R39). -/

namespace Sys2Proof

/-- Whether a constructor stands for a word: the rows of the table that have an encoding.  The others are events. -/
def Instr.encoded (i : Instr) : Bool :=
  match i with
  | .add .. => true
  | .sub .. => true
  | .and .. => true
  | .or .. => true
  | .xor .. => true
  | .andn .. => true
  | .sll .. => true
  | .srl .. => true
  | .sra .. => true
  | .rol .. => true
  | .ror .. => true
  | .slt .. => true
  | .sltu .. => true
  | .min .. => true
  | .max .. => true
  | .minu .. => true
  | .maxu .. => true
  | .addw .. => true
  | .subw .. => true
  | .clz .. => true
  | .ctz .. => true
  | .popc .. => true
  | .sextb .. => true
  | .sexth .. => true
  | .sextw .. => true
  | .mul .. => true
  | .mulh .. => true
  | .mulhu .. => true
  | .mulhsu .. => true
  | .div .. => true
  | .divu .. => true
  | .rem .. => true
  | .remu .. => true
  | .mulw .. => true
  | .divw .. => true
  | .divwu .. => true
  | .remw .. => true
  | .remwu .. => true
  | .divideComplete .. => false
  | .addi .. => true
  | .slti .. => true
  | .sltiu .. => true
  | .andi .. => true
  | .ori .. => true
  | .xori .. => true
  | .slli .. => true
  | .srli .. => true
  | .srai .. => true
  | .rori .. => true
  | .ldhi .. => true
  | .pcrel .. => true
  | .afset .. => true
  | .afbase .. => true
  | .afstr .. => true
  | .afadd .. => true
  | .afstep .. => true
  | .afmov .. => true
  | .afrdb .. => true
  | .afrds .. => true
  | .sete .. => true
  | .setf .. => true
  | .tstf .. => true
  | .gld .. => true
  | .gst .. => true
  | .gldfe .. => true
  | .gstfe .. => true
  | .rfill .. => true
  | .vsete .. => true
  | .vtstf .. => true
  | .rdfe .. => true
  | .wrfe .. => true
  | .qpushc .. => true
  | .qstat .. => true
  | .movc .. => true
  | .movtc .. => true
  | .trap .. => true
  | .eret .. => true
  | .bkpt .. => true
  | .yield .. => true
  | .yieldExpiry .. => false
  | .sleep .. => true
  | .sleepWake .. => false
  | .icinv .. => true
  | .tlbinv .. => true
  | .halt .. => true
  | .beq .. => true
  | .bne .. => true
  | .blt .. => true
  | .bge .. => true
  | .bltu .. => true
  | .bgeu .. => true
  | .br .. => true
  | .call .. => true
  | .jalr .. => true
  | .bany .. => true
  | .ball .. => true
  | .bnone .. => true
  | .bnall .. => true
  | .dif .. => true
  | .delse .. => true
  | .dend .. => true
  | .dbrk .. => true
  | .whole .. => true
  | .wholeH .. => true
  | .endwhole .. => true
  | .chpub .. => true
  | .chclose .. => true
  | .chsub .. => true
  | .chunsub .. => true
  | .chsync .. => true
  | .chleaveIf .. => true
  | .chresub .. => true
  | .chrdv .. => true
  | .rendezvousTimeout .. => false
  | .bundleArrival .. => false
  | .channelHold .. => false
  | .departureReport .. => false
  | .clockCrossingRelock .. => false
  | .spawn .. => true
  | .callat .. => true
  | .retv .. => true
  | .quit .. => true
  | .tmake .. => true
  | .tdec .. => true
  | .tdecArrival .. => false
  | .migr .. => true
  | .migrationArrival .. => false
  | .qret .. => true
  | .ldB .. => true
  | .ldH .. => true
  | .ldW .. => true
  | .ldD .. => true
  | .ldBu .. => true
  | .ldHu .. => true
  | .ldWu .. => true
  | .stB .. => true
  | .stH .. => true
  | .stW .. => true
  | .stD .. => true
  | .ldfe .. => true
  | .ldff .. => true
  | .stfe .. => true
  | .stff .. => true
  | .feclr .. => true
  | .aadd .. => true
  | .aand .. => true
  | .aor .. => true
  | .axor .. => true
  | .amin .. => true
  | .amax .. => true
  | .aminu .. => true
  | .amaxu .. => true
  | .aswap .. => true
  | .acas .. => true
  | .atomicAfadd .. => true
  | .fence .. => true
  | .barinit .. => true
  | .bararr .. => true
  | .barwait .. => true
  | .barrd .. => true
  | .pjoin .. => true
  | .pleave .. => true
  | .pquery .. => true
  | .bseal .. => true
  | .bwait .. => true
  | .mbsend .. => true
  | .mbtake .. => true
  | .vadd .. => true
  | .vsub .. => true
  | .vmul .. => true
  | .vmulh .. => true
  | .vmulhu .. => true
  | .vand .. => true
  | .vor .. => true
  | .vxor .. => true
  | .vandn .. => true
  | .vsll .. => true
  | .vsrl .. => true
  | .vsra .. => true
  | .vmin .. => true
  | .vmax .. => true
  | .vminu .. => true
  | .vmaxu .. => true
  | .vadds .. => true
  | .vsubs .. => true
  | .vaddsu .. => true
  | .vsubsu .. => true
  | .vabs .. => true
  | .vclz .. => true
  | .vpopc .. => true
  | .vceq .. => true
  | .vclt .. => true
  | .vcltu .. => true
  | .vfadd .. => true
  | .vfsub .. => true
  | .vfmul .. => true
  | .vfdiv .. => true
  | .vfma .. => true
  | .vfms .. => true
  | .vfnma .. => true
  | .vfmin .. => true
  | .vfmax .. => true
  | .vfabs .. => true
  | .vfneg .. => true
  | .vfceq .. => true
  | .vfclt .. => true
  | .vfcle .. => true
  | .vfcun .. => true
  | .vfsqrt .. => true
  | .vfrsq .. => true
  | .vfrcp .. => true
  | .vfexp2 .. => true
  | .vflog2 .. => true
  | .vfsin .. => true
  | .vfcos .. => true
  | .vftanh .. => true
  | .vcvt .. => true
  | .vperm .. => true
  | .qxch .. => true
  | .qbcast .. => true
  | .vshup .. => true
  | .vshdn .. => true
  | .vradd .. => true
  | .vraddi .. => true
  | .vrmax .. => true
  | .vrmin .. => true
  | .vscan .. => true
  | .vscani .. => true
  | .vmov .. => true
  | .vsel .. => true
  | .vbcast .. => true
  | .vext .. => true
  | .vins .. => true
  | .kand .. => true
  | .kor .. => true
  | .kxor .. => true
  | .knot .. => true
  | .kmov .. => true
  | .elect .. => true
  | .ktos .. => true
  | .stok .. => true
  | .vany .. => true
  | .vall .. => true
  | .kpopc .. => true
  | .vld .. => true
  | .vst .. => true
  | .vldx .. => true
  | .vstx .. => true
  | .vldxW .. => true
  | .vstxW .. => true
  | .slcopy .. => true
  | .slcopy2 .. => true
  | .slgath .. => true
  | .slscat .. => true
  | .slfill .. => true
  | .slpat .. => true
  | .slsend .. => true
  | .slrecv .. => true
  | .sldred .. => true
  | .slquiesce .. => true
  | .slresume .. => true
  | .slstat .. => true
  | .sluiceClaim .. => false
  | .sluiceElement .. => false
  | .sluiceComplete .. => false
  | .tld .. => true
  | .tst .. => true
  | .tzero .. => true
  | .mma .. => true
  | .spmma .. => true
  | .spmmat .. => true
  | .had .. => true
  | .tquant .. => true
  | .accrd .. => true
  | .accst .. => true
  | .acczero .. => true
  | .mxrec .. => true
  | .mxrun .. => true
  | .matrixComplete .. => false
  | .psld .. => true
  | .psgen .. => true
  | .prank .. => true
  | .pschk .. => true
  | .pssave .. => true
  | .psrest .. => true
  | .rgopen .. => true
  | .rgclose .. => true
  | .rgstat .. => true
  | .weirMerge .. => false
  | .roundComplete .. => false
  | .watchdogExpiry .. => false
  | .illegal .. => false
  | .asyncTrapDelivery .. => false
  | .fmtmismatchRecord .. => false
  | .preempt .. => false
  | .fill .. => false
  | .loadValueReturn .. => false
  | .accessPerform .. => false
  | .waitWithdrawal .. => false
  | .walkComplete .. => false
  | .recordArrival .. => false
  | .ringRefill .. => false
  | .dispatch .. => false
  | .taskEnd .. => false
  | .queueEntryArrival .. => false
  | .samplingPulse .. => false
  | .frequencyStep .. => false
  | .newClockStart .. => false
  | .thermalThrottle .. => false
  | .throttleStep .. => false
  | .thermalTrip .. => false
  | .timeSlew .. => false
  | .moduleReset .. => false
  | .bringupLevelRaise .. => false
  | .peerLinkUp .. => false
  | .farPortUp .. => false
  | .railLoss .. => false
  | .linkDown .. => false
  | .scrub .. => false
  | .dump .. => false
  | .launchWindowWrite .. => false
  | .managementWindowAccess .. => false
  | .cxlMemAccess .. => false
  | .peerAccess .. => false
  | .getVersion .. => false
  | .getCapabilities .. => false
  | .negotiateAlgorithms .. => false
  | .getDigests .. => false
  | .getCertificate .. => false
  | .challenge .. => false
  | .getMeasurements .. => false
  | .slreqWrite .. => false
  | .hmapWrite .. => false
  | .pdirbaseWrite .. => false
  | .sptagRead .. => false
  | .sptagWrite .. => false
  | .qringWrite .. => false
  | .qcfgWrite .. => false
  | .accputWrite .. => false
  | .dropdRead .. => false
  | .pmrdRead .. => false
  | .prpostWrite .. => false
  | .rstpostWrite .. => false
  | .mapoutWrite .. => false
  | .tadjWrite .. => false
  | .tfreqWrite .. => false
  | .fcapWrite .. => false
  | .smpbufWrite .. => false
  | .dumpreqWrite .. => false
  | .haltreq .. => false
  | .dbgResume .. => false
  | .step .. => false
  | .freeze .. => false
  | .peerstatOpenWrite .. => false
  | .hostwinWrite .. => false
  | .patternCommandComplete .. => false
  | .weirHold .. => false
  | .farPortDown .. => false
  | .remoteOpenClear .. => false
  | .polderWindowUpdate .. => false
  | .groupSetupComplete .. => false
  | .tlbShootdown .. => false

/-- The checks of R48 on field values that a field's width does not already make. -/
def Instr.wf (i : Instr) : Bool :=
  match i with
  | .add .. => true
  | .sub .. => true
  | .and .. => true
  | .or .. => true
  | .xor .. => true
  | .andn .. => true
  | .sll .. => true
  | .srl .. => true
  | .sra .. => true
  | .rol .. => true
  | .ror .. => true
  | .slt .. => true
  | .sltu .. => true
  | .min .. => true
  | .max .. => true
  | .minu .. => true
  | .maxu .. => true
  | .addw .. => true
  | .subw .. => true
  | .clz .. => true
  | .ctz .. => true
  | .popc .. => true
  | .sextb .. => true
  | .sexth .. => true
  | .sextw .. => true
  | .mul .. => true
  | .mulh .. => true
  | .mulhu .. => true
  | .mulhsu .. => true
  | .div .. => true
  | .divu .. => true
  | .rem .. => true
  | .remu .. => true
  | .mulw .. => true
  | .divw .. => true
  | .divwu .. => true
  | .remw .. => true
  | .remwu .. => true
  | .divideComplete .. => true
  | .addi .. => true
  | .slti .. => true
  | .sltiu .. => true
  | .andi .. => true
  | .ori .. => true
  | .xori .. => true
  | .slli .. => true
  | .srli .. => true
  | .srai .. => true
  | .rori .. => true
  | .ldhi .. => true
  | .pcrel .. => true
  | .afset .. => true
  | .afbase .. => true
  | .afstr .. => true
  | .afadd .. => true
  | .afstep .. => true
  | .afmov .. => true
  | .afrdb .. => true
  | .afrds .. => true
  | .sete .. => true
  | .setf .. => true
  | .tstf .. => true
  | .gld .. => true
  | .gst .. => true
  | .gldfe .. => true
  | .gstfe .. => true
  | .rfill .. => true
  | .vsete .. => true
  | .vtstf .. => true
  | .rdfe _ c => decide (c.toNat ≤ 2)
  | .wrfe c _ => decide (c.toNat ≤ 2)
  | .qpushc .. => true
  | .qstat .. => true
  | .movc d c => d != 0 && Machine.cregAssigned c
  | .movtc a c => a != 0 && Machine.cregAssigned c
  | .trap .. => true
  | .eret .. => true
  | .bkpt .. => true
  | .yield .. => true
  | .yieldExpiry .. => true
  | .sleep .. => true
  | .sleepWake .. => true
  | .icinv .. => true
  | .tlbinv .. => true
  | .halt .. => true
  | .beq .. => true
  | .bne .. => true
  | .blt .. => true
  | .bge .. => true
  | .bltu .. => true
  | .bgeu .. => true
  | .br .. => true
  | .call .. => true
  | .jalr .. => true
  | .bany .. => true
  | .ball .. => true
  | .bnone .. => true
  | .bnall .. => true
  | .dif .. => true
  | .delse .. => true
  | .dend .. => true
  | .dbrk .. => true
  | .whole .. => true
  | .wholeH .. => true
  | .endwhole .. => true
  | .chpub .. => true
  | .chclose .. => true
  | .chsub .. => true
  | .chunsub .. => true
  | .chsync .. => true
  | .chleaveIf .. => true
  | .chresub .. => true
  | .chrdv .. => true
  | .rendezvousTimeout .. => true
  | .bundleArrival .. => true
  | .channelHold .. => true
  | .departureReport .. => true
  | .clockCrossingRelock .. => true
  | .spawn .. => true
  | .callat .. => true
  | .retv .. => true
  | .quit .. => true
  | .tmake .. => true
  | .tdec .. => true
  | .tdecArrival .. => true
  | .migr .. => true
  | .migrationArrival .. => true
  | .qret .. => true
  | .ldB .. => true
  | .ldH .. => true
  | .ldW .. => true
  | .ldD .. => true
  | .ldBu .. => true
  | .ldHu .. => true
  | .ldWu .. => true
  | .stB .. => true
  | .stH .. => true
  | .stW .. => true
  | .stD .. => true
  | .ldfe _ _ s _ _ => Machine.scopeOk s
  | .ldff _ _ s _ _ => Machine.scopeOk s
  | .stfe _ _ s _ _ => Machine.scopeOk s
  | .stff _ _ s _ _ => Machine.scopeOk s
  | .feclr _ s _ _ => Machine.scopeOk s
  | .aadd _ _ _ _ s => Machine.scopeOk s
  | .aand _ _ _ _ s => Machine.scopeOk s
  | .aor _ _ _ _ s => Machine.scopeOk s
  | .axor _ _ _ _ s => Machine.scopeOk s
  | .amin _ _ _ _ s => Machine.scopeOk s
  | .amax _ _ _ _ s => Machine.scopeOk s
  | .aminu _ _ _ _ s => Machine.scopeOk s
  | .amaxu _ _ _ _ s => Machine.scopeOk s
  | .aswap _ _ _ _ s => Machine.scopeOk s
  | .acas _ _ _ _ s => Machine.scopeOk s
  | .atomicAfadd _ _ _ s => Machine.scopeOk s
  | .fence s => Machine.scopeOk s
  | .barinit .. => true
  | .bararr .. => true
  | .barwait .. => true
  | .barrd .. => true
  | .pjoin .. => true
  | .pleave .. => true
  | .pquery .. => true
  | .bseal .. => true
  | .bwait .. => true
  | .mbsend _ a => decide (a.toNat ≤ 56)
  | .mbtake d _ => decide (d.toNat ≤ 56)
  | .vadd .. => true
  | .vsub .. => true
  | .vmul .. => true
  | .vmulh .. => true
  | .vmulhu .. => true
  | .vand .. => true
  | .vor .. => true
  | .vxor .. => true
  | .vandn .. => true
  | .vsll .. => true
  | .vsrl .. => true
  | .vsra .. => true
  | .vmin .. => true
  | .vmax .. => true
  | .vminu .. => true
  | .vmaxu .. => true
  | .vadds .. => true
  | .vsubs .. => true
  | .vaddsu .. => true
  | .vsubsu .. => true
  | .vabs .. => true
  | .vclz .. => true
  | .vpopc .. => true
  | .vceq d _ _ _ => d != 0
  | .vclt d _ _ _ => d != 0
  | .vcltu d _ _ _ => d != 0
  | .vfadd .. => true
  | .vfsub .. => true
  | .vfmul .. => true
  | .vfdiv .. => true
  | .vfma .. => true
  | .vfms .. => true
  | .vfnma .. => true
  | .vfmin .. => true
  | .vfmax .. => true
  | .vfabs .. => true
  | .vfneg .. => true
  | .vfceq d _ _ _ => d != 0
  | .vfclt d _ _ _ => d != 0
  | .vfcle d _ _ _ => d != 0
  | .vfcun d _ _ _ => d != 0
  | .vfsqrt .. => true
  | .vfrsq .. => true
  | .vfrcp .. => true
  | .vfexp2 .. => true
  | .vflog2 .. => true
  | .vfsin .. => true
  | .vfcos .. => true
  | .vftanh .. => true
  | .vcvt _ _ _ f t => Machine.cvtOk f t
  | .vperm .. => true
  | .qxch _ _ p _ => p != 3
  | .qbcast .. => true
  | .vshup _ _ n _ => n != 0
  | .vshdn _ _ n _ => n != 0
  | .vradd .. => true
  | .vraddi .. => true
  | .vrmax .. => true
  | .vrmin .. => true
  | .vscan .. => true
  | .vscani .. => true
  | .vmov .. => true
  | .vsel .. => true
  | .vbcast .. => true
  | .vext .. => true
  | .vins .. => true
  | .kand d _ _ => d != 0
  | .kor d _ _ => d != 0
  | .kxor d _ _ => d != 0
  | .knot d _ => d != 0
  | .kmov d _ => d != 0
  | .elect d _ => d != 0
  | .ktos .. => true
  | .stok d _ => d != 0
  | .vany .. => true
  | .vall .. => true
  | .kpopc .. => true
  | .vld .. => true
  | .vst .. => true
  | .vldx .. => true
  | .vstx .. => true
  | .vldxW .. => true
  | .vstxW .. => true
  | .slcopy .. => true
  | .slcopy2 .. => true
  | .slgath .. => true
  | .slscat .. => true
  | .slfill .. => true
  | .slpat .. => true
  | .slsend .. => true
  | .slrecv .. => true
  | .sldred .. => true
  | .slquiesce .. => true
  | .slresume .. => true
  | .slstat .. => true
  | .sluiceClaim .. => true
  | .sluiceElement .. => true
  | .sluiceComplete .. => true
  | .tld .. => true
  | .tst .. => true
  | .tzero .. => true
  | .mma .. => true
  | .spmma .. => true
  | .spmmat .. => true
  | .had .. => true
  | .tquant .. => true
  | .accrd .. => true
  | .accst .. => true
  | .acczero .. => true
  | .mxrec .. => true
  | .mxrun .. => true
  | .matrixComplete .. => true
  | .psld .. => true
  | .psgen .. => true
  | .prank .. => true
  | .pschk .. => true
  | .pssave .. => true
  | .psrest .. => true
  | .rgopen .. => true
  | .rgclose .. => true
  | .rgstat .. => true
  | .weirMerge .. => true
  | .roundComplete .. => true
  | .watchdogExpiry .. => true
  | .illegal .. => true
  | .asyncTrapDelivery .. => true
  | .fmtmismatchRecord .. => true
  | .preempt .. => true
  | .fill .. => true
  | .loadValueReturn .. => true
  | .accessPerform .. => true
  | .waitWithdrawal .. => true
  | .walkComplete .. => true
  | .recordArrival .. => true
  | .ringRefill .. => true
  | .dispatch .. => true
  | .taskEnd .. => true
  | .queueEntryArrival .. => true
  | .samplingPulse .. => true
  | .frequencyStep .. => true
  | .newClockStart .. => true
  | .thermalThrottle .. => true
  | .throttleStep .. => true
  | .thermalTrip .. => true
  | .timeSlew .. => true
  | .moduleReset .. => true
  | .bringupLevelRaise .. => true
  | .peerLinkUp .. => true
  | .farPortUp .. => true
  | .railLoss .. => true
  | .linkDown .. => true
  | .scrub .. => true
  | .dump .. => true
  | .launchWindowWrite .. => true
  | .managementWindowAccess .. => true
  | .cxlMemAccess .. => true
  | .peerAccess .. => true
  | .getVersion .. => true
  | .getCapabilities .. => true
  | .negotiateAlgorithms .. => true
  | .getDigests .. => true
  | .getCertificate .. => true
  | .challenge .. => true
  | .getMeasurements .. => true
  | .slreqWrite .. => true
  | .hmapWrite .. => true
  | .pdirbaseWrite .. => true
  | .sptagRead .. => true
  | .sptagWrite .. => true
  | .qringWrite .. => true
  | .qcfgWrite .. => true
  | .accputWrite .. => true
  | .dropdRead .. => true
  | .pmrdRead .. => true
  | .prpostWrite .. => true
  | .rstpostWrite .. => true
  | .mapoutWrite .. => true
  | .tadjWrite .. => true
  | .tfreqWrite .. => true
  | .fcapWrite .. => true
  | .smpbufWrite .. => true
  | .dumpreqWrite .. => true
  | .haltreq .. => true
  | .dbgResume .. => true
  | .step .. => true
  | .freeze .. => true
  | .peerstatOpenWrite .. => true
  | .hostwinWrite .. => true
  | .patternCommandComplete .. => true
  | .weirHold .. => true
  | .farPortDown .. => true
  | .remoteOpenClear .. => true
  | .polderWindowUpdate .. => true
  | .groupSetupComplete .. => true
  | .tlbShootdown .. => true

end Sys2Proof
end

