-- ==== Sys2Proof/Decode.lean ====
section
/-! DEFINITION. Decoding (R17 to R49): a total function from a 32-bit word to an instruction, or none for a word that
R48 calls illegal, and the encoder written from the same tables.  Every field is taken out here, once; the checks of
R48 that depend on the issuing slot or its privilege stand with the meanings.

The definitions that build an instruction are `noncomputable` for one reason only: Lean's code generator gives no object
tag above 244, and `Instr` has 362 constructors, one per row of the table.  Lean's kernel evaluates them as it does any
other definition.  -/

namespace Sys2Proof

/-- The field of `w` that begins at bit `lo`, as wide as its type says (R18). -/
def fld {n : Nat} (w : BitVec 32) (lo : Nat) : BitVec n := BitVec.ofNat n (w.toNat / 2 ^ lo)

/-- The number that bits `lo` to `lo + n - 1` of `w` hold. -/
def bits (w : BitVec 32) (lo n : Nat) : Nat := w.toNat / 2 ^ lo % 2 ^ n

/-- `i` when the word's fixed fields hold what the encoding requires (R19), none otherwise. -/
def requires (b : Bool) (i : Instr) : Option Instr := if b then some i else none

/-- Major 0x01. -/
def decInt (w : BitVec 32) : Option Instr :=
  match bits w 0 8 with
  | 0x00 => some (.add (fld w 20) (fld w 14) (fld w 8))
  | 0x01 => some (.sub (fld w 20) (fld w 14) (fld w 8))
  | 0x02 => some (.and (fld w 20) (fld w 14) (fld w 8))
  | 0x03 => some (.or (fld w 20) (fld w 14) (fld w 8))
  | 0x04 => some (.xor (fld w 20) (fld w 14) (fld w 8))
  | 0x05 => some (.andn (fld w 20) (fld w 14) (fld w 8))
  | 0x06 => some (.sll (fld w 20) (fld w 14) (fld w 8))
  | 0x07 => some (.srl (fld w 20) (fld w 14) (fld w 8))
  | 0x08 => some (.sra (fld w 20) (fld w 14) (fld w 8))
  | 0x09 => some (.rol (fld w 20) (fld w 14) (fld w 8))
  | 0x0A => some (.ror (fld w 20) (fld w 14) (fld w 8))
  | 0x0B => some (.slt (fld w 20) (fld w 14) (fld w 8))
  | 0x0C => some (.sltu (fld w 20) (fld w 14) (fld w 8))
  | 0x0D => some (.min (fld w 20) (fld w 14) (fld w 8))
  | 0x0E => some (.max (fld w 20) (fld w 14) (fld w 8))
  | 0x0F => some (.minu (fld w 20) (fld w 14) (fld w 8))
  | 0x10 => some (.maxu (fld w 20) (fld w 14) (fld w 8))
  | 0x11 => some (.addw (fld w 20) (fld w 14) (fld w 8))
  | 0x12 => some (.subw (fld w 20) (fld w 14) (fld w 8))
  | 0x13 => requires (bits w 8 6 == 0) (.clz (fld w 20) (fld w 14))
  | 0x14 => requires (bits w 8 6 == 0) (.ctz (fld w 20) (fld w 14))
  | 0x15 => requires (bits w 8 6 == 0) (.popc (fld w 20) (fld w 14))
  | 0x16 => requires (bits w 8 6 == 0) (.sextb (fld w 20) (fld w 14))
  | 0x17 => requires (bits w 8 6 == 0) (.sexth (fld w 20) (fld w 14))
  | 0x18 => requires (bits w 8 6 == 0) (.sextw (fld w 20) (fld w 14))
  | _ => none

/-- Major 0x02. -/
def decMulDiv (w : BitVec 32) : Option Instr :=
  match bits w 0 8 with
  | 0x00 => some (.mul (fld w 20) (fld w 14) (fld w 8))
  | 0x01 => some (.mulh (fld w 20) (fld w 14) (fld w 8))
  | 0x02 => some (.mulhu (fld w 20) (fld w 14) (fld w 8))
  | 0x03 => some (.mulhsu (fld w 20) (fld w 14) (fld w 8))
  | 0x04 => some (.div (fld w 20) (fld w 14) (fld w 8))
  | 0x05 => some (.divu (fld w 20) (fld w 14) (fld w 8))
  | 0x06 => some (.rem (fld w 20) (fld w 14) (fld w 8))
  | 0x07 => some (.remu (fld w 20) (fld w 14) (fld w 8))
  | 0x08 => some (.mulw (fld w 20) (fld w 14) (fld w 8))
  | 0x09 => some (.divw (fld w 20) (fld w 14) (fld w 8))
  | 0x0A => some (.divwu (fld w 20) (fld w 14) (fld w 8))
  | 0x0B => some (.remw (fld w 20) (fld w 14) (fld w 8))
  | 0x0C => some (.remwu (fld w 20) (fld w 14) (fld w 8))
  | _ => none

/-- Major 0x03. -/
def decAddi (w : BitVec 32) : Option Instr :=
  some (.addi (fld w 20) (fld w 14) (fld w 0))

/-- Major 0x04. -/
def decSlti (w : BitVec 32) : Option Instr :=
  some (.slti (fld w 20) (fld w 14) (fld w 0))

/-- Major 0x05. -/
def decSltiu (w : BitVec 32) : Option Instr :=
  some (.sltiu (fld w 20) (fld w 14) (fld w 0))

/-- Major 0x06. -/
def decAndi (w : BitVec 32) : Option Instr :=
  some (.andi (fld w 20) (fld w 14) (fld w 0))

/-- Major 0x07. -/
def decOri (w : BitVec 32) : Option Instr :=
  some (.ori (fld w 20) (fld w 14) (fld w 0))

/-- Major 0x08. -/
def decXori (w : BitVec 32) : Option Instr :=
  some (.xori (fld w 20) (fld w 14) (fld w 0))

/-- Major 0x09. -/
def decShiftImm (w : BitVec 32) : Option Instr :=
  match bits w 12 2 with
  | 0x00 => requires (bits w 6 6 == 0) (.slli (fld w 20) (fld w 14) (fld w 0))
  | 0x01 => requires (bits w 6 6 == 0) (.srli (fld w 20) (fld w 14) (fld w 0))
  | 0x02 => requires (bits w 6 6 == 0) (.srai (fld w 20) (fld w 14) (fld w 0))
  | 0x03 => requires (bits w 6 6 == 0) (.rori (fld w 20) (fld w 14) (fld w 0))
  | _ => none

/-- Major 0x0A. -/
def decLdhi (w : BitVec 32) : Option Instr :=
  some (.ldhi (fld w 20) (fld w 0))

/-- Major 0x0B. -/
def decPcrel (w : BitVec 32) : Option Instr :=
  some (.pcrel (fld w 20) (fld w 0))

/-- Major 0x0C. -/
def decAffine (w : BitVec 32) : Option Instr :=
  match bits w 0 8 with
  | 0x00 => requires (bits w 24 2 == 0) (.afset (fld w 20) (fld w 14) (fld w 8))
  | 0x01 => requires (bits w 8 6 == 0 && bits w 24 2 == 0) (.afbase (fld w 20) (fld w 14))
  | 0x02 => requires (bits w 8 6 == 0 && bits w 24 2 == 0) (.afstr (fld w 20) (fld w 14))
  | 0x03 => requires (bits w 18 2 == 0 && bits w 24 2 == 0) (.afadd (fld w 20) (fld w 14) (fld w 8))
  | 0x04 => requires (bits w 8 6 == 0 && bits w 18 2 == 0 && bits w 24 2 == 0) (.afstep (fld w 20) (fld w 14))
  | 0x05 => requires (bits w 8 6 == 0 && bits w 18 2 == 0 && bits w 24 2 == 0) (.afmov (fld w 20) (fld w 14))
  | 0x06 => requires (bits w 8 6 == 0 && bits w 18 2 == 0) (.afrdb (fld w 20) (fld w 14))
  | 0x07 => requires (bits w 8 6 == 0 && bits w 18 2 == 0) (.afrds (fld w 20) (fld w 14))
  | _ => none

/-- Major 0x0D. -/
def decRegState (w : BitVec 32) : Option Instr :=
  match bits w 0 8 with
  | 0x00 => requires (bits w 8 12 == 0) (.sete (fld w 20))
  | 0x01 => requires (bits w 8 12 == 0) (.setf (fld w 20))
  | 0x02 => requires (bits w 8 6 == 0) (.tstf (fld w 20) (fld w 14))
  | 0x03 => requires (bits w 8 6 == 0 && bits w 17 3 == 0) (.gld (fld w 20) (fld w 14))
  | 0x04 => requires (bits w 8 6 == 0 && bits w 23 3 == 0) (.gst (fld w 20) (fld w 14))
  | 0x05 => requires (bits w 8 6 == 0 && bits w 17 3 == 0) (.gldfe (fld w 20) (fld w 14))
  | 0x06 => requires (bits w 8 6 == 0 && bits w 23 3 == 0) (.gstfe (fld w 20) (fld w 14))
  | 0x07 => requires (bits w 20 6 == 0) (.rfill (fld w 14) (fld w 8))
  | 0x08 => requires (bits w 8 12 == 0 && bits w 25 1 == 0) (.vsete (fld w 20))
  | 0x09 => requires (bits w 8 6 == 0 && bits w 19 1 == 0) (.vtstf (fld w 20) (fld w 14))
  | 0x0A => requires (bits w 8 6 == 0) (.rdfe (fld w 20) (fld w 14))
  | 0x0B => requires (bits w 8 6 == 0) (.wrfe (fld w 20) (fld w 14))
  | 0x0C => requires (bits w 8 6 == 0 && bits w 22 4 == 0) (.qpushc (fld w 20) (fld w 14))
  | 0x0D => requires (bits w 8 6 == 0 && bits w 22 4 == 0) (.qstat (fld w 20) (fld w 14))
  | _ => none

/-- Major 0x0E. -/
def decControl (w : BitVec 32) : Option Instr :=
  if bits w 14 6 = 0 then some (.movc (fld w 20) (fld w 0))
  else if bits w 20 6 = 0 then some (.movtc (fld w 14) (fld w 0))
  else none

/-- Major 0x0F. -/
def decSystem (w : BitVec 32) : Option Instr :=
  match bits w 0 8 with
  | 0x00 => requires (bits w 14 12 == 0) (.trap (fld w 8))
  | 0x01 => requires (bits w 8 18 == 0) .eret
  | 0x02 => requires (bits w 14 12 == 0) (.bkpt (fld w 8))
  | 0x03 => requires (bits w 8 18 == 0) .yield
  | 0x04 => requires (bits w 8 6 == 0 && bits w 20 6 == 0) (.sleep (fld w 14))
  | 0x05 => requires (bits w 8 6 == 0 && bits w 20 6 == 0) (.icinv (fld w 14))
  | 0x06 => requires (bits w 20 6 == 0) (.tlbinv (fld w 14) (fld w 8))
  | 0x07 => requires (bits w 8 18 == 0) .halt
  | _ => none

/-- Major 0x10. -/
def decBranch (w : BitVec 32) : Option Instr :=
  match bits w 23 3 with
  | 0x00 => some (.beq (fld w 17) (fld w 11) (fld w 0))
  | 0x01 => some (.bne (fld w 17) (fld w 11) (fld w 0))
  | 0x02 => some (.blt (fld w 17) (fld w 11) (fld w 0))
  | 0x03 => some (.bge (fld w 17) (fld w 11) (fld w 0))
  | 0x04 => some (.bltu (fld w 17) (fld w 11) (fld w 0))
  | 0x05 => some (.bgeu (fld w 17) (fld w 11) (fld w 0))
  | _ => none

/-- Major 0x11. -/
def decBr (w : BitVec 32) : Option Instr :=
  some (.br (fld w 0))

/-- Major 0x12. -/
def decCall (w : BitVec 32) : Option Instr :=
  some (.call (fld w 0))

/-- Major 0x13. -/
def decJalr (w : BitVec 32) : Option Instr :=
  some (.jalr (fld w 20) (fld w 14) (fld w 0))

/-- Major 0x14. -/
def decMaskBranch (w : BitVec 32) : Option Instr :=
  match bits w 23 3 with
  | 0x00 => requires (bits w 11 6 == 0 && bits w 20 3 == 0) (.bany (fld w 17) (fld w 0))
  | 0x01 => requires (bits w 11 6 == 0 && bits w 20 3 == 0) (.ball (fld w 17) (fld w 0))
  | 0x02 => requires (bits w 11 6 == 0 && bits w 20 3 == 0) (.bnone (fld w 17) (fld w 0))
  | 0x03 => requires (bits w 11 6 == 0 && bits w 20 3 == 0) (.bnall (fld w 17) (fld w 0))
  | _ => none

/-- Major 0x15. -/
def decDivergence (w : BitVec 32) : Option Instr :=
  match bits w 0 8 with
  | 0x00 => requires (bits w 8 6 == 0 && bits w 17 9 == 0) (.dif (fld w 14))
  | 0x01 => requires (bits w 8 18 == 0) .delse
  | 0x02 => requires (bits w 8 18 == 0) .dend
  | 0x03 => requires (bits w 8 6 == 0 && bits w 17 9 == 0) (.dbrk (fld w 14))
  | 0x04 => requires (bits w 8 18 == 0) .whole
  | 0x05 => requires (bits w 8 18 == 0) .wholeH
  | 0x06 => requires (bits w 8 18 == 0) .endwhole
  | _ => none

/-- Major 0x16. -/
def decChannel (w : BitVec 32) : Option Instr :=
  match bits w 20 6 with
  | 0x00 => requires (bits w 0 20 == 0) .chpub
  | 0x01 => requires (bits w 0 20 == 0) .chclose
  | 0x02 => requires (bits w 0 14 == 0) (.chsub (fld w 14))
  | 0x03 => requires (bits w 0 20 == 0) .chunsub
  | 0x04 => requires (bits w 0 20 == 0) .chsync
  | 0x05 => some (.chleaveIf (fld w 14) (fld w 0))
  | 0x06 => some (.chresub (fld w 14) (fld w 0))
  | 0x07 => requires (bits w 14 6 == 0) (.chrdv (fld w 0))
  | _ => none

/-- Major 0x17. -/
def decTask (w : BitVec 32) : Option Instr :=
  match bits w 0 8 with
  | 0x00 => requires (bits w 8 6 == 0 && bits w 20 6 == 0) (.spawn (fld w 14))
  | 0x01 => requires (bits w 8 6 == 0) (.callat (fld w 20) (fld w 14))
  | 0x02 => requires (bits w 8 6 == 0 && bits w 20 6 == 0) (.retv (fld w 14))
  | 0x03 => requires (bits w 8 18 == 0) .quit
  | 0x04 => some (.tmake (fld w 20) (fld w 14) (fld w 8))
  | 0x05 => requires (bits w 8 6 == 0 && bits w 20 6 == 0) (.tdec (fld w 14))
  | 0x06 => requires (bits w 8 6 == 0 && bits w 20 6 == 0) (.migr (fld w 14))
  | 0x07 => requires (bits w 8 18 == 0) .qret
  | _ => none

/-- Major 0x18. -/
def decLoad (w : BitVec 32) : Option Instr :=
  match bits w 11 3 with
  | 0x00 => some (.ldB (fld w 20) (fld w 14) (fld w 0))
  | 0x01 => some (.ldH (fld w 20) (fld w 14) (fld w 0))
  | 0x02 => some (.ldW (fld w 20) (fld w 14) (fld w 0))
  | 0x03 => some (.ldD (fld w 20) (fld w 14) (fld w 0))
  | 0x04 => some (.ldBu (fld w 20) (fld w 14) (fld w 0))
  | 0x05 => some (.ldHu (fld w 20) (fld w 14) (fld w 0))
  | 0x06 => some (.ldWu (fld w 20) (fld w 14) (fld w 0))
  | _ => none

/-- Major 0x19. -/
def decStore (w : BitVec 32) : Option Instr :=
  match bits w 11 3 with
  | 0x00 => some (.stB (fld w 20) (fld w 14) (fld w 0))
  | 0x01 => some (.stH (fld w 20) (fld w 14) (fld w 0))
  | 0x02 => some (.stW (fld w 20) (fld w 14) (fld w 0))
  | 0x03 => some (.stD (fld w 20) (fld w 14) (fld w 0))
  | _ => none

/-- Major 0x1A. -/
def decSyncLoad (w : BitVec 32) : Option Instr :=
  match bits w 9 2 with
  | 0x00 => some (.ldfe (fld w 20) (fld w 14) (fld w 11) (fld w 8) (fld w 0))
  | 0x01 => some (.ldff (fld w 20) (fld w 14) (fld w 11) (fld w 8) (fld w 0))
  | _ => none

/-- Major 0x1B. -/
def decSyncStore (w : BitVec 32) : Option Instr :=
  match bits w 9 2 with
  | 0x00 => some (.stfe (fld w 20) (fld w 14) (fld w 11) (fld w 8) (fld w 0))
  | 0x01 => some (.stff (fld w 20) (fld w 14) (fld w 11) (fld w 8) (fld w 0))
  | 0x02 => requires (bits w 20 6 == 0) (.feclr (fld w 14) (fld w 11) (fld w 8) (fld w 0))
  | _ => none

/-- Major 0x1C. -/
def decAtomic (w : BitVec 32) : Option Instr :=
  match bits w 4 4 with
  | 0x00 => some (.aadd (fld w 20) (fld w 14) (fld w 8) (fld w 3) (fld w 0))
  | 0x01 => some (.aand (fld w 20) (fld w 14) (fld w 8) (fld w 3) (fld w 0))
  | 0x02 => some (.aor (fld w 20) (fld w 14) (fld w 8) (fld w 3) (fld w 0))
  | 0x03 => some (.axor (fld w 20) (fld w 14) (fld w 8) (fld w 3) (fld w 0))
  | 0x04 => some (.amin (fld w 20) (fld w 14) (fld w 8) (fld w 3) (fld w 0))
  | 0x05 => some (.amax (fld w 20) (fld w 14) (fld w 8) (fld w 3) (fld w 0))
  | 0x06 => some (.aminu (fld w 20) (fld w 14) (fld w 8) (fld w 3) (fld w 0))
  | 0x07 => some (.amaxu (fld w 20) (fld w 14) (fld w 8) (fld w 3) (fld w 0))
  | 0x08 => some (.aswap (fld w 20) (fld w 14) (fld w 8) (fld w 3) (fld w 0))
  | 0x09 => some (.acas (fld w 20) (fld w 14) (fld w 8) (fld w 3) (fld w 0))
  | 0x0A => requires (bits w 3 1 == 0) (.atomicAfadd (fld w 20) (fld w 14) (fld w 8) (fld w 0))
  | _ => none

/-- Major 0x1D. -/
def decFenceBarrier (w : BitVec 32) : Option Instr :=
  match bits w 3 5 with
  | 0x00 => requires (bits w 8 18 == 0) (.fence (fld w 0))
  | 0x01 => requires (bits w 0 3 == 0 && bits w 20 6 == 0) (.barinit (fld w 14) (fld w 8))
  | 0x02 => requires (bits w 0 3 == 0 && bits w 20 6 == 0) (.bararr (fld w 14) (fld w 8))
  | 0x03 => requires (bits w 0 3 == 0 && bits w 20 6 == 0) (.barwait (fld w 14) (fld w 8))
  | 0x04 => requires (bits w 0 3 == 0 && bits w 8 6 == 0) (.barrd (fld w 20) (fld w 14))
  | _ => none

/-- Major 0x1E. -/
def decPolderBatch (w : BitVec 32) : Option Instr :=
  match bits w 0 8 with
  | 0x00 => requires (bits w 20 6 == 0) (.pjoin (fld w 14) (fld w 8))
  | 0x01 => requires (bits w 8 18 == 0) .pleave
  | 0x02 => requires (bits w 8 6 == 0) (.pquery (fld w 20) (fld w 14))
  | 0x03 => requires (bits w 8 18 == 0) .bseal
  | 0x04 => requires (bits w 8 6 == 0 && bits w 20 6 == 0) (.bwait (fld w 14))
  | 0x05 => requires (bits w 8 6 == 0 && bits w 23 3 == 0) (.mbsend (fld w 20) (fld w 14))
  | 0x06 => requires (bits w 8 6 == 0 && bits w 17 3 == 0) (.mbtake (fld w 20) (fld w 14))
  | _ => none

/-- Major 0x20. -/
def decVecInt (w : BitVec 32) : Option Instr :=
  match bits w 0 8 with
  | 0x00 => some (.vadd (fld w 21) (fld w 16) (fld w 11) (fld w 8))
  | 0x01 => some (.vsub (fld w 21) (fld w 16) (fld w 11) (fld w 8))
  | 0x02 => some (.vmul (fld w 21) (fld w 16) (fld w 11) (fld w 8))
  | 0x03 => some (.vmulh (fld w 21) (fld w 16) (fld w 11) (fld w 8))
  | 0x04 => some (.vmulhu (fld w 21) (fld w 16) (fld w 11) (fld w 8))
  | 0x05 => some (.vand (fld w 21) (fld w 16) (fld w 11) (fld w 8))
  | 0x06 => some (.vor (fld w 21) (fld w 16) (fld w 11) (fld w 8))
  | 0x07 => some (.vxor (fld w 21) (fld w 16) (fld w 11) (fld w 8))
  | 0x08 => some (.vandn (fld w 21) (fld w 16) (fld w 11) (fld w 8))
  | 0x09 => some (.vsll (fld w 21) (fld w 16) (fld w 11) (fld w 8))
  | 0x0A => some (.vsrl (fld w 21) (fld w 16) (fld w 11) (fld w 8))
  | 0x0B => some (.vsra (fld w 21) (fld w 16) (fld w 11) (fld w 8))
  | 0x0C => some (.vmin (fld w 21) (fld w 16) (fld w 11) (fld w 8))
  | 0x0D => some (.vmax (fld w 21) (fld w 16) (fld w 11) (fld w 8))
  | 0x0E => some (.vminu (fld w 21) (fld w 16) (fld w 11) (fld w 8))
  | 0x0F => some (.vmaxu (fld w 21) (fld w 16) (fld w 11) (fld w 8))
  | 0x10 => some (.vadds (fld w 21) (fld w 16) (fld w 11) (fld w 8))
  | 0x11 => some (.vsubs (fld w 21) (fld w 16) (fld w 11) (fld w 8))
  | 0x12 => some (.vaddsu (fld w 21) (fld w 16) (fld w 11) (fld w 8))
  | 0x13 => some (.vsubsu (fld w 21) (fld w 16) (fld w 11) (fld w 8))
  | 0x14 => requires (bits w 11 5 == 0) (.vabs (fld w 21) (fld w 16) (fld w 8))
  | 0x15 => requires (bits w 11 5 == 0) (.vclz (fld w 21) (fld w 16) (fld w 8))
  | 0x16 => requires (bits w 11 5 == 0) (.vpopc (fld w 21) (fld w 16) (fld w 8))
  | 0x17 => requires (bits w 24 2 == 0) (.vceq (fld w 21) (fld w 16) (fld w 11) (fld w 8))
  | 0x18 => requires (bits w 24 2 == 0) (.vclt (fld w 21) (fld w 16) (fld w 11) (fld w 8))
  | 0x19 => requires (bits w 24 2 == 0) (.vcltu (fld w 21) (fld w 16) (fld w 11) (fld w 8))
  | _ => none

/-- Major 0x21. -/
def decVecFp (w : BitVec 32) : Option Instr :=
  match bits w 0 8 with
  | 0x00 => some (.vfadd (fld w 21) (fld w 16) (fld w 11) (fld w 8))
  | 0x01 => some (.vfsub (fld w 21) (fld w 16) (fld w 11) (fld w 8))
  | 0x02 => some (.vfmul (fld w 21) (fld w 16) (fld w 11) (fld w 8))
  | 0x03 => some (.vfdiv (fld w 21) (fld w 16) (fld w 11) (fld w 8))
  | 0x04 => some (.vfma (fld w 21) (fld w 16) (fld w 11) (fld w 8))
  | 0x05 => some (.vfms (fld w 21) (fld w 16) (fld w 11) (fld w 8))
  | 0x06 => some (.vfnma (fld w 21) (fld w 16) (fld w 11) (fld w 8))
  | 0x07 => some (.vfmin (fld w 21) (fld w 16) (fld w 11) (fld w 8))
  | 0x08 => some (.vfmax (fld w 21) (fld w 16) (fld w 11) (fld w 8))
  | 0x09 => requires (bits w 11 5 == 0) (.vfabs (fld w 21) (fld w 16) (fld w 8))
  | 0x0A => requires (bits w 11 5 == 0) (.vfneg (fld w 21) (fld w 16) (fld w 8))
  | 0x0B => requires (bits w 24 2 == 0) (.vfceq (fld w 21) (fld w 16) (fld w 11) (fld w 8))
  | 0x0C => requires (bits w 24 2 == 0) (.vfclt (fld w 21) (fld w 16) (fld w 11) (fld w 8))
  | 0x0D => requires (bits w 24 2 == 0) (.vfcle (fld w 21) (fld w 16) (fld w 11) (fld w 8))
  | 0x0E => requires (bits w 24 2 == 0) (.vfcun (fld w 21) (fld w 16) (fld w 11) (fld w 8))
  | _ => none

/-- Major 0x22. -/
def decVecFun (w : BitVec 32) : Option Instr :=
  match bits w 0 8 with
  | 0x00 => requires (bits w 11 5 == 0) (.vfsqrt (fld w 21) (fld w 16) (fld w 8))
  | 0x01 => requires (bits w 11 5 == 0) (.vfrsq (fld w 21) (fld w 16) (fld w 8))
  | 0x02 => requires (bits w 11 5 == 0) (.vfrcp (fld w 21) (fld w 16) (fld w 8))
  | 0x03 => requires (bits w 11 5 == 0) (.vfexp2 (fld w 21) (fld w 16) (fld w 8))
  | 0x04 => requires (bits w 11 5 == 0) (.vflog2 (fld w 21) (fld w 16) (fld w 8))
  | 0x05 => requires (bits w 11 5 == 0) (.vfsin (fld w 21) (fld w 16) (fld w 8))
  | 0x06 => requires (bits w 11 5 == 0) (.vfcos (fld w 21) (fld w 16) (fld w 8))
  | 0x07 => requires (bits w 11 5 == 0) (.vftanh (fld w 21) (fld w 16) (fld w 8))
  | _ => requires (bits w 6 2 == 1 && bits w 11 5 == 0) (.vcvt (fld w 21) (fld w 16) (fld w 8) (fld w 3) (fld w 0))

/-- Major 0x23. -/
def decCrossLane (w : BitVec 32) : Option Instr :=
  match bits w 0 8 with
  | 0x00 => some (.vperm (fld w 21) (fld w 16) (fld w 11) (fld w 8))
  | 0x01 => requires (bits w 13 3 == 0) (.qxch (fld w 21) (fld w 16) (fld w 11) (fld w 8))
  | 0x02 => requires (bits w 13 3 == 0) (.qbcast (fld w 21) (fld w 16) (fld w 11) (fld w 8))
  | 0x03 => requires (bits w 15 1 == 0) (.vshup (fld w 21) (fld w 16) (fld w 11) (fld w 8))
  | 0x04 => requires (bits w 15 1 == 0) (.vshdn (fld w 21) (fld w 16) (fld w 11) (fld w 8))
  | 0x05 => requires (bits w 11 5 == 0) (.vradd (fld w 21) (fld w 16) (fld w 8))
  | 0x06 => requires (bits w 11 5 == 0) (.vraddi (fld w 21) (fld w 16) (fld w 8))
  | 0x07 => requires (bits w 11 5 == 0) (.vrmax (fld w 21) (fld w 16) (fld w 8))
  | 0x08 => requires (bits w 11 5 == 0) (.vrmin (fld w 21) (fld w 16) (fld w 8))
  | 0x09 => requires (bits w 11 5 == 0) (.vscan (fld w 21) (fld w 16) (fld w 8))
  | 0x0A => requires (bits w 11 5 == 0) (.vscani (fld w 21) (fld w 16) (fld w 8))
  | _ => none

/-- Major 0x24. -/
def decVecMove (w : BitVec 32) : Option Instr :=
  match bits w 0 8 with
  | 0x00 => requires (bits w 11 5 == 0) (.vmov (fld w 21) (fld w 16) (fld w 8))
  | 0x01 => some (.vsel (fld w 21) (fld w 16) (fld w 11) (fld w 8))
  | 0x08 => requires (bits w 11 4 == 0) (.vbcast (fld w 21) (fld w 15) (fld w 8))
  | 0x09 => requires (bits w 8 3 == 0) (.vext (fld w 21) (fld w 15) (fld w 11))
  | 0x0A => some (.vins (fld w 21) (fld w 15) (fld w 11) (fld w 8))
  | 0x10 => requires (bits w 8 3 == 0 && bits w 14 2 == 0 && bits w 19 2 == 0 && bits w 24 2 == 0) (.kand (fld w 21) (fld w 16) (fld w 11))
  | 0x11 => requires (bits w 8 3 == 0 && bits w 14 2 == 0 && bits w 19 2 == 0 && bits w 24 2 == 0) (.kor (fld w 21) (fld w 16) (fld w 11))
  | 0x12 => requires (bits w 8 3 == 0 && bits w 14 2 == 0 && bits w 19 2 == 0 && bits w 24 2 == 0) (.kxor (fld w 21) (fld w 16) (fld w 11))
  | 0x13 => requires (bits w 8 8 == 0 && bits w 19 2 == 0 && bits w 24 2 == 0) (.knot (fld w 21) (fld w 16))
  | 0x14 => requires (bits w 8 8 == 0 && bits w 19 2 == 0 && bits w 24 2 == 0) (.kmov (fld w 21) (fld w 16))
  | 0x15 => requires (bits w 8 8 == 0 && bits w 19 2 == 0 && bits w 24 2 == 0) (.elect (fld w 21) (fld w 16))
  | 0x18 => requires (bits w 8 7 == 0 && bits w 24 2 == 0) (.ktos (fld w 21) (fld w 15))
  | 0x19 => requires (bits w 8 7 == 0 && bits w 24 2 == 0) (.stok (fld w 21) (fld w 15))
  | 0x1A => requires (bits w 8 7 == 0 && bits w 24 2 == 0) (.vany (fld w 21) (fld w 15))
  | 0x1B => requires (bits w 8 7 == 0 && bits w 24 2 == 0) (.vall (fld w 21) (fld w 15))
  | 0x1C => requires (bits w 8 7 == 0 && bits w 24 2 == 0) (.kpopc (fld w 21) (fld w 15))
  | _ => none

/-- Major 0x25. -/
noncomputable def decVld (w : BitVec 32) : Option Instr :=
  some (.vld (fld w 21) (fld w 17) (fld w 14) (fld w 0))

/-- Major 0x26. -/
noncomputable def decVst (w : BitVec 32) : Option Instr :=
  some (.vst (fld w 21) (fld w 17) (fld w 14) (fld w 0))

/-- Major 0x27. -/
noncomputable def decVecIndexed (w : BitVec 32) : Option Instr :=
  match bits w 0 8 with
  | 0x00 => requires (bits w 15 1 == 0) (.vldx (fld w 21) (fld w 16) (fld w 11) (fld w 8))
  | 0x01 => requires (bits w 15 1 == 0) (.vstx (fld w 21) (fld w 16) (fld w 11) (fld w 8))
  | 0x02 => requires (bits w 15 1 == 0) (.vldxW (fld w 21) (fld w 16) (fld w 11) (fld w 8))
  | 0x03 => requires (bits w 15 1 == 0) (.vstxW (fld w 21) (fld w 16) (fld w 11) (fld w 8))
  | _ => none

/-- Major 0x28. -/
noncomputable def decEngine (w : BitVec 32) : Option Instr :=
  match bits w 16 10 with
  | 0x00 => requires (bits w 3 1 == 0) (.slcopy (fld w 10) (fld w 4) (fld w 2) (fld w 1) (fld w 0))
  | 0x01 => requires (bits w 3 1 == 0) (.slcopy2 (fld w 10) (fld w 4) (fld w 2) (fld w 1) (fld w 0))
  | 0x02 => requires (bits w 1 1 == 0 && bits w 3 1 == 0) (.slgath (fld w 10) (fld w 4) (fld w 2) (fld w 0))
  | 0x03 => requires (bits w 1 1 == 0 && bits w 3 1 == 0) (.slscat (fld w 10) (fld w 4) (fld w 2) (fld w 0))
  | 0x04 => requires (bits w 1 1 == 0 && bits w 3 7 == 0) (.slfill (fld w 10) (fld w 2) (fld w 0))
  | 0x05 => requires (bits w 1 1 == 0 && bits w 3 7 == 0) (.slpat (fld w 10) (fld w 2) (fld w 0))
  | 0x06 => requires (bits w 1 1 == 0 && bits w 3 1 == 0) (.slsend (fld w 10) (fld w 4) (fld w 2) (fld w 0))
  | 0x07 => requires (bits w 1 1 == 0 && bits w 3 1 == 0) (.slrecv (fld w 10) (fld w 4) (fld w 2) (fld w 0))
  | 0x08 => requires (bits w 1 1 == 0 && bits w 3 1 == 0) (.sldred (fld w 10) (fld w 4) (fld w 2) (fld w 0))
  | 0x09 => requires (bits w 1 1 == 0 && bits w 3 1 == 0) (.slquiesce (fld w 10) (fld w 4) (fld w 2) (fld w 0))
  | 0x0A => requires (bits w 1 1 == 0 && bits w 3 1 == 0) (.slresume (fld w 10) (fld w 4) (fld w 2) (fld w 0))
  | 0x0B => requires (bits w 0 2 == 0 && bits w 3 7 == 0) (.slstat (fld w 10) (fld w 2))
  | 0x80 => requires (bits w 3 1 == 0) (.tld (fld w 10) (fld w 4) (fld w 0))
  | 0x81 => requires (bits w 3 1 == 0) (.tst (fld w 10) (fld w 4) (fld w 0))
  | 0x82 => requires (bits w 0 3 == 0 && bits w 4 6 == 0) (.tzero (fld w 10) (fld w 3))
  | 0x83 => requires (bits w 0 16 == 0) .mma
  | 0x84 => requires (bits w 2 1 == 0 && bits w 4 6 == 0) (.spmma (fld w 10) (fld w 3) (fld w 0))
  | 0x85 => requires (bits w 2 1 == 0 && bits w 4 6 == 0) (.spmmat (fld w 10) (fld w 3) (fld w 0))
  | 0x86 => requires (bits w 1 2 == 0) (.had (fld w 10) (fld w 4) (fld w 3) (fld w 0))
  | 0x87 => requires (bits w 3 1 == 0) (.tquant (fld w 10) (fld w 4) (fld w 0))
  | 0x88 => requires (bits w 2 2 == 0) (.accrd (fld w 10) (fld w 4) (fld w 0))
  | 0x89 => requires (bits w 2 2 == 0) (.accst (fld w 10) (fld w 4) (fld w 0))
  | 0x8A => requires (bits w 0 3 == 0 && bits w 4 6 == 0) (.acczero (fld w 10) (fld w 3))
  | 0x200 => requires (bits w 0 4 == 0) (.mxrec (fld w 10) (fld w 4))
  | 0x201 => requires (bits w 0 16 == 0) .mxrun
  | 0x100 => requires (bits w 2 2 == 0) (.psld (fld w 10) (fld w 4) (fld w 0))
  | 0x101 => requires (bits w 3 1 == 1) (.psgen (fld w 10) (fld w 4) (fld w 2) (fld w 0))
  | 0x102 => requires (bits w 2 2 == 0) (.prank (fld w 10) (fld w 4) (fld w 0))
  | 0x103 => requires (bits w 2 2 == 0) (.pschk (fld w 10) (fld w 4) (fld w 0))
  | 0x104 => requires (bits w 2 8 == 0) (.pssave (fld w 10) (fld w 0))
  | 0x105 => requires (bits w 2 8 == 0) (.psrest (fld w 10) (fld w 0))
  | 0x180 => requires (bits w 0 4 == 0) (.rgopen (fld w 10) (fld w 4))
  | 0x181 => requires (bits w 0 3 == 0 && bits w 4 6 == 0) (.rgclose (fld w 10) (fld w 3))
  | 0x182 => requires (bits w 0 4 == 0) (.rgstat (fld w 10) (fld w 4))
  | _ => none

/-- The instruction whose fields `w` holds, before the field-value checks of `Instr.wf`. -/
noncomputable def decodeFields (w : BitVec 32) : Option Instr :=
  match bits w 26 6 with
  | 0x01 => decInt w
  | 0x02 => decMulDiv w
  | 0x03 => decAddi w
  | 0x04 => decSlti w
  | 0x05 => decSltiu w
  | 0x06 => decAndi w
  | 0x07 => decOri w
  | 0x08 => decXori w
  | 0x09 => decShiftImm w
  | 0x0A => decLdhi w
  | 0x0B => decPcrel w
  | 0x0C => decAffine w
  | 0x0D => decRegState w
  | 0x0E => decControl w
  | 0x0F => decSystem w
  | 0x10 => decBranch w
  | 0x11 => decBr w
  | 0x12 => decCall w
  | 0x13 => decJalr w
  | 0x14 => decMaskBranch w
  | 0x15 => decDivergence w
  | 0x16 => decChannel w
  | 0x17 => decTask w
  | 0x18 => decLoad w
  | 0x19 => decStore w
  | 0x1A => decSyncLoad w
  | 0x1B => decSyncStore w
  | 0x1C => decAtomic w
  | 0x1D => decFenceBarrier w
  | 0x1E => decPolderBatch w
  | 0x20 => decVecInt w
  | 0x21 => decVecFp w
  | 0x22 => decVecFun w
  | 0x23 => decCrossLane w
  | 0x24 => decVecMove w
  | 0x25 => decVld w
  | 0x26 => decVst w
  | 0x27 => decVecIndexed w
  | 0x28 => decEngine w
  | _ => none

/-- Decoding (R48, item 2): the instruction that the word stands for, or none when the word is illegal. -/
noncomputable def decode (w : BitVec 32) : Option Instr :=
  match decodeFields w with
  | some i => if i.wf then some i else none
  | none => none

/-- A word whose fields above bit 31 vanish. -/
def word (n : Nat) : BitVec 32 := BitVec.ofNat 32 n

/-- A field's share of a word. -/
def put {n : Nat} (x : BitVec n) (lo : Nat) : Nat := x.toNat * 2 ^ lo

/-- The word of an instruction (R18 to R47); none for an event, which has no encoding. -/
def encode (i : Instr) : Option (BitVec 32) :=
  match i with
  | .add d a b => some (word (0x04000000 + put d 20 + put a 14 + put b 8))
  | .sub d a b => some (word (0x04000001 + put d 20 + put a 14 + put b 8))
  | .and d a b => some (word (0x04000002 + put d 20 + put a 14 + put b 8))
  | .or d a b => some (word (0x04000003 + put d 20 + put a 14 + put b 8))
  | .xor d a b => some (word (0x04000004 + put d 20 + put a 14 + put b 8))
  | .andn d a b => some (word (0x04000005 + put d 20 + put a 14 + put b 8))
  | .sll d a b => some (word (0x04000006 + put d 20 + put a 14 + put b 8))
  | .srl d a b => some (word (0x04000007 + put d 20 + put a 14 + put b 8))
  | .sra d a b => some (word (0x04000008 + put d 20 + put a 14 + put b 8))
  | .rol d a b => some (word (0x04000009 + put d 20 + put a 14 + put b 8))
  | .ror d a b => some (word (0x0400000A + put d 20 + put a 14 + put b 8))
  | .slt d a b => some (word (0x0400000B + put d 20 + put a 14 + put b 8))
  | .sltu d a b => some (word (0x0400000C + put d 20 + put a 14 + put b 8))
  | .min d a b => some (word (0x0400000D + put d 20 + put a 14 + put b 8))
  | .max d a b => some (word (0x0400000E + put d 20 + put a 14 + put b 8))
  | .minu d a b => some (word (0x0400000F + put d 20 + put a 14 + put b 8))
  | .maxu d a b => some (word (0x04000010 + put d 20 + put a 14 + put b 8))
  | .addw d a b => some (word (0x04000011 + put d 20 + put a 14 + put b 8))
  | .subw d a b => some (word (0x04000012 + put d 20 + put a 14 + put b 8))
  | .clz d a => some (word (0x04000013 + put d 20 + put a 14))
  | .ctz d a => some (word (0x04000014 + put d 20 + put a 14))
  | .popc d a => some (word (0x04000015 + put d 20 + put a 14))
  | .sextb d a => some (word (0x04000016 + put d 20 + put a 14))
  | .sexth d a => some (word (0x04000017 + put d 20 + put a 14))
  | .sextw d a => some (word (0x04000018 + put d 20 + put a 14))
  | .mul d a b => some (word (0x08000000 + put d 20 + put a 14 + put b 8))
  | .mulh d a b => some (word (0x08000001 + put d 20 + put a 14 + put b 8))
  | .mulhu d a b => some (word (0x08000002 + put d 20 + put a 14 + put b 8))
  | .mulhsu d a b => some (word (0x08000003 + put d 20 + put a 14 + put b 8))
  | .div d a b => some (word (0x08000004 + put d 20 + put a 14 + put b 8))
  | .divu d a b => some (word (0x08000005 + put d 20 + put a 14 + put b 8))
  | .rem d a b => some (word (0x08000006 + put d 20 + put a 14 + put b 8))
  | .remu d a b => some (word (0x08000007 + put d 20 + put a 14 + put b 8))
  | .mulw d a b => some (word (0x08000008 + put d 20 + put a 14 + put b 8))
  | .divw d a b => some (word (0x08000009 + put d 20 + put a 14 + put b 8))
  | .divwu d a b => some (word (0x0800000A + put d 20 + put a 14 + put b 8))
  | .remw d a b => some (word (0x0800000B + put d 20 + put a 14 + put b 8))
  | .remwu d a b => some (word (0x0800000C + put d 20 + put a 14 + put b 8))
  | .divideComplete .. => none
  | .addi d a i => some (word (0x0C000000 + put d 20 + put a 14 + put i 0))
  | .slti d a i => some (word (0x10000000 + put d 20 + put a 14 + put i 0))
  | .sltiu d a i => some (word (0x14000000 + put d 20 + put a 14 + put i 0))
  | .andi d a i => some (word (0x18000000 + put d 20 + put a 14 + put i 0))
  | .ori d a i => some (word (0x1C000000 + put d 20 + put a 14 + put i 0))
  | .xori d a i => some (word (0x20000000 + put d 20 + put a 14 + put i 0))
  | .slli d a n => some (word (0x24000000 + put d 20 + put a 14 + put n 0))
  | .srli d a n => some (word (0x24001000 + put d 20 + put a 14 + put n 0))
  | .srai d a n => some (word (0x24002000 + put d 20 + put a 14 + put n 0))
  | .rori d a n => some (word (0x24003000 + put d 20 + put a 14 + put n 0))
  | .ldhi d i => some (word (0x28000000 + put d 20 + put i 0))
  | .pcrel d i => some (word (0x2C000000 + put d 20 + put i 0))
  | .afset d a b => some (word (0x30000000 + put d 20 + put a 14 + put b 8))
  | .afbase d a => some (word (0x30000001 + put d 20 + put a 14))
  | .afstr d a => some (word (0x30000002 + put d 20 + put a 14))
  | .afadd d a b => some (word (0x30000003 + put d 20 + put a 14 + put b 8))
  | .afstep d a => some (word (0x30000004 + put d 20 + put a 14))
  | .afmov d a => some (word (0x30000005 + put d 20 + put a 14))
  | .afrdb d a => some (word (0x30000006 + put d 20 + put a 14))
  | .afrds d a => some (word (0x30000007 + put d 20 + put a 14))
  | .sete d => some (word (0x34000000 + put d 20))
  | .setf d => some (word (0x34000001 + put d 20))
  | .tstf d a => some (word (0x34000002 + put d 20 + put a 14))
  | .gld d n => some (word (0x34000003 + put d 20 + put n 14))
  | .gst n a => some (word (0x34000004 + put n 20 + put a 14))
  | .gldfe d n => some (word (0x34000005 + put d 20 + put n 14))
  | .gstfe n a => some (word (0x34000006 + put n 20 + put a 14))
  | .rfill a b => some (word (0x34000007 + put a 14 + put b 8))
  | .vsete d => some (word (0x34000008 + put d 20))
  | .vtstf d v => some (word (0x34000009 + put d 20 + put v 14))
  | .rdfe d c => some (word (0x3400000A + put d 20 + put c 14))
  | .wrfe c a => some (word (0x3400000B + put c 20 + put a 14))
  | .qpushc q a => some (word (0x3400000C + put q 20 + put a 14))
  | .qstat q d => some (word (0x3400000D + put q 20 + put d 14))
  | .movc d c => some (word (0x38000000 + put d 20 + put c 0))
  | .movtc a c => some (word (0x38000000 + put a 14 + put c 0))
  | .trap n => some (word (0x3C000000 + put n 8))
  | .eret => some (word (0x3C000001))
  | .bkpt n => some (word (0x3C000002 + put n 8))
  | .yield => some (word (0x3C000003))
  | .yieldExpiry .. => none
  | .sleep a => some (word (0x3C000004 + put a 14))
  | .sleepWake .. => none
  | .icinv a => some (word (0x3C000005 + put a 14))
  | .tlbinv a b => some (word (0x3C000006 + put a 14 + put b 8))
  | .halt => some (word (0x3C000007))
  | .beq a b o => some (word (0x40000000 + put a 17 + put b 11 + put o 0))
  | .bne a b o => some (word (0x40800000 + put a 17 + put b 11 + put o 0))
  | .blt a b o => some (word (0x41000000 + put a 17 + put b 11 + put o 0))
  | .bge a b o => some (word (0x41800000 + put a 17 + put b 11 + put o 0))
  | .bltu a b o => some (word (0x42000000 + put a 17 + put b 11 + put o 0))
  | .bgeu a b o => some (word (0x42800000 + put a 17 + put b 11 + put o 0))
  | .br o => some (word (0x44000000 + put o 0))
  | .call o => some (word (0x48000000 + put o 0))
  | .jalr d a i => some (word (0x4C000000 + put d 20 + put a 14 + put i 0))
  | .bany k o => some (word (0x50000000 + put k 17 + put o 0))
  | .ball k o => some (word (0x50800000 + put k 17 + put o 0))
  | .bnone k o => some (word (0x51000000 + put k 17 + put o 0))
  | .bnall k o => some (word (0x51800000 + put k 17 + put o 0))
  | .dif k => some (word (0x54000000 + put k 14))
  | .delse => some (word (0x54000001))
  | .dend => some (word (0x54000002))
  | .dbrk k => some (word (0x54000003 + put k 14))
  | .whole => some (word (0x54000004))
  | .wholeH => some (word (0x54000005))
  | .endwhole => some (word (0x54000006))
  | .chpub => some (word (0x58000000))
  | .chclose => some (word (0x58100000))
  | .chsub a => some (word (0x58200000 + put a 14))
  | .chunsub => some (word (0x58300000))
  | .chsync => some (word (0x58400000))
  | .chleaveIf a o => some (word (0x58500000 + put a 14 + put o 0))
  | .chresub a t => some (word (0x58600000 + put a 14 + put t 0))
  | .chrdv t => some (word (0x58700000 + put t 0))
  | .rendezvousTimeout .. => none
  | .bundleArrival .. => none
  | .channelHold .. => none
  | .departureReport .. => none
  | .clockCrossingRelock .. => none
  | .spawn a => some (word (0x5C000000 + put a 14))
  | .callat d a => some (word (0x5C000001 + put d 20 + put a 14))
  | .retv a => some (word (0x5C000002 + put a 14))
  | .quit => some (word (0x5C000003))
  | .tmake d a b => some (word (0x5C000004 + put d 20 + put a 14 + put b 8))
  | .tdec a => some (word (0x5C000005 + put a 14))
  | .tdecArrival .. => none
  | .migr a => some (word (0x5C000006 + put a 14))
  | .migrationArrival .. => none
  | .qret => some (word (0x5C000007))
  | .ldB d a i => some (word (0x60000000 + put d 20 + put a 14 + put i 0))
  | .ldH d a i => some (word (0x60000800 + put d 20 + put a 14 + put i 0))
  | .ldW d a i => some (word (0x60001000 + put d 20 + put a 14 + put i 0))
  | .ldD d a i => some (word (0x60001800 + put d 20 + put a 14 + put i 0))
  | .ldBu d a i => some (word (0x60002000 + put d 20 + put a 14 + put i 0))
  | .ldHu d a i => some (word (0x60002800 + put d 20 + put a 14 + put i 0))
  | .ldWu d a i => some (word (0x60003000 + put d 20 + put a 14 + put i 0))
  | .stB d a i => some (word (0x64000000 + put d 20 + put a 14 + put i 0))
  | .stH d a i => some (word (0x64000800 + put d 20 + put a 14 + put i 0))
  | .stW d a i => some (word (0x64001000 + put d 20 + put a 14 + put i 0))
  | .stD d a i => some (word (0x64001800 + put d 20 + put a 14 + put i 0))
  | .ldfe d a s w o => some (word (0x68000000 + put d 20 + put a 14 + put s 11 + put w 8 + put o 0))
  | .ldff d a s w o => some (word (0x68000200 + put d 20 + put a 14 + put s 11 + put w 8 + put o 0))
  | .stfe d a s w o => some (word (0x6C000000 + put d 20 + put a 14 + put s 11 + put w 8 + put o 0))
  | .stff d a s w o => some (word (0x6C000200 + put d 20 + put a 14 + put s 11 + put w 8 + put o 0))
  | .feclr a s w o => some (word (0x6C000400 + put a 14 + put s 11 + put w 8 + put o 0))
  | .aadd d a b w s => some (word (0x70000000 + put d 20 + put a 14 + put b 8 + put w 3 + put s 0))
  | .aand d a b w s => some (word (0x70000010 + put d 20 + put a 14 + put b 8 + put w 3 + put s 0))
  | .aor d a b w s => some (word (0x70000020 + put d 20 + put a 14 + put b 8 + put w 3 + put s 0))
  | .axor d a b w s => some (word (0x70000030 + put d 20 + put a 14 + put b 8 + put w 3 + put s 0))
  | .amin d a b w s => some (word (0x70000040 + put d 20 + put a 14 + put b 8 + put w 3 + put s 0))
  | .amax d a b w s => some (word (0x70000050 + put d 20 + put a 14 + put b 8 + put w 3 + put s 0))
  | .aminu d a b w s => some (word (0x70000060 + put d 20 + put a 14 + put b 8 + put w 3 + put s 0))
  | .amaxu d a b w s => some (word (0x70000070 + put d 20 + put a 14 + put b 8 + put w 3 + put s 0))
  | .aswap d a b w s => some (word (0x70000080 + put d 20 + put a 14 + put b 8 + put w 3 + put s 0))
  | .acas d a b w s => some (word (0x70000090 + put d 20 + put a 14 + put b 8 + put w 3 + put s 0))
  | .atomicAfadd d a b s => some (word (0x700000A0 + put d 20 + put a 14 + put b 8 + put s 0))
  | .fence s => some (word (0x74000000 + put s 0))
  | .barinit a b => some (word (0x74000008 + put a 14 + put b 8))
  | .bararr a b => some (word (0x74000010 + put a 14 + put b 8))
  | .barwait a b => some (word (0x74000018 + put a 14 + put b 8))
  | .barrd d a => some (word (0x74000020 + put d 20 + put a 14))
  | .pjoin a b => some (word (0x78000000 + put a 14 + put b 8))
  | .pleave => some (word (0x78000001))
  | .pquery d a => some (word (0x78000002 + put d 20 + put a 14))
  | .bseal => some (word (0x78000003))
  | .bwait a => some (word (0x78000004 + put a 14))
  | .mbsend m a => some (word (0x78000005 + put m 20 + put a 14))
  | .mbtake d m => some (word (0x78000006 + put d 20 + put m 14))
  | .vadd d a b k => some (word (0x80000000 + put d 21 + put a 16 + put b 11 + put k 8))
  | .vsub d a b k => some (word (0x80000001 + put d 21 + put a 16 + put b 11 + put k 8))
  | .vmul d a b k => some (word (0x80000002 + put d 21 + put a 16 + put b 11 + put k 8))
  | .vmulh d a b k => some (word (0x80000003 + put d 21 + put a 16 + put b 11 + put k 8))
  | .vmulhu d a b k => some (word (0x80000004 + put d 21 + put a 16 + put b 11 + put k 8))
  | .vand d a b k => some (word (0x80000005 + put d 21 + put a 16 + put b 11 + put k 8))
  | .vor d a b k => some (word (0x80000006 + put d 21 + put a 16 + put b 11 + put k 8))
  | .vxor d a b k => some (word (0x80000007 + put d 21 + put a 16 + put b 11 + put k 8))
  | .vandn d a b k => some (word (0x80000008 + put d 21 + put a 16 + put b 11 + put k 8))
  | .vsll d a b k => some (word (0x80000009 + put d 21 + put a 16 + put b 11 + put k 8))
  | .vsrl d a b k => some (word (0x8000000A + put d 21 + put a 16 + put b 11 + put k 8))
  | .vsra d a b k => some (word (0x8000000B + put d 21 + put a 16 + put b 11 + put k 8))
  | .vmin d a b k => some (word (0x8000000C + put d 21 + put a 16 + put b 11 + put k 8))
  | .vmax d a b k => some (word (0x8000000D + put d 21 + put a 16 + put b 11 + put k 8))
  | .vminu d a b k => some (word (0x8000000E + put d 21 + put a 16 + put b 11 + put k 8))
  | .vmaxu d a b k => some (word (0x8000000F + put d 21 + put a 16 + put b 11 + put k 8))
  | .vadds d a b k => some (word (0x80000010 + put d 21 + put a 16 + put b 11 + put k 8))
  | .vsubs d a b k => some (word (0x80000011 + put d 21 + put a 16 + put b 11 + put k 8))
  | .vaddsu d a b k => some (word (0x80000012 + put d 21 + put a 16 + put b 11 + put k 8))
  | .vsubsu d a b k => some (word (0x80000013 + put d 21 + put a 16 + put b 11 + put k 8))
  | .vabs d a k => some (word (0x80000014 + put d 21 + put a 16 + put k 8))
  | .vclz d a k => some (word (0x80000015 + put d 21 + put a 16 + put k 8))
  | .vpopc d a k => some (word (0x80000016 + put d 21 + put a 16 + put k 8))
  | .vceq d a b k => some (word (0x80000017 + put d 21 + put a 16 + put b 11 + put k 8))
  | .vclt d a b k => some (word (0x80000018 + put d 21 + put a 16 + put b 11 + put k 8))
  | .vcltu d a b k => some (word (0x80000019 + put d 21 + put a 16 + put b 11 + put k 8))
  | .vfadd d a b k => some (word (0x84000000 + put d 21 + put a 16 + put b 11 + put k 8))
  | .vfsub d a b k => some (word (0x84000001 + put d 21 + put a 16 + put b 11 + put k 8))
  | .vfmul d a b k => some (word (0x84000002 + put d 21 + put a 16 + put b 11 + put k 8))
  | .vfdiv d a b k => some (word (0x84000003 + put d 21 + put a 16 + put b 11 + put k 8))
  | .vfma d a b k => some (word (0x84000004 + put d 21 + put a 16 + put b 11 + put k 8))
  | .vfms d a b k => some (word (0x84000005 + put d 21 + put a 16 + put b 11 + put k 8))
  | .vfnma d a b k => some (word (0x84000006 + put d 21 + put a 16 + put b 11 + put k 8))
  | .vfmin d a b k => some (word (0x84000007 + put d 21 + put a 16 + put b 11 + put k 8))
  | .vfmax d a b k => some (word (0x84000008 + put d 21 + put a 16 + put b 11 + put k 8))
  | .vfabs d a k => some (word (0x84000009 + put d 21 + put a 16 + put k 8))
  | .vfneg d a k => some (word (0x8400000A + put d 21 + put a 16 + put k 8))
  | .vfceq d a b k => some (word (0x8400000B + put d 21 + put a 16 + put b 11 + put k 8))
  | .vfclt d a b k => some (word (0x8400000C + put d 21 + put a 16 + put b 11 + put k 8))
  | .vfcle d a b k => some (word (0x8400000D + put d 21 + put a 16 + put b 11 + put k 8))
  | .vfcun d a b k => some (word (0x8400000E + put d 21 + put a 16 + put b 11 + put k 8))
  | .vfsqrt d a k => some (word (0x88000000 + put d 21 + put a 16 + put k 8))
  | .vfrsq d a k => some (word (0x88000001 + put d 21 + put a 16 + put k 8))
  | .vfrcp d a k => some (word (0x88000002 + put d 21 + put a 16 + put k 8))
  | .vfexp2 d a k => some (word (0x88000003 + put d 21 + put a 16 + put k 8))
  | .vflog2 d a k => some (word (0x88000004 + put d 21 + put a 16 + put k 8))
  | .vfsin d a k => some (word (0x88000005 + put d 21 + put a 16 + put k 8))
  | .vfcos d a k => some (word (0x88000006 + put d 21 + put a 16 + put k 8))
  | .vftanh d a k => some (word (0x88000007 + put d 21 + put a 16 + put k 8))
  | .vcvt d a k f t => some (word (0x88000040 + put d 21 + put a 16 + put k 8 + put f 3 + put t 0))
  | .vperm d a b k => some (word (0x8C000000 + put d 21 + put a 16 + put b 11 + put k 8))
  | .qxch d a p k => some (word (0x8C000001 + put d 21 + put a 16 + put p 11 + put k 8))
  | .qbcast d a n k => some (word (0x8C000002 + put d 21 + put a 16 + put n 11 + put k 8))
  | .vshup d a n k => some (word (0x8C000003 + put d 21 + put a 16 + put n 11 + put k 8))
  | .vshdn d a n k => some (word (0x8C000004 + put d 21 + put a 16 + put n 11 + put k 8))
  | .vradd d a k => some (word (0x8C000005 + put d 21 + put a 16 + put k 8))
  | .vraddi d a k => some (word (0x8C000006 + put d 21 + put a 16 + put k 8))
  | .vrmax d a k => some (word (0x8C000007 + put d 21 + put a 16 + put k 8))
  | .vrmin d a k => some (word (0x8C000008 + put d 21 + put a 16 + put k 8))
  | .vscan d a k => some (word (0x8C000009 + put d 21 + put a 16 + put k 8))
  | .vscani d a k => some (word (0x8C00000A + put d 21 + put a 16 + put k 8))
  | .vmov d a k => some (word (0x90000000 + put d 21 + put a 16 + put k 8))
  | .vsel d a b k => some (word (0x90000001 + put d 21 + put a 16 + put b 11 + put k 8))
  | .vbcast d s k => some (word (0x90000008 + put d 21 + put s 15 + put k 8))
  | .vext v d l => some (word (0x90000009 + put v 21 + put d 15 + put l 11))
  | .vins d s l k => some (word (0x9000000A + put d 21 + put s 15 + put l 11 + put k 8))
  | .kand d a b => some (word (0x90000010 + put d 21 + put a 16 + put b 11))
  | .kor d a b => some (word (0x90000011 + put d 21 + put a 16 + put b 11))
  | .kxor d a b => some (word (0x90000012 + put d 21 + put a 16 + put b 11))
  | .knot d a => some (word (0x90000013 + put d 21 + put a 16))
  | .kmov d a => some (word (0x90000014 + put d 21 + put a 16))
  | .elect d a => some (word (0x90000015 + put d 21 + put a 16))
  | .ktos a d => some (word (0x90000018 + put a 21 + put d 15))
  | .stok d s => some (word (0x90000019 + put d 21 + put s 15))
  | .vany a d => some (word (0x9000001A + put a 21 + put d 15))
  | .vall a d => some (word (0x9000001B + put a 21 + put d 15))
  | .kpopc a d => some (word (0x9000001C + put a 21 + put d 15))
  | .vld d a k i => some (word (0x94000000 + put d 21 + put a 17 + put k 14 + put i 0))
  | .vst d a k i => some (word (0x98000000 + put d 21 + put a 17 + put k 14 + put i 0))
  | .vldx d i n k => some (word (0x9C000000 + put d 21 + put i 16 + put n 11 + put k 8))
  | .vstx d i n k => some (word (0x9C000001 + put d 21 + put i 16 + put n 11 + put k 8))
  | .vldxW d i n k => some (word (0x9C000002 + put d 21 + put i 16 + put n 11 + put k 8))
  | .vstxW d i n k => some (word (0x9C000003 + put d 21 + put i 16 + put n 11 + put k 8))
  | .slcopy d s e m f => some (word (0xA0000000 + put d 10 + put s 4 + put e 2 + put m 1 + put f 0))
  | .slcopy2 d s e m f => some (word (0xA0010000 + put d 10 + put s 4 + put e 2 + put m 1 + put f 0))
  | .slgath d s e f => some (word (0xA0020000 + put d 10 + put s 4 + put e 2 + put f 0))
  | .slscat d s e f => some (word (0xA0030000 + put d 10 + put s 4 + put e 2 + put f 0))
  | .slfill d e f => some (word (0xA0040000 + put d 10 + put e 2 + put f 0))
  | .slpat d e f => some (word (0xA0050000 + put d 10 + put e 2 + put f 0))
  | .slsend g s e f => some (word (0xA0060000 + put g 10 + put s 4 + put e 2 + put f 0))
  | .slrecv g d e f => some (word (0xA0070000 + put g 10 + put d 4 + put e 2 + put f 0))
  | .sldred g u e f => some (word (0xA0080000 + put g 10 + put u 4 + put e 2 + put f 0))
  | .slquiesce a b e x => some (word (0xA0090000 + put a 10 + put b 4 + put e 2 + put x 0))
  | .slresume a b e x => some (word (0xA00A0000 + put a 10 + put b 4 + put e 2 + put x 0))
  | .slstat d e => some (word (0xA00B0000 + put d 10 + put e 2))
  | .sluiceClaim .. => none
  | .sluiceElement .. => none
  | .sluiceComplete .. => none
  | .tld a b t => some (word (0xA0800000 + put a 10 + put b 4 + put t 0))
  | .tst a b t => some (word (0xA0810000 + put a 10 + put b 4 + put t 0))
  | .tzero t i => some (word (0xA0820000 + put t 10 + put i 3))
  | .mma => some (word (0xA0830000))
  | .spmma o i p => some (word (0xA0840000 + put o 10 + put i 3 + put p 0))
  | .spmmat o i p => some (word (0xA0850000 + put o 10 + put i 3 + put p 0))
  | .had t p i d => some (word (0xA0860000 + put t 10 + put p 4 + put i 3 + put d 0))
  | .tquant a b t => some (word (0xA0870000 + put a 10 + put b 4 + put t 0))
  | .accrd d b c => some (word (0xA0880000 + put d 10 + put b 4 + put c 0))
  | .accst a b c => some (word (0xA0890000 + put a 10 + put b 4 + put c 0))
  | .acczero c i => some (word (0xA08A0000 + put c 10 + put i 3))
  | .mxrec a b => some (word (0xA2000000 + put a 10 + put b 4))
  | .mxrun => some (word (0xA2010000))
  | .matrixComplete .. => none
  | .psld a b p => some (word (0xA1000000 + put a 10 + put b 4 + put p 0))
  | .psgen v n d p => some (word (0xA1010008 + put v 10 + put n 4 + put d 2 + put p 0))
  | .prank a b p => some (word (0xA1020000 + put a 10 + put b 4 + put p 0))
  | .pschk d b p => some (word (0xA1030000 + put d 10 + put b 4 + put p 0))
  | .pssave a p => some (word (0xA1040000 + put a 10 + put p 0))
  | .psrest a p => some (word (0xA1050000 + put a 10 + put p 0))
  | .rgopen a b => some (word (0xA1800000 + put a 10 + put b 4))
  | .rgclose g i => some (word (0xA1810000 + put g 10 + put i 3))
  | .rgstat d b => some (word (0xA1820000 + put d 10 + put b 4))
  | .weirMerge .. => none
  | .roundComplete .. => none
  | .watchdogExpiry .. => none
  | .illegal .. => none
  | .asyncTrapDelivery .. => none
  | .fmtmismatchRecord .. => none
  | .preempt .. => none
  | .fill .. => none
  | .loadValueReturn .. => none
  | .accessPerform .. => none
  | .waitWithdrawal .. => none
  | .walkComplete .. => none
  | .recordArrival .. => none
  | .ringRefill .. => none
  | .dispatch .. => none
  | .taskEnd .. => none
  | .queueEntryArrival .. => none
  | .samplingPulse .. => none
  | .frequencyStep .. => none
  | .newClockStart .. => none
  | .thermalThrottle .. => none
  | .throttleStep .. => none
  | .thermalTrip .. => none
  | .timeSlew .. => none
  | .moduleReset .. => none
  | .bringupLevelRaise .. => none
  | .peerLinkUp .. => none
  | .farPortUp .. => none
  | .railLoss .. => none
  | .linkDown .. => none
  | .scrub .. => none
  | .dump .. => none
  | .launchWindowWrite .. => none
  | .managementWindowAccess .. => none
  | .cxlMemAccess .. => none
  | .peerAccess .. => none
  | .getVersion .. => none
  | .getCapabilities .. => none
  | .negotiateAlgorithms .. => none
  | .getDigests .. => none
  | .getCertificate .. => none
  | .challenge .. => none
  | .getMeasurements .. => none
  | .slreqWrite .. => none
  | .hmapWrite .. => none
  | .pdirbaseWrite .. => none
  | .sptagRead .. => none
  | .sptagWrite .. => none
  | .qringWrite .. => none
  | .qcfgWrite .. => none
  | .accputWrite .. => none
  | .dropdRead .. => none
  | .pmrdRead .. => none
  | .prpostWrite .. => none
  | .rstpostWrite .. => none
  | .mapoutWrite .. => none
  | .tadjWrite .. => none
  | .tfreqWrite .. => none
  | .fcapWrite .. => none
  | .smpbufWrite .. => none
  | .dumpreqWrite .. => none
  | .haltreq .. => none
  | .dbgResume .. => none
  | .step .. => none
  | .freeze .. => none
  | .peerstatOpenWrite .. => none
  | .hostwinWrite .. => none
  | .patternCommandComplete .. => none
  | .weirHold .. => none
  | .farPortDown .. => none
  | .remoteOpenClear .. => none
  | .polderWindowUpdate .. => none
  | .groupSetupComplete .. => none
  | .tlbShootdown .. => none

/-- The four bytes of an instruction word, lowest address first (R17). -/
def wordBytes (w : BitVec 32) : List (BitVec 8) :=
  [BitVec.ofNat 8 w.toNat, BitVec.ofNat 8 (w.toNat / 2 ^ 8), BitVec.ofNat 8 (w.toNat / 2 ^ 16), BitVec.ofNat 8 (w.toNat / 2 ^ 24)]

/-- The word that four bytes in memory order make (R9, R17). -/
def bytesWord : List (BitVec 8) → Option (BitVec 32)
  | [a, b, c, d] => some (word (a.toNat + b.toNat * 2 ^ 8 + c.toNat * 2 ^ 16 + d.toNat * 2 ^ 24))
  | _ => none

/-- Decoding from bytes: four bytes in memory order are one instruction (R17); anything else is none. -/
noncomputable def decodeBytes (l : List (BitVec 8)) : Option Instr :=
  match bytesWord l with
  | some w => decode w
  | none => none

/-- The instruction the decoder reads from a word whose bits are `w`, numbered as spec/opcode_table.json numbers
them.  Every instruction is one word of 32 bits (R17), laid out as memory holds it and read back from there. -/
noncomputable def decodeTableWord (_nbits w : Nat) : Option Instr := decodeBytes (wordBytes (word w))

end Sys2Proof
end

