-- ==== Sys2Proof/Config.lean ====
section
/-! DEFINITION. What the manual leaves open or an implementation fixes: opaque constants, applied to the counter that
State holds, or to the operands they depend on.  None has a value that a proof can see. -/

namespace Sys2Proof.Config

/-- A free bit per use: which of two outcomes the manual allows (R118, R120, R204). -/
opaque freeBit : Nat → Bool
/-- A free number per use: a victim, or a value the manual leaves undefined. -/
opaque freeNat : Nat → Nat
/-- A free doubleword per use: a value that comes from outside the module, such as a host-memory read (R419) or a load
through a peer port (R420). -/
opaque freeW64 : Nat → BitVec 64
/-- The bits that a vector function returns for an operand within the error bound of R244. -/
opaque vfun : Nat → BitVec 32 → BitVec 32
/-- Whether the HSS signature of the firmware that the module carries verifies against the root key in fuses (R425). -/
opaque hssOk : Bool
/-- The firmware's version (R425, R427). -/
opaque fwVersion : BitVec 16
/-- The fused rollback counter (R425). -/
opaque rollback : Nat
/-- The bytes of an SPDM answer: request code, request parameter, counter (R425). -/
opaque spdm : Nat → Nat → Nat → List (BitVec 8)

end Sys2Proof.Config
end

