-- ==== Sys2Proof/Machine/Map.lean ====
section
/-! DEFINITION. Sparse tables by number: a list of (key, value) pairs in rising key order, read with a default.  Every
register file, and every family of cores, slots, hubs and queues, is held this way, so that a state is plain data and
lists only what differs from reset. -/

namespace Sys2Proof.Machine

/-- A sparse table. -/
abbrev Map (α : Type) := List (Nat × α)

/-- The entry of key `k`, or `d` where the table lists none. -/
def look {α : Type} (d : α) (m : Map α) (k : Nat) : α :=
  match m with
  | [] => d
  | (a, x) :: r => if a = k then x else look d r k

/-- The entry of key `k`, if listed. -/
def find {α : Type} (m : Map α) (k : Nat) : Option α :=
  match m with
  | [] => none
  | (a, x) :: r => if a = k then some x else find r k

/-- Sets the entry of key `k`. -/
def put {α : Type} (m : Map α) (k : Nat) (v : α) : Map α :=
  match m with
  | [] => [(k, v)]
  | (a, x) :: r => if a = k then (k, v) :: r else if k < a then (k, v) :: (a, x) :: r else (a, x) :: put r k v

/-- Removes every entry of key `k`. -/
def del {α : Type} (m : Map α) (k : Nat) : Map α :=
  match m with
  | [] => []
  | (a, x) :: r => if a = k then del r k else (a, x) :: del r k

/-- The keys a table lists. -/
def keys {α : Type} (m : Map α) : List Nat := m.map Prod.fst

/-- Inserts a number into a rising list of numbers. -/
def insNat (k : Nat) (l : List Nat) : List Nat :=
  match l with
  | [] => [k]
  | a :: r => if a = k then a :: r else if k < a then k :: a :: r else a :: insNat k r

/-- Removes a number from a list of numbers. -/
def rmNat (k : Nat) (l : List Nat) : List Nat :=
  match l with
  | [] => []
  | a :: r => if a = k then rmNat k r else a :: rmNat k r

/-- The numbers `lo`, `lo + 1`, … , `n` of them. -/
def upto (lo n : Nat) : List Nat :=
  match n with
  | 0 => []
  | k + 1 => lo :: upto (lo + 1) k

/-- The least of `d` and the numbers of a list. -/
def leastOr (d : Nat) (l : List Nat) : Nat :=
  match l with
  | [] => d
  | a :: r => leastOr (Nat.min d a) r

theorem look_put {α : Type} (d : α) (m : Map α) (k j : Nat) (v : α) :
    look d (put m k v) j = if k = j then v else look d m j := by
  induction m with
  | nil => simp [put, look]
  | cons p r ih =>
    obtain ⟨a, x⟩ := p
    simp only [put]
    split
    · next h => subst h; simp only [look]; split <;> simp_all
    · next h =>
      split
      · simp only [look]
      · simp only [look, ih]; split
        · next h2 => subst h2; simp [Ne.symm h]
        · rfl

@[simp] theorem look_put_same {α : Type} (d : α) (m : Map α) (k : Nat) (v : α) : look d (put m k v) k = v := by
  simp [look_put]

theorem look_put_ne {α : Type} (d : α) (m : Map α) {k j : Nat} (v : α) (h : k ≠ j) :
    look d (put m k v) j = look d m j := by
  simp [look_put, h]

end Sys2Proof.Machine
end

