-- ==== Sys2Proof/Machine/Numbers.lean ====
section
/-! DEFINITION. Numbers as stored (chapter 03): the formats bit by bit, exact values as a magnitude times a power of two,
one rounding function for the IEEE formats, one for the tapered formats, and the conversions between them. -/

namespace Sys2Proof.Machine

/-- Sticky flags NV, DZ, OF, UF, NX in bits [4:0], as FSTAT lays them out (R102). -/
abbrev Flags := BitVec 5

/-- Invalid operation. -/
def fNV : Flags := 16
/-- Division by zero. -/
def fDZ : Flags := 8
/-- Overflow. -/
def fOF : Flags := 4
/-- Underflow. -/
def fUF : Flags := 2
/-- Inexact. -/
def fNX : Flags := 1
/-- No flag. -/
def f0 : Flags := 0

/-- A flag when a condition holds. -/
def flagIf (b : Bool) (f : Flags) : Flags := if b then f else 0

/-- Rounding modes (R102). -/
inductive Rm where
  | rne | rtz | rup | rdn
  deriving DecidableEq, Repr

/-- The rounding mode that a two-bit RM field names (R102). -/
def Rm.ofBits (b : Nat) : Rm := if b = 0 then .rne else if b = 1 then .rtz else if b = 2 then .rup else .rdn

/-- An exact value: `(-1)^neg × m × 2^e`, an infinity or a NaN. -/
inductive Num where
  | nan (signalling : Bool)
  | inf (neg : Bool)
  | fin (neg : Bool) (m : Nat) (e : Int)
  deriving DecidableEq, Repr

/-- The value zero. -/
def Num.zero : Num := .fin false 0 0

/-- An IEEE binary format: bits of significand with the hidden one, exponent of the least subnormal bit, largest
exponent, and the canonical quiet NaN (R82, R83). -/
structure FpFmt where
  p : Nat
  width : Nat
  emin : Int
  emax : Int
  qnan : Nat
  deriving DecidableEq, Repr

/-- FP32 (R82). -/
def fp32 : FpFmt := ⟨24, 32, -149, 127, 0x7FC00000⟩
/-- BF16 (R82). -/
def bf16 : FpFmt := ⟨8, 16, -133, 127, 0x7FC0⟩
/-- FP16 (R82). -/
def fp16 : FpFmt := ⟨11, 16, -24, 15, 0x7E00⟩

/-- The sign bit of a format, as a number. -/
def FpFmt.sign (f : FpFmt) : Nat := 2 ^ (f.width - 1)
/-- The encoding of positive infinity. -/
def FpFmt.infBits (f : FpFmt) : Nat := (2 ^ (f.width - f.p) - 1) * 2 ^ (f.p - 1)

/-- Adds the sign bit. -/
def FpFmt.signed (f : FpFmt) (neg : Bool) (x : Nat) : Nat := if neg then f.sign + x else x

/-- The exact value of an IEEE encoding (R82, R83). -/
def decodeFp (f : FpFmt) (b : Nat) : Num :=
  let neg := decide (b / f.sign % 2 = 1)
  let x := b % 2 ^ (f.p - 1)
  let ex := b / 2 ^ (f.p - 1) % 2 ^ (f.width - f.p)
  if ex = 2 ^ (f.width - f.p) - 1 then
    if x = 0 then .inf neg else .nan (decide (x < 2 ^ (f.p - 2)))
  else if ex = 0 then .fin neg x f.emin
  else .fin neg (x + 2 ^ (f.p - 1)) (f.emin + (ex : Int) - 1)

/-- The encoding of the value's zero, or whether an encoding is a subnormal number (R104). -/
def isSubnormal (f : FpFmt) (b : Nat) : Bool :=
  decide (b / 2 ^ (f.p - 1) % 2 ^ (f.width - f.p) = 0) && decide (b % 2 ^ (f.p - 1) ≠ 0)

/-- Flushes a subnormal operand to a zero of its sign when FTZ is set (R104). -/
def ftzIn (f : FpFmt) (ftz : Bool) (b : Nat) : Nat :=
  if ftz && isSubnormal f b then (if b / f.sign % 2 = 1 then f.sign else 0) else b

/-- `m × 2^e`, a little more when `st` is set, as a whole number of units `2^t`: the number and whether it is inexact. -/
def roundUnits (rm : Rm) (neg st : Bool) (m : Nat) (e t : Int) : Nat × Bool :=
  if t ≤ e then
    let q := m * 2 ^ (e - t).toNat
    (if st && ((rm == .rup && !neg) || (rm == .rdn && neg)) then q + 1 else q, st)
  else
    let k := (t - e).toNat
    let q := m / 2 ^ k
    let r := m % 2 ^ k
    let inexact := decide (r ≠ 0) || st
    let up := match rm with
      | .rne => decide (2 ^ (k - 1) < r) || (decide (r = 2 ^ (k - 1)) && (st || decide (q % 2 = 1)))
      | .rtz => false
      | .rup => inexact && !neg
      | .rdn => inexact && neg
    (if up then q + 1 else q, inexact)

/-- Rounds a magnitude to a format: the encoding and the flags OF, UF and NX, with tininess detected after rounding
(R103).  `sat` gives the largest finite value for a finite overflow whatever the mode (R98). -/
def roundFp (f : FpFmt) (rm : Rm) (ftz sat neg st : Bool) (m : Nat) (e : Int) : Nat × Flags :=
  if m = 0 && !st then (f.signed neg 0, 0) else
  let top : Int := e + (Nat.log2 m : Int)
  let tFree : Int := top - ((f.p : Int) - 1)
  let t : Int := if tFree < f.emin then f.emin else tFree
  let qi := roundUnits rm neg st m e t
  let free := roundUnits rm neg st m e tFree
  let tiny := decide (tFree + (Nat.log2 free.1 : Int) < f.emin + ((f.p : Int) - 1))
  let q := if qi.1 = 2 ^ f.p then 2 ^ (f.p - 1) else qi.1
  let t := if qi.1 = 2 ^ f.p then t + 1 else t
  if t + ((f.p : Int) - 1) > f.emax && decide (2 ^ (f.p - 1) ≤ q) then
    let toMax := sat || (rm == .rtz) || (rm == .rup && neg) || (rm == .rdn && !neg)
    (f.signed neg (if toMax then f.infBits - 1 else f.infBits), fOF ||| fNX)
  else
    let bits := (t - f.emin).toNat * 2 ^ (f.p - 1) + q
    if ftz && decide (q < 2 ^ (f.p - 1)) && decide (q ≠ 0) then (f.signed neg 0, fUF ||| fNX)
    else (f.signed neg bits, flagIf (tiny && qi.2) fUF ||| flagIf qi.2 fNX)

/-- The signed whole number `±m`. -/
def signedInt (neg : Bool) (m : Nat) : Int := if neg then -(m : Int) else m

/-- The exact sum of two finite values, with the sign that IEEE gives a zero sum. -/
def addFin (rm : Rm) (n1 : Bool) (m1 : Nat) (e1 : Int) (n2 : Bool) (m2 : Nat) (e2 : Int) : Bool × Nat × Int :=
  let e := if e1 ≤ e2 then e1 else e2
  let x := signedInt n1 (m1 * 2 ^ (e1 - e).toNat) + signedInt n2 (m2 * 2 ^ (e2 - e).toNat)
  if x = 0 then (if n1 = n2 then n1 else rm == .rdn, 0, e) else (decide (x < 0), x.natAbs, e)

/-- The exact sum of two values, and NV for a signalling operand or for infinities of opposite sign. -/
def addNum (rm : Rm) (x y : Num) : Num × Flags :=
  match x, y with
  | .nan a, .nan b => (.nan false, flagIf (a || b) fNV)
  | .nan a, _ => (.nan false, flagIf a fNV)
  | _, .nan b => (.nan false, flagIf b fNV)
  | .inf a, .inf b => if a = b then (.inf a, 0) else (.nan false, fNV)
  | .inf a, .fin .. => (.inf a, 0)
  | .fin .., .inf b => (.inf b, 0)
  | .fin a m e, .fin b m' e' => let (n, q, t) := addFin rm a m e b m' e'; (.fin n q t, 0)

/-- The exact product of two values. -/
def mulNum (x y : Num) : Num × Flags :=
  match x, y with
  | .nan a, .nan b => (.nan false, flagIf (a || b) fNV)
  | .nan a, _ => (.nan false, flagIf a fNV)
  | _, .nan b => (.nan false, flagIf b fNV)
  | .inf a, .inf b => (.inf (a != b), 0)
  | .inf a, .fin b m _ => if m = 0 then (.nan false, fNV) else (.inf (a != b), 0)
  | .fin a m _, .inf b => if m = 0 then (.nan false, fNV) else (.inf (a != b), 0)
  | .fin a m e, .fin b m' e' => (.fin (a != b) (m * m') (e + e'), 0)

/-- The opposite value. -/
def negNum (x : Num) : Num :=
  match x with
  | .nan s => .nan s
  | .inf n => .inf (!n)
  | .fin n m e => .fin (!n) m e

/-- The value without its sign. -/
def absNum (x : Num) : Num :=
  match x with
  | .nan s => .nan s
  | .inf _ => .inf false
  | .fin _ m e => .fin false m e

/-- Encodes a value in an IEEE format (R83, R98, R103). -/
def encodeFp (f : FpFmt) (rm : Rm) (ftz sat : Bool) (x : Num) : Nat × Flags :=
  match x with
  | .nan s => (f.qnan, flagIf s fNV)
  | .inf n => (f.signed n f.infBits, 0)
  | .fin n m e => roundFp f rm ftz sat n false m e

/-- Whether `x < y`, `x = y` for finite or infinite values, as an integer comparison: negative, zero or positive. -/
def cmpNum (x y : Num) : Option Int :=
  match x, y with
  | .nan _, _ => none
  | _, .nan _ => none
  | .inf a, .inf b => some (if a = b then 0 else if a then -1 else 1)
  | .inf a, .fin .. => some (if a then -1 else 1)
  | .fin .., .inf b => some (if b then 1 else -1)
  | .fin a m e, .fin b m' e' =>
    let t := if e ≤ e' then e else e'
    let d := signedInt a (m * 2 ^ (e - t).toNat) - signedInt b (m' * 2 ^ (e' - t).toNat)
    some (if d < 0 then -1 else if d = 0 then 0 else 1)

/-- The integer square root, by bits from `2^k` downward. -/
def sqrtBits (n : Nat) (k acc : Nat) : Nat :=
  match k with
  | 0 => acc
  | j + 1 => let t := acc + 2 ^ j
    if t * t ≤ n then sqrtBits n j t else sqrtBits n j acc

/-- The quotient of two finite nonzero values, as a magnitude, an exponent and whether something remains. -/
def divFin (m : Nat) (e : Int) (m' : Nat) (e' : Int) (p : Nat) : Nat × Int × Bool :=
  let k := p + 3 + Nat.log2 m'
  (m * 2 ^ k / m', e - e' - (k : Int), decide (m * 2 ^ k % m' ≠ 0))

/-- The square root of a finite value, as a magnitude, an exponent and whether something remains. -/
def sqrtFin (m : Nat) (e : Int) (p : Nat) : Nat × Int × Bool :=
  let k := 2 * (p + 3)
  let odd := decide (e % 2 ≠ 0)
  let n := m * 2 ^ k * (if odd then 2 else 1)
  let ee := (if odd then e - 1 else e) - (k : Int)
  let r := sqrtBits n (Nat.log2 n / 2 + 1) 0
  (r, ee / 2, decide (r * r ≠ n))

/-! ### Tapered formats -/

/-- A tapered format: the bits of its magnitude code (R85). -/
inductive Tap where
  | tap8 | tap6
  deriving DecidableEq, Repr

/-- Bits of the magnitude code. -/
def Tap.w (t : Tap) : Nat := match t with | .tap8 => 7 | .tap6 => 5
/-- The exponent of the smallest nonzero magnitude at scale 0. -/
def Tap.low (t : Tap) : Nat := match t with | .tap8 => 12 | .tap6 => 8
/-- The top magnitude code. -/
def Tap.top (t : Tap) : Nat := 2 ^ t.w - 1

/-- How many of the bits `n - 1`, `n - 2`, … of `m` equal `b`. -/
def runLen (b : Bool) (m n : Nat) : Nat :=
  match n with
  | 0 => 0
  | k + 1 => if Nat.testBit m k = b then runLen b m k + 1 else 0

/-- The magnitude of a nonzero magnitude code at scale 0, in units of `2^-low` (R85). -/
def Tap.mag (t : Tap) (m : Nat) : Nat :=
  if m = 0 then 0 else
  let w := t.w
  let b := Nat.testBit m (w - 1)
  let k := runLen b m w
  let reg : Int := if b then (k : Int) - 1 else -(k : Int)
  let rest := if k = w then 0 else w - k - 1
  let e := if rest = 0 then 0 else if Nat.testBit m (rest - 1) then 1 else 0
  let nf := rest - 1
  let f := m % 2 ^ nf
  (2 ^ nf + f) * 2 ^ ((2 * reg + e + (t.low : Int)).toNat) / 2 ^ nf

/-- The value of a tapered code at bank scale `s` under TOPINF `ti` (R85, R90). -/
def tapValue (t : Tap) (ti : Bool) (s : Int) (c : Nat) : Num :=
  let sg := Nat.testBit c t.w
  let m := c % 2 ^ t.w
  if m = 0 then (if sg then .nan false else .fin false 0 0)
  else if ti && m = t.top then .inf sg
  else .fin sg (t.mag m) (s - (t.low : Int))

/-- The largest magnitude code from `n` downward whose magnitude, in units `2^-low`, satisfies `ok`. -/
def tapFloor (t : Tap) (ok : Nat → Bool) (n : Nat) : Nat :=
  match n with
  | 0 => 0
  | k + 1 => if ok (t.mag (k + 1)) then k + 1 else tapFloor t ok k

/-- Encodes a value into a tapered format at scale `s` (R92). -/
def tapEncode (t : Tap) (rm : Rm) (ti : Bool) (s : Int) (x : Num) : Nat × Flags :=
  match x with
  | .nan sig => (2 ^ t.w, flagIf sig fNV)
  | .inf n => ((if n then 2 ^ t.w else 0) + t.top, flagIf (!ti) fOF)
  | .fin n m e =>
    -- a = m × 2^(e - s), compared with magnitudes × 2^-low
    let ea : Int := e - s
    let u : Int := if ea ≤ -(t.low : Int) then ea else -(t.low : Int)
    let a := m * 2 ^ (ea - u).toNat
    let unit := 2 ^ (-(t.low : Int) - u).toNat
    let big := decide (t.mag t.top * unit < a)
    let c := tapFloor t (fun g => decide (g * unit ≤ a)) t.top
    let lo := t.mag c * unit
    let hi := t.mag (c + 1) * unit
    let up := match rm with
      | .rne => decide (hi - a < a - lo) || (decide (hi - a = a - lo) && decide (c % 2 = 1))
      | .rtz => false
      | .rup => !n
      | .rdn => n
    let r := if big then t.top else if decide (lo = a) then c else if up then c + 1 else c
    let nx := decide (t.mag r * unit ≠ a)
    let uf := decide (a ≠ 0) && decide (r = 0)
    let topped := ti && decide (r = t.top)
    let fl := flagIf (big || topped) fOF ||| flagIf nx fNX ||| flagIf uf fUF
    (if r = 0 then 0 else (if n then 2 ^ t.w else 0) + r, fl)

/-! ### Formats of banks and conversions between them (R93, R98) -/

/-- The formats a bank or a command field names (R93). -/
inductive Fmt where
  | raw | fp32 | bf16 | fp16 | int8 | int32 | tap8 | tap6
  deriving DecidableEq, Repr

/-- The format of a three-bit code (R93). -/
def Fmt.ofCode (n : Nat) : Fmt :=
  match n % 8 with
  | 0 => .raw | 1 => .fp32 | 2 => .bf16 | 3 => .fp16 | 4 => .int8 | 5 => .int32 | 6 => .tap8 | _ => .tap6

/-- Whether a format is tapered. -/
def Fmt.tapered (f : Fmt) : Bool := f == .tap8 || f == .tap6

/-- Bytes of an element; 0 for RAW, whose size the command gives, and for TAP6, which packs ten in eight bytes. -/
def Fmt.bytes (f : Fmt) : Nat :=
  match f with
  | .raw => 0 | .fp32 => 4 | .bf16 => 2 | .fp16 => 2 | .int8 => 1 | .int32 => 4 | .tap8 => 1 | .tap6 => 0

/-- A signed reading of an `n`-bit number. -/
def toSigned (n x : Nat) : Int := if x % 2 ^ n < 2 ^ (n - 1) then (x % 2 ^ n : Nat) else (x % 2 ^ n : Nat) - (2 ^ n : Nat)

/-- The `n`-bit two's complement reading of an integer as a number. -/
def ofSigned (n : Nat) (x : Int) : Nat := (x % (2 ^ n : Nat)).toNat

/-- The value of an integer. -/
def numOfInt (x : Int) : Num := .fin (decide (x < 0)) x.natAbs 0

/-- The value that element bits mean in a format at a scale (R82 to R90). -/
def decodeNum (f : Fmt) (ti : Bool) (s : Int) (b : Nat) : Num :=
  match f with
  | .fp32 => decodeFp fp32 b
  | .bf16 => decodeFp bf16 b
  | .fp16 => decodeFp fp16 b
  | .int8 => numOfInt (toSigned 8 b)
  | .int32 => numOfInt (toSigned 32 b)
  | .tap8 => tapValue .tap8 ti s b
  | .tap6 => tapValue .tap6 ti s b
  | .raw => numOfInt b

/-- Rounds a value to an `n`-bit signed integer, saturating: NV alone for infinities and NaN, NV when the rounded value
lies out of range, NX when rounding changed the value (R98, R245). -/
def toInt (n : Nat) (rm : Rm) (x : Num) : Nat × Flags :=
  match x with
  | .nan _ => (0, fNV)
  | .inf neg => (if neg then 2 ^ (n - 1) else 2 ^ (n - 1) - 1, fNV)
  | .fin neg m e =>
    let q := roundUnits rm neg false m e 0
    let v := signedInt neg q.1
    let nx := flagIf q.2 fNX
    if v < -(2 ^ (n - 1) : Nat) then (2 ^ (n - 1), fNV ||| nx)
    else if v > ((2 ^ (n - 1) : Nat) : Int) - 1 then (2 ^ (n - 1) - 1, fNV ||| nx)
    else (ofSigned n v, nx)

/-- The element bits of a value in a format at a scale, and the flags (R92, R98, R103).  `sat` selects the saturation of
copies. -/
def encodeNum (f : Fmt) (rm : Rm) (ftz sat ti : Bool) (s : Int) (x : Num) : Nat × Flags :=
  match f with
  | .fp32 => encodeFp fp32 rm ftz sat x
  | .bf16 => encodeFp bf16 rm ftz sat x
  | .fp16 => encodeFp fp16 rm ftz sat x
  | .int8 => toInt 8 rm x
  | .int32 => toInt 32 rm x
  | .tap8 => tapEncode .tap8 rm ti s x
  | .tap6 => tapEncode .tap6 rm ti s x
  | .raw => (0, 0)

/-! ### FP32 arithmetic on encodings -/

/-- FP32 addition under a rounding mode and FTZ (R103, R104). -/
def fadd (rm : Rm) (ftz : Bool) (a b : Nat) : Nat × Flags :=
  let r := addNum rm (decodeFp fp32 (ftzIn fp32 ftz a)) (decodeFp fp32 (ftzIn fp32 ftz b))
  let q := encodeFp fp32 rm ftz false r.1
  (q.1, r.2 ||| q.2)

/-- FP32 subtraction. -/
def fsub (rm : Rm) (ftz : Bool) (a b : Nat) : Nat × Flags :=
  let r := addNum rm (decodeFp fp32 (ftzIn fp32 ftz a)) (negNum (decodeFp fp32 (ftzIn fp32 ftz b)))
  let q := encodeFp fp32 rm ftz false r.1
  (q.1, r.2 ||| q.2)

/-- FP32 multiplication. -/
def fmul (rm : Rm) (ftz : Bool) (a b : Nat) : Nat × Flags :=
  let r := mulNum (decodeFp fp32 (ftzIn fp32 ftz a)) (decodeFp fp32 (ftzIn fp32 ftz b))
  let q := encodeFp fp32 rm ftz false r.1
  (q.1, r.2 ||| q.2)

/-- FP32 fused multiply-add `±(a × b) + (±c)` with one rounding. -/
def ffma (rm : Rm) (ftz negP negC : Bool) (a b c : Nat) : Nat × Flags :=
  let da := decodeFp fp32 (ftzIn fp32 ftz a)
  let db := decodeFp fp32 (ftzIn fp32 ftz b)
  let dc := decodeFp fp32 (ftzIn fp32 ftz c)
  let p := mulNum da db
  let pn := if negP then negNum p.1 else p.1
  let r := addNum rm pn (if negC then negNum dc else dc)
  let q := encodeFp fp32 rm ftz false r.1
  (q.1, p.2 ||| r.2 ||| q.2)

/-- FP32 division. -/
def fdiv (rm : Rm) (ftz : Bool) (a b : Nat) : Nat × Flags :=
  match decodeFp fp32 (ftzIn fp32 ftz a), decodeFp fp32 (ftzIn fp32 ftz b) with
  | .nan x, .nan y => (fp32.qnan, flagIf (x || y) fNV)
  | .nan x, _ => (fp32.qnan, flagIf x fNV)
  | _, .nan y => (fp32.qnan, flagIf y fNV)
  | .inf _, .inf _ => (fp32.qnan, fNV)
  | .inf x, .fin y _ _ => (fp32.signed (x != y) fp32.infBits, 0)
  | .fin x _ _, .inf y => (fp32.signed (x != y) 0, 0)
  | .fin x m e, .fin y m' e' =>
    if m' = 0 then (if m = 0 then (fp32.qnan, fNV) else (fp32.signed (x != y) fp32.infBits, fDZ))
    else if m = 0 then (fp32.signed (x != y) 0, 0)
    else let (q, t, st) := divFin m e m' e' 24
      roundFp fp32 rm ftz false (x != y) st q t

/-- FP32 square root. -/
def fsqrt (rm : Rm) (ftz : Bool) (a : Nat) : Nat × Flags :=
  match decodeFp fp32 (ftzIn fp32 ftz a) with
  | .nan x => (fp32.qnan, flagIf x fNV)
  | .inf true => (fp32.qnan, fNV)
  | .inf false => (fp32.infBits, 0)
  | .fin n m e =>
    if m = 0 then (fp32.signed n 0, 0)
    else if n then (fp32.qnan, fNV)
    else let (q, t, st) := sqrtFin m e 24
      roundFp fp32 rm ftz false false st q t

end Sys2Proof.Machine
end

