-- ==== Sys2Proof/Machine/State.lean ====
section
/-! DEFINITION. The state of a Saheri 4 module as plain data: every register and memory that the manual names, and what
stands between an instruction and its completion (accesses in flight, messages, commands, waits). -/

namespace Sys2Proof.Machine

/-- Reasons to stop with a fault.  There is none: every error the manual describes is a trap, a status or a count, and the
machine goes on. -/
inductive Fault where
  deriving DecidableEq, Repr

/-- Reasons to refuse a step. -/
inductive Refusal where
  /-- The instruction has no meaning in this model yet (raised by Dispatch alone; safe). -/
  | notModelled (mnemonic : String)
  deriving DecidableEq, Repr

/-! ### Accesses in flight -/

/-- What an access does at its home (R175). -/
inductive FOp where
  /-- LD into s[d] (R155). -/
  | ld (signed : Bool) (d : Nat)
  /-- One lane of VLD or VLDX into v[d] (R249). -/
  | vld (d lane : Nat)
  /-- ST, or one lane of VST (R155, R249). -/
  | st (v : W64)
  /-- LDFE (`take`) or LDFF (R156). -/
  | ldSync (take : Bool) (d : Nat)
  /-- STFE (R156). -/
  | stfe (v : W64)
  /-- STFF (R156). -/
  | stff (v : W64)
  /-- FECLR (R156). -/
  | feclr
  /-- An atomic: operation code, operand, compare value (R162). -/
  | atom (op d : Nat) (b c : W64)
  /-- BARINIT, BARARR, BARWAIT, BARRD (R166 to R169). -/
  | barinit (v : W64)
  | bararr (n : Nat)
  | barwait (ph : Nat)
  | barrd (d : Nat)
  /-- A read of SPTAG, and a write of its FULL field (R141). -/
  | sptagRead (d : Nat)
  | sptagWrite (v : W64)
  /-- TLD's pin and read of its lines at one home, for matrix command `cmd` (R262). -/
  | tileLoad (cmd : Nat)
  /-- One line of a tile, accumulator or quantised row that matrix command `cmd` stores (R263, R271): row, first byte of
  the row, number of bytes. -/
  | tileStore (cmd row off len : Nat)
  deriving DecidableEq, Repr

/-- Where an access stands. -/
inductive FStage where
  /-- An output of a leading thread that the store comparator holds back (R397). -/
  | held
  /-- Sent, and not yet performed; at an absent line it is held here (R124). -/
  | sent
  /-- On a wait list at its home: place in park order, and whether the overflow queue holds it (R158, R160). -/
  | waiting (ord : Nat) (overflow : Bool)
  /-- Performed; its value, flags and poison mark are on their way back (R152). -/
  | returning (v : W64) (fl : Flags) (poison : Bool)
  deriving DecidableEq, Repr

/-- One access of a thread or of an engine for it. -/
structure Flight where
  id : Nat
  core : Nat
  slot : Nat
  tid : Nat
  task : Nat
  va : W64
  pa : Nat
  size : Nat
  op : FOp
  topinf : Bool
  privS : Bool
  seq : Nat
  stage : FStage := .sent
  /-- An acquire that orders the thread's later accesses (R157). -/
  acq : Bool := false
  /-- The polder slot that the access went through, if any (R148), and the page it was translated through (R385). -/
  polder : Option Nat := none
  page : Option Nat := none
  deriving DecidableEq, Repr

/-! ### Translation -/

/-- What an access asks of a page (R71). -/
inductive Acc where
  | load | store | atomic | fetch
  deriving DecidableEq, Repr

/-- What a miss asks the walker for: the 64 KiB page, and the access that needs it with its privilege (R71, R74). -/
structure Want where
  page : Nat
  acc : Acc := .load
  privS : Bool := false
  deriving DecidableEq, Repr

/-! ### Threads -/

/-- An entry of the divergence stack (R334). -/
structure DEnt where
  m : W16 := 0
  e : W16 := 0
  kind : BitVec 2 := 0
  deriving DecidableEq, Repr

/-- A bundle of an instruction channel (R338): the word, its address, and for a branch, call or JALR the publisher's
outcome: the address that follows. -/
structure Bundle where
  word : W32
  pc : W64
  target : Option W64 := none
  close : Bool := false
  deriving DecidableEq, Repr

/-- What a thread waits for that an event completes. -/
inductive Busy where
  /-- A divide or remainder into s[d], or a value that a wait has brought and whose output port has no space (R227, R373). -/
  | divide (d : Nat) (v : W64) (poison : Bool := false)
  /-- VFDIV, VFSQRT or a vector function into v[d]: lanes and flags (R241). -/
  | vdivide (d : Nat) (lanes : Map W32) (fl : Flags)
  /-- YIELD: the cycle of its 64-cycle bound and the slots that were ready (R372). -/
  | yield (until_ : Nat) (slots : List Nat)
  /-- SLEEP to a tick (R372). -/
  | sleep (t : Nat)
  /-- A synchronising load, STFE, BARWAIT, or SPTAG access, by the access's id (R453, R165, R141). -/
  | access (id : Nat)
  /-- SPAWN or CALLAT until the hub accepts record message `msg` (R364). -/
  | place (msg : Nat)
  /-- CHSUB s[d]: the channel is waiting for a CHSYNC (R342). -/
  | chsub (d : Nat)
  /-- CHRESUB s[d] (R347). -/
  | chresub (d : Nat)
  /-- A pattern generator command (R290). -/
  | pattern (id : Nat)
  /-- RGOPEN of a group whose weirs are being set up (R315). -/
  | rgopen (g : Nat)
  /-- MOVTC of HMAP, of PDIRBASE, of RSTPOST; MOVC of PMRD into s[d] (R80, R143, R393, R409). -/
  | hmap (w : Nat) (v : W64)
  | pdirbase (v : W64)
  | rstpost (v : W64)
  | pmrd (d : Nat)
  /-- GLD, GLDFE or GSTFE on the wait list of its g register (R236). -/
  | shared
  deriving DecidableEq, Repr

/-- The state of a thread between issues (R327, R328). -/
inductive Wait where
  /-- In the issue rotation. -/
  | run
  /-- Parked with a run state code of R328; the instruction re-executes once its condition holds.  `epoch` is the model's
  count of changes when it parked: a thread is tried again after a later change. -/
  | park (code epoch : Nat)
  /-- Parked with a run state code until an event completes the instruction. -/
  | busy (code : Nat) (b : Busy)
  /-- A thread killed or ended whose slot a dump still holds in run state 11 (R414). -/
  | dumping
  deriving DecidableEq, Repr

/-- An asynchronous trap that waits for delivery (R380): cause, EADDR, ESTAT. -/
structure Post where
  cause : Nat
  addr : W64
  stat : W64
  deriving DecidableEq, Repr

/-- Which member of a pair a thread is (R397). -/
inductive Role where
  | single
  | leading (trail : Nat)
  | trailing (lead : Nat)
  deriving DecidableEq, Repr

/-- An entry of a pair's load-value queue: the address or source it came from, the access that brings its values, and the values
once known; of a register fill, how many instructions the leading thread had completed as it came (R397). -/
structure LvEnt where
  key : W64
  flight : Option Nat := none
  vals : Option (List W64) := none
  at_ : Option Nat := none
  deriving DecidableEq, Repr

/-- An effect that the comparator holds back and that is no access: a register fill, a decrement of a block, a GST, a MOVTC
of a register that the core, a die or the module owns, an entry of an output port, a mail (R397). -/
inductive Eff where
  | fill (d v : W64)
  | tdec (h : W64)
  | gst (n : Nat) (v : W64)
  | movtc (n : Nat) (v : W64)
  | push (port : Nat) (v : W64) (ctl : Bool)
  | mail (n : Nat) (l : List W64)
  deriving DecidableEq, Repr

/-- An output of a leading thread in the store comparator: kind, address, size, data, operands (R397, R398).  It holds back
the access with id `access` (`FStage.held`), or `eff`, or neither where the leading thread `stands` in the instruction until
the output is released; `agreed` says that the trailing thread has produced the same output. -/
structure CmpEnt where
  kind : Nat
  va : W64
  size : Nat
  data : List W64
  access : Option Nat := none
  eff : Option Eff := none
  stands : Bool := false
  agreed : Bool := false
  deriving DecidableEq, Repr

/-- The batches of a slot (R126, R127). -/
structure Batches where
  openN : W16 := 0
  done : W16 := 0
  fbatch : W16 := 0
  failed : Bool := false
  disc : Bool := false
  flags : BitVec 4 := 0
  status : BitVec 4 := 0
  /-- Requests and commands counted into a batch and not ended; those of them that stand in a command image (R133). -/
  counts : Map Nat := []
  imaged : Map Nat := []
  deriving DecidableEq, Repr

/-- A slot and the thread it holds. -/
structure Slot where
  live : Bool := false
  /-- The module-wide number of the thread, never used twice. -/
  tid : Nat := 0
  task : Nat := 0
  privS : Bool := false
  pc : W64 := 0
  wait : Wait := .run
  /-- The die cycle of the last issue (R327). -/
  lastCyc : Option Nat := none
  -- Registers (R197)
  sr : Map W64 := []
  sFull : W64 := BitVec.allOnes 64
  sAwait : W64 := 0
  sPoison : W64 := 0
  vr : Map W32 := []
  vFull : W32 := BitVec.allOnes 32
  vAwait : W32 := 0
  vPoison : W32 := 0
  /-- Registers with a correctable error: scalar ones, and granules of vector ones as 8n + granule (R399). -/
  sErr : W64 := 0
  vErr : List Nat := []
  /-- Granules of the thread's mask and affine registers with a latent error, one wrong bit or more: masks four to a granule (0 and 1),
  the base of affine register n (16 + n), strides two to a granule (32 + n / 2) (R399). -/
  rErr : Map Bool := []
  afB : Map W64 := []
  afS : Map W32 := []
  kr : Map W16 := []
  -- Divergence (R334)
  act : W16 := 0xFFFF
  hlp : W16 := 0
  dstk : List DEnt := []
  depth : Nat := 0
  -- Trap registers (R216, R377)
  epc : W64 := 0
  ecause : W64 := 0
  eaddr : W64 := 0
  estat : W64 := 0
  evec : W64 := 0
  esA : W16 := 0xFFFF
  esH : W16 := 0
  pendCopy : List Post := []
  pendPre : Option Post := none
  pendMerge : List Post := []
  /-- The thread has entered a handler and has not issued its ERET (R348). -/
  trapped : Bool := false
  dspill : W64 := 0
  /-- FSTAT without TOPINF, which the core holds (R100). -/
  fstat : W64 := 0
  chcfg : W64 := 0
  -- Channels (R339)
  chState : Nat := 0
  chTag : Nat := 0
  chChan : Nat := 0
  chTmo : Bool := false
  /-- Bundles in transit, with the publisher cycle of their issue; bundles buffered (R344). -/
  chFly : List Bundle := []
  chBuf : List Bundle := []
  /-- Bundles of a channel that a subscriber has executed, and hold as last reported (R344). -/
  chHold : Bool := false
  /-- A trapped subscriber keeps the bundle it trapped on at the head of its buffer (R349). -/
  chAt : Option W64 := none
  /-- Reports on their way to the publisher: departure and rejoin (R346). -/
  chReports : List Nat := []
  -- Queue ports (R207, R374)
  qcfg : W64 := 0
  qcval : W64 := 0
  qrpc : W64 := 0
  qinh : Bool := false
  qport : BitVec 2 := 0
  qhdl : Map W64 := []
  -- Matrix registers of the slot (R209, R272)
  tsh : Map W64 := []
  ash : Map W64 := []
  mxcfg : W64 := 0
  mxrprog : W64 := 0
  mxrinit : W64 := 0
  -- Translation (R69, R76)
  ptroot : W64 := 0
  aspace : W16 := 0
  /-- The results of walks for the present instruction that ended in a fault: page, address space, cause, ESTAT detail; the page and
  the address space that it missed, while it waits for a walk. -/
  walkRes : List (Nat × Nat × Nat × Nat) := []
  missed : Option (Nat × Nat) := none
  /-- The name under which a read of the present instruction stands in the queue of a frozen core's home (R412). -/
  queued : Option Nat := none
  -- Supervisor registers of the slot (R141, R395) and PMRSEL (R409)
  sptagsel : W64 := 0
  accidx : W64 := 0
  accput : W64 := 0
  pmrsel : W64 := 0
  -- Batches (R126), quiesce mark (R133)
  bat : Batches := {}
  quiesced : Bool := false
  -- Pairs (R397)
  role : Role := .single
  lvq : List LvEnt := []
  cmp : List CmpEnt := []
  /-- Instructions that the thread has completed; inputs that the instruction under way has entered into the load-value queue at an
  earlier try, by key (R397). -/
  count : Nat := 0
  ins : List (W64 × W64) := []
  /-- Outputs stay in the comparator until an ERET of both threads after a mismatch (R398). -/
  pairHeld : Bool := false
  mismatch : Option Post := none
  /-- The trailing thread has already matched the output of the instruction that it waits in (R397). -/
  agreed : Bool := false
  /-- The slot is halted by its debug module or by HALT (R410). -/
  halted : Bool := false
  /-- PCs of the last retired instructions, newest first (R414). -/
  retired : List W64 := []
  /-- The word of the instruction that waits in `busy`, for its publication (R338). -/
  word : W32 := 0
  /-- Messages and accesses that the instruction under way waits for, once it has sent them (R385). -/
  wip : Option (List Nat × List Nat) := none
  /-- The input ports whose head entry the instruction under way has read; it takes them as it completes (R207, R220). -/
  pops : List Nat := []
  /-- The thread is entering a handler, and has not issued there (R328, R378). -/
  entering : Bool := false
  /-- The ports that a restored thread has not enabled since its restore: they start empty (R389). -/
  freshPorts : List Nat := []
  /-- A publisher stands in a CHRDV that it has published: its deadline in reference ticks, if any (R347). -/
  rdv : Option (Option Nat) := none
  deriving DecidableEq, Repr

/-! ### Cores -/

/-- A task on a core: its allocation, its reply and its membership (R355, R362, R367, R142). -/
structure Task where
  live : Bool := false
  banks : List Nat := []
  tiles : List Nat := []
  accs : List Nat := []
  sluice : Bool := false
  pair : Bool := false
  res : W32 := 0
  reply : W64 := 0
  replied : Bool := false
  killed : Bool := false
  /-- The cause that EVEC = 0 gave the last thread, or the status of a command whose requester has gone (R378, R380). -/
  endStatus : Nat := 0
  preempted : Option W64 := none
  preemptN : Nat := 0
  ending : Bool := false
  ptroot : W64 := 0
  aspace : W16 := 0
  /-- The polder and the member index (R142); the thread whose PJOIN installs it; a PLEAVE under way, and the thread that waits in
  it (R147, R148). -/
  member : Option (Nat × Nat) := none
  joinBy : Option Nat := none
  leaving : Bool := false
  leaveBy : Option Nat := none
  /-- The result of a walk for a reply at a memory target that ended in a fault: its page (R367). -/
  walkRes : Option Nat := none
  /-- FMTMISMATCH records that wait: EADDR, ESTAT, and the slot whose register a fill named (R380). -/
  fmtq : List (W64 × W64 × Option Nat) := []
  fmtLost : Nat := 0
  deriving DecidableEq, Repr

/-- A mailbox (R110). -/
structure Mailbox where
  full : Bool := false
  words : List W64 := []
  slot : Nat := 0
  tid : Nat := 0
  privS : Bool := false
  batch : W16 := 0
  /-- Words with a latent error: one wrong bit, or more (R399). -/
  err : Map Bool := []
  deriving DecidableEq, Repr

/-- SLREQ (R111). -/
structure SlReq where
  slot : Nat := 15
  tid : Nat := 0
  open_ : Bool := false
  batch : W16 := 0
  privS : Bool := false
  deriving DecidableEq, Repr

/-- A pattern slot (R287). -/
structure PSlot where
  code : List W32 := []
  inv : Bool := false
  tab : Bool := false
  tv : Bool := false
  last : Nat := 0
  done : Bool := false
  mode : Bool := false
  r : Nat := 0
  c : Nat := 0
  ir : Nat := 0
  ic : Nat := 0
  row : Nat := 0
  col : Nat := 0
  rank : Nat := 0
  t : Nat := 0
  tc0 : Nat := 0
  tw : Nat := 0
  addr : W64 := 0
  deriving DecidableEq, Repr

/-- The requester of a sluice command: its slot and thread, task, batch, privilege and context (R111). -/
structure Req where
  slot : Nat
  live : Bool
  tid : Nat
  task : Nat
  batch : W16
  privS : Bool
  root : W64
  asp : W16
  deriving DecidableEq, Repr

/-- An element that a copy has read and has not yet sent everywhere: its bits and poison mark, the format, scale and TOPINF
it was read under, the elements that it holds (bytes of one word that a RAW copy moves together), and the destinations that it
has been sent to (R99, R118, R122). -/
structure SlVal where
  bits : Nat := 0
  poison : Bool := false
  fmt : Fmt := .raw
  scale : Int := 0
  topinf : Bool := false
  count : Nat := 1
  wrote : Nat := 0
  deriving DecidableEq, Repr

/-- A write that a copy has sent and that is still to be performed at its home (R118, R183): its name, the element, what it
writes, the TAP6 code, the sender's TOPINF, the place, and the polder slot and page it was sent through. -/
structure SlWrite where
  id : Nat
  elem : Nat
  val : SlVal
  code : Nat
  topinf : Bool
  pa : Nat
  polder : Option Nat
  page : Option Nat
  deriving DecidableEq, Repr

/-- A command of the sluice (R117, R118); `uid` tells it from another that has the same number. -/
structure SlCmd where
  uid : Nat := 0
  num : Nat
  cmd : Nat
  fl : Nat
  /-- The requester: slot, thread and task. -/
  slot : Nat
  tid : Nat
  task : Nat
  batch : W16
  privS : Bool
  op1 : W64
  op2 : W64
  desc : Map W64
  root : W64
  asp : W16
  srcfg : W64
  srbase : W64
  /-- Reference tick of issue (R321). -/
  time : Nat
  /-- Its geometry is fixed (R115); it has started since its issue or its last restart; it is stopped (R131, R133). -/
  fixed : Bool := false
  started : Bool := false
  stopped : Bool := false
  status : Nat := 0
  /-- The source's format, width codes of source and destination elements (bytes; 0 a TAP6 code) and number of elements, once
  fixed (R115). -/
  srcFmt : Fmt := .raw
  sw : Nat := 0
  dw : Nat := 0
  n : Nat := 0
  /-- Elements read and sent; the recorded offset from which a re-issue is to start (R134). -/
  pos : Nat := 0
  off : Nat := 0
  /-- Lines still to claim, by home; lines claimed and not yet present; writes still to come, by line (R118, R123). -/
  toClaim : List (Nat × List Nat) := []
  claimed : List Nat := []
  left : Map Nat := []
  /-- Polder slots and pages that its claims pass (R148, R385); lines of an SLRECV's buffer, by virtual address, that take no more
  words (R317). -/
  slots : List Nat := []
  pages : List Nat := []
  doneV : List Nat := []
  /-- The barrier object, once resolved, and the page it was resolved through (R129, R385). -/
  bar : Option Nat := none
  barPage : Option Nat := none
  /-- The pattern of SLPAT, as it stood when the command started (R121). -/
  ps : PSlot := {}
  flags : BitVec 4 := 0
  disc : Bool := false
  /-- The index word of the element in progress with its poison mark, and what it has read (R120, R175); then bytes that it has
  overwritten in lines it claimed (R118). -/
  idx : Option (Nat × Bool) := none
  val : Option SlVal := none
  /-- Writes sent and not yet performed, in the order of their sending (R118). -/
  pend : List SlWrite := []
  old : Map Byte := []
  /-- A page walk this command waits for ended in this fault: page, cause and detail. -/
  walkRes : Option (Nat × Nat × Nat) := none
  /-- Reduction commands: the round (R312); the last index accepted and the entries dropped (R307); the header of the dense
  segment being read and its value words read (R306); bytes written and output items taken (R317,
  R319); whether the output is complete; whether its round was cut (R321) and whether a hold stops it (R304). -/
  round : Option Nat := none
  last : Option Nat := none
  drops : Nat := 0
  hdr : Option W64 := none
  seg : Nat := 0
  written : Nat := 0
  given : Nat := 0
  fin : Bool := false
  cut : Bool := false
  held : Bool := false
  /-- Its output was cut short before its round was cut (R318); an entry of an image that came from another core (R324). -/
  cutShort : Bool := false
  foreign : Bool := false
  deriving DecidableEq, Repr

/-- An entry of a core's translation buffer: one leaf (R73). -/
structure Tlb where
  base : Nat
  bits : Nat
  pa : Nat
  perm : Nat
  asp : Nat
  deriving DecidableEq, Repr

/-- The matrix and recurrence commands (R260). -/
inductive MxKind where
  | tld | tst | tzero | mma | spmma | spmmat | had | tquant | accrd | accst | acczero | mxrun
  deriving DecidableEq, Repr

/-- A matrix command and what it latched at issue (R256). -/
structure MxCmd where
  id : Nat
  kind : MxKind
  slot : Nat
  tid : Nat
  task : Nat
  cfg : W64 := 0
  prog : W64 := 0
  init : W64 := 0
  /-- Physical tiles A (or the command's tile) and B, physical accumulator, and their shapes. -/
  ta : Nat := 0
  tb : Nat := 0
  acc : Nat := 0
  shA : W64 := 0
  shB : W64 := 0
  shC : W64 := 0
  op1 : W64 := 0
  op2 : W64 := 0
  d : Nat := 0
  ps : PSlot := {}
  /-- TSCALE of A and B as latched; none where an earlier command still under way sets it (R256, R257). -/
  scA : Option (BitVec 8) := none
  scB : Option (BitVec 8) := none
  /-- Row pieces that it transfers, or words of the count table that it reads: home, row, byte in the row, bytes, physical
  address. -/
  pieces : List (Nat × Nat × Nat × Nat × Nat) := []
  /-- Accesses of the command still to perform. -/
  flights : List Nat := []
  /-- Bytes that it has read, by byte of the tile or of the table, and the scale that a tile load found. -/
  data : Map Byte := []
  scale : BitVec 8 := 0
  /-- Flags a quantising store has raised; poison consumed. -/
  fl : Flags := 0
  poison : Bool := false
  /-- A later MOVTC has written TSCALE of its tile: its own write of it reaches only the commands between (R254, R256). -/
  overtaken : Bool := false
  /-- Homes that it reads through polder slots, each with the slot (R148, R261). -/
  via : List (Nat × Nat) := []
  deriving DecidableEq, Repr

/-- A run of bytes of one row inside one 64-byte line: row, byte of the row, length, address, and the place with the polder slot
that it was reached through. -/
structure Piece where
  row : Nat
  off : Nat
  len : Nat
  va : Nat
  pa : Nat
  polder : Option Nat
  deriving DecidableEq, Repr

/-- A pattern generator command (R289). -/
inductive PgKind where
  | psld | psgen | prank | pschk | pssave | psrest
  deriving DecidableEq, Repr

/-- A queued pattern generator command. -/
structure PgCmd where
  id : Nat
  kind : PgKind
  slot : Nat
  tid : Nat
  task : Nat
  p : Nat
  op1 : W64
  op2 : W64
  n : Nat := 0
  trans : Bool := false
  d : Nat := 0
  /-- Words that it has still to read, and those that it has read, by row (R175, R184). -/
  reads : List Piece := []
  words : Map Nat := []
  /-- Its writes, or its reads, have been sent; writes still to perform (R290, R293, R296). -/
  sent : Bool := false
  flights : List Nat := []
  /-- Whether its destinations were full before it marked them empty (R201, R290). -/
  full : Bool × Bool := (false, false)
  deriving DecidableEq, Repr

/-- An entry of a queue port: value, control tag (R373) and poison mark (R400). -/
structure PortEnt where
  val : W64
  ctl : Bool := false
  poison : Bool := false
  deriving DecidableEq, Repr

/-- A queue port's arrived entries, oldest first, and those on their way (R373). -/
structure Port where
  here : List PortEnt := []
  fly : List PortEnt := []
  deriving DecidableEq, Repr

/-- A debug module (R410, R413). -/
structure Dbg where
  swbp : Bool := false
  freeze : Bool := false
  step : W16 := 0
  haltreq : W16 := 0
  slot : Nat := 0
  why : Nat := 0
  bp : Map W64 := []
  wp : Map W64 := []
  wpc : Map W64 := []
  btbase : W64 := 0
  btoff : Nat := 0
  btWrapped : Bool := false
  /-- The encoder's FIFO of 16 records, oldest first, and the records lost since it overflowed (R413). -/
  btfifo : List W64 := []
  btlost : Nat := 0
  deriving DecidableEq, Repr

/-- A running dump (R414). -/
structure DumpJob where
  slot : Nat
  taskN : Nat
  ended : Bool
  /-- Sluice commands of the task that the drain waits for, by their uids, the barrier objects they name; BSTAT, SLSTS and EPEND at the
  trigger (R415, R446). -/
  cmds : List Nat
  objs : List W64
  bstat : W64
  slsts : W64
  epend : W64
  /-- The fault record's ECAUSE, EPC, EADDR, ESTAT and ESMASK (R415): those of the fault that ends the thread, whose trap
  registers it leaves alone (R378); the thread's own for a requested dump. -/
  fault : List W64
  deriving DecidableEq, Repr

/-- A channel that a core publishes (R338, R341). -/
structure Chan where
  open_ : Bool := false
  slot : Nat := 0
  tid : Nat := 0
  /-- Subscribers, attached, departed or rejoining: core, slot, thread. -/
  subs : List (Nat × Nat × Nat) := []
  /-- Threads waiting for CHSYNC: core, slot, thread (R342). -/
  joining : List (Nat × Nat × Nat) := []
  dep : Nat := 0
  /-- Subscribers that are known to be rejoining, with their tags (R347). -/
  rejoin : List (Nat × Nat × Nat × Nat) := []
  /-- Subscribers whose hold stands (R344). -/
  holds : List (Nat × Nat × Nat) := []
  /-- Cross-die FIFOs that relock after a clock step (R345). -/
  relock : List (Nat × Nat) := []
  deriving DecidableEq, Repr

/-- A wait on a g register (R236). -/
structure GWait where
  slot : Nat
  tid : Nat
  /-- 0 GLD, 1 GLDFE, 2 GSTFE. -/
  kind : Nat
  reg : Nat
  d : Nat
  v : W64
  deriving DecidableEq, Repr

/-- A fetch-cache block: address space, block number, its 64 bytes (R384). -/
structure ICBlock where
  asp : Nat
  blk : Nat
  words : List W32
  deriving DecidableEq, Repr

/-- A thread in migration (R371). -/
structure Pkg where
  thread : Slot
  reply : W64
  deriving DecidableEq, Repr

/-- A core. -/
structure Core where
  slots : Map Slot := []
  /-- The slot last issued, and the die cycle of the last issue (R327). -/
  last : Nat := 15
  lastCyc : Option Nat := none
  -- Shared registers (R203, R204): values; values that plain GSTs replaced, newest first, with the cycle of each
  gr : Map W64 := []
  gFull : BitVec 8 := 0xFF
  gOld : Map (List (W64 × Nat)) := []
  gWait : List GWait := []
  topinf : Bool := false
  colwin : Nat := 0
  gown : W64 := 0x10
  filldrop : W32 := 0
  sloten : W16 := 0xFFFF
  tdrop : W32 := 0
  devec : W64 := 0
  tasks : Map Task := []
  /-- BFMT by physical bank (R93). -/
  bfmt : Map W64 := []
  -- Tiles, accumulators and pattern slots by physical number (R208, R254, R277)
  tile : Map Byte := []
  tshape : Map W64 := []
  tscale : Map (BitVec 8) := []
  accv : Map W32 := []
  /-- Granules of tiles and accumulators with a latent error, one wrong bit or more: 4096 r + granule, tile t as r = t and
  accumulator a as r = 8 + a (R399, R400). -/
  engErr : Map Bool := []
  /-- Shared registers with a latent error (R399). -/
  gErr : Map Bool := []
  ashape : Map W64 := []
  pslots : Map PSlot := []
  mx : List MxCmd := []
  /-- The command that took the engine's transfer path last (R257). -/
  path : Option Nat := none
  pg : List PgCmd := []
  -- The sluice (R109 to R117)
  mail : Map Mailbox := []
  mailWait : List (Nat × Nat × Nat) := []
  slsh : Map W64 := []
  slreq : SlReq := {}
  slcmds : List SlCmd := []
  slnum : Nat := 0
  /-- Mail entries that an SLRESUME of an image has still to place, by the thread and the PC of that SLRESUME, and a walk's fault for
  an image access (R133, R134). -/
  slMail : List ((Nat × W64) × List (Nat × Mailbox)) := []
  slWalk : Option (Nat × Nat × Nat) := none
  /-- The requester that an SLQUIESCE or SLRESUME latched, and counts in its batch, while slot 15 waits in it (R111). -/
  slHold : Option Req := none
  /-- Numbers of image entries whose reduction commands a cut has ended since (R321). -/
  slGone : List Nat := []
  /-- The standard dispatcher: the mailbox it looks at next, and the command it holds. -/
  dispNext : Nat := 0
  dispCmd : Option (Nat × Nat × W64 × W64) := none
  srcfg : W64 := 65 * 256
  srbase : W64 := 0
  srgrp : W64 := 0
  /-- The polder window of each task: task × 64 + slot → member core and task (R144). -/
  pwin : Map (Nat × Nat) := []
  tlb : List Tlb := []
  icache : List ICBlock := []
  -- Counters (R408): value, select, enabled cycles
  pmc : Map W64 := []
  pmsel : Map W64 := []
  pmet : Map W64 := []
  /-- The cycle up to which PMET and the cycle events are counted. -/
  pmAt : Nat := 0
  dropq : List (W64 × W64) := []
  dropv : W64 := 0
  dbg : Dbg := {}
  dumpcfg : W64 := 0
  dumpreq : W64 := 0
  prpost : W64 := 0
  rstpost : W64 := 0
  dumpDropped : Nat := 0
  dumpDone : Nat := 0
  dump : Option DumpJob := none
  ports : Map Port := []
  /-- What has reached the frozen core from elsewhere, oldest first, by its names (R412). -/
  arrivals : List Nat := []
  /-- Packages in the migration buffers, oldest first (R371). -/
  migbuf : List Pkg := []
  chan : Chan := {}
  deriving DecidableEq, Repr

/-! ### Hubs, dies and the module -/

/-- A queued record (R357); its doublewords that carry a poison mark, 8 for what its placer gave beside it (R400). -/
structure QRec where
  bytes : List Byte
  arrival : Nat
  root : W64
  asp : W16
  poison : List Nat := []
  deriving DecidableEq, Repr

/-- A walk in flight (R74): the page, the table it reads next, the level, the access whose miss started it, and who waits:
core and slot, or core and 0x10000 + the name of a sluice command. -/
structure Walk where
  asp : Nat
  root : W64
  page : Nat
  acc : Acc := .load
  privS : Bool := false
  table : Nat
  level : Nat
  stale : Bool := false
  waiters : List (Nat × Nat)
  /-- Its name in the queue of a frozen core's home (R412). -/
  id : Nat := 0
  deriving DecidableEq, Repr

/-- A miss that waits in a walker's FIFO (R74). -/
structure QMiss where
  asp : Nat
  root : W64
  want : Want
  waiter : Nat × Nat
  deriving DecidableEq, Repr

/-- A cluster hub (R357, R358, R74, R409). -/
structure Hub where
  bank : List QRec := []
  ringHead : Nat := 0
  ringCount : Nat := 0
  size : Nat := 32
  offset : Nat := 32
  age : Nat := 16
  drops : Nat := 0
  lroot : W64 := 0
  laspace : W16 := 0
  partid : Nat := 0
  /-- The walks of the eight engines, and the walker's FIFO of 64 misses, oldest first (R74). -/
  walks : List Walk := []
  fifo : List QMiss := []
  deriving DecidableEq, Repr

/-- A die (R217, R218, R406, R422, R426). -/
structure Die where
  freq : Nat := 0
  /-- The reference tick at which cycle `eCyc + 1` starts. -/
  eTime : Nat := 0
  eCyc : Nat := 0
  steplog : Map W64 := []
  stepCount : Nat := 0
  newest : Nat := 0
  fcap : Nat := 4
  /-- A step in progress: the clock it steps to, and the last old cycle (R422). -/
  stepping : Option (Nat × Nat) := none
  /-- Forward steps of TIME during it, whose entries name the tick at which the new clock starts (R219). -/
  owed : Nat := 0
  request : Option Nat := none
  smpbuf : W64 := 0
  head : Nat := 0
  tail : Nat := 0
  /-- PCs of the die's previous sampling record, by core × 16 + slot; none where the next record uses form 2 throughout. -/
  prevPc : Option (Map W64) := none
  temp : Nat := 0
  throttled : Bool := false
  /-- The tick of the governor's last step down (R426). -/
  throtAt : Nat := 0
  deriving DecidableEq, Repr

/-- A stream of windows at a weir input or output: window number → (dense, index in window → value); the index up to which
it is complete; whether it has ended (R308).  `load` counts the 64-bit words of it that a buffer holds, by window (R304); `hdr`,
`seg` and `mask` are the dense segment that comes in, the value words taken of it and the mask of its window (R306); `tail` is the
last window put out, where it was dense, and how many its segment has. -/
structure Stream where
  wins : Map (Bool × Map W32) := []
  floor : Nat := 0
  ended : Bool := false
  load : Map Nat := []
  hdr : Option W64 := none
  seg : Nat := 0
  mask : W64 := 0
  tail : Option (Nat × Nat) := none
  deriving DecidableEq, Repr

/-- A round of a group (R312). -/
structure Round where
  /-- 0 SLSEND, 1 SLDRED, once known; MODE, THR, SRBASE, SLDRED length. -/
  kind : Option Nat := none
  mode : Nat := 0
  thr : Nat := 65
  base : W64 := 0
  len : Nat := 0
  streams : Map Stream := []
  sent : List Nat := []
  taken : List Nat := []
  drops : Nat := 0
  /-- FLAGS of its records so far (R318). -/
  flags : Nat := 0
  /-- It has been cut (R321); for a cut whose streams disagreed, the MERGEFAULT code (R320). -/
  cut : Bool := false
  code : Nat := 0
  /-- The window up to which the module's result has gone out on the peer ports (R322). -/
  outTo : Nat := 0
  /-- The requester of every command that joined: core, slot, task, command number (R320). -/
  reqs : List (Nat × Nat × Nat × Nat) := []
  deriving DecidableEq, Repr

/-- A reduction group (R311, R314, R315). -/
structure Group where
  open_ : Bool := false
  root : Nat := 0
  bcast : Bool := false
  peers : Nat := 0
  members : List Nat := []
  rounds : Map Round := []
  sends : Map Nat := []
  recvs : Map Nat := []
  completed : Nat := 0
  /-- Commands of its rounds that stand in a command image, with their core (R324). -/
  away : List (Nat × SlCmd) := []
  deriving DecidableEq, Repr

/-- An access from outside the cores that waits at its home: of the host or of a device of the module, with what it writes, or of a
peer (R412, R418, R420). -/
inductive Ext where
  | host (pa size : Nat) (wr : Option (List Byte))
  | peer (port : Nat) (op : PeerOp)
  deriving DecidableEq, Repr

/-- A message on its way. -/
inductive Msg where
  /-- A register fill: descriptor, value, sender's TOPINF, sender, poison (R212). -/
  | fill (d v : W64) (ti : Bool) (src : Nat)
  /-- A decrement of the block at a physical address (R370). -/
  | tdec (h : W64) (src : Nat)
  /-- A record for a cluster hub; the thread that waits for its acceptance, if any (R364, R370). -/
  | record (cluster : Nat) (r : QRec) (from_ : Option (Nat × Nat × Nat)) (src : Nat)
  /-- A pre-emption post (R386). -/
  | preempt (v : W64)
  /-- An FMTMISMATCH record: core, task, EADDR, ESTAT, slot of a register fill (R101, R380). -/
  | fmt (core task : Nat) (addr stat : W64) (slot : Option Nat)
  /-- Install (member given) or remove a slot of polder `pid` in the window of a task on a core, for the task `src` (core × 16 +
  handle); once applied, the accesses and claims it still waits for (R147, R148). -/
  | polder (core task pid idx : Nat) (member : Option (Nat × Nat)) (src : Nat) (drain : Option (List Nat))
  /-- A TLB shootdown at a core, or at a walker (cluster + 0x1000): page address, s[sb] (R385). -/
  | tlb (target : Nat) (va : W64) (spec : W64)
  deriving DecidableEq, Repr

/-- A far-memory port, and a peer port (R427). -/
structure Far where
  up : Bool := false
  gib : Nat := 0
  deriving DecidableEq, Repr

/-- A peer port. -/
structure Peer where
  up : Bool := false
  trained : Bool := false
  openHere : Bool := false
  openThere : Bool := false
  rails : Nat := 0
  remote : W16 := 0
  deriving DecidableEq, Repr

/-- What a measurement covers (R425): the boot ROM, the firmware by its version, the fuses by their rollback counter, and BRINGUP. -/
inductive Measured where
  | bootRom
  | firmware (version : W16)
  | fuses (rollback : Nat)
  | bringup (word : W64)
  deriving DecidableEq, Repr

/-- An algorithm that the device offers in the ExtAsym field: LMS with SHA-256 (R425). -/
inductive ExtAsym where
  | lmsSha256
  deriving DecidableEq, Repr

/-- An SPDM answer (R425): its code, what it offers and what its measurements cover, and its bytes, which the manual leaves to the
protocol and the firmware. -/
structure SpdmAnswer where
  code : Nat
  offers : List ExtAsym := []
  covers : List Measured := []
  bytes : List Byte
  deriving DecidableEq, Repr

/-- What something that leaves the module is: a read of some bytes, a write, an atomic with its operation code and the value
that ACAS compares with, words of a weir stream, an answer (R162, R322, R419, R420). -/
inductive OutKind where
  | read (len : Nat)
  | write
  | atomic (op : Nat) (c : W64)
  | words
  | answer
  deriving DecidableEq, Repr

/-- What leaves the module: an access or weir words through peer port 0 to 7, with the sender's TOPINF for the remote check of
R101; a read of host memory, at its host address (8); an answer to the host (9) or to a peer (10 + port), with its poison
mark. -/
structure Out where
  port : Nat
  kind : OutKind
  addr : Nat
  bytes : List Byte
  topinf : Bool := false
  poison : Bool := false
  deriving DecidableEq, Repr

/-- What the next step does when State names it: which thread issues, which event happens, how far time advances. -/
inductive Choice where
  | issue (core slot : Nat)
  | event (i : Instr)
  | tick (n : Nat)
  | dispatcher (core : Nat)
  deriving DecidableEq, Repr

/-- Who acts: the core and slot whose instruction runs, the word it runs, and the bundle it came from (R343). -/
structure Cur where
  core : Nat := 0
  slot : Nat := 0
  word : W32 := 0
  bundle : Option Bundle := none
  /-- The address that a branch has set, if the running instruction branched. -/
  npc : Option W64 := none
  deriving DecidableEq, Repr

/-- The module. -/
structure State where
  /-- The interleaving, as plain data: choices for the next steps; when none is left, the model's own order. -/
  agenda : List Choice := []
  cur : Cur := {}
  /-- The model's own counter for free values (Config). -/
  free : Nat := 0
  /-- The model's own count of changes, by which parked threads are tried again (Wait.park). -/
  epoch : Nat := 0
  nextTid : Nat := 1
  nextId : Nat := 1
  cores : Map Core := []
  hubs : Map Hub := []
  dies : Map Die := []
  groups : Map Group := []
  /-- PDIRBASE by partition (R143). -/
  pdirbase : Map W64 := []
  -- Memory: bytes by physical address, words that are empty, lines that are absent with their holder, poisoned granules
  mem : List Host.Cell := []
  empty : List Nat := []
  absent : Map (Nat × Nat × Bool) := []
  poison : List Nat := []
  /-- Granules with a latent error: one wrong bit, or more (R399, R402). -/
  latent : Map Bool := []
  flights : List Flight := []
  msgs : Map Msg := []
  /-- Accesses of the host and of peers, and writes of the module's own devices, that wait in the queue of a frozen core or at an
  absent line (R412). -/
  ext : Map Ext := []
  -- Reference time (R421)
  time : Nat := 0
  /-- Fraction of a tick owed to TFREQ, in units of 2^-32, and ticks since the last slewed tick. -/
  tfrac : Int := 0
  tslew : Nat := 0
  tadj : W32 := 0
  tfreq : W32 := 0
  -- Management registers (R427, R80, R404, R406)
  level : Nat := 0
  fwok : Bool := false
  fwver : W16 := 0
  hmapsel : Nat := 0
  hmap : Map W64 := []
  pwrTrip : Bool := false
  pwrThrot : Bool := false
  watts : W16 := 0
  hostwin : W64 := 0
  hosterr : W32 := 0
  far : Map Far := []
  peer : Map Peer := []
  relCe : W32 := 0
  relUe : Nat := 0
  relRails : Nat := 0
  relLinkdn : Bool := false
  relDegr : Bool := false
  relUeev : Bool := false
  relRepl : Bool := false
  /-- Rails lost for good: link × 8 + rail; links 0 to 7 are the peer ports, links from 8 on die-to-die links (R403). -/
  lost : List Nat := []
  /-- Links on whose next flit two rails fail: 0 to 7 the peer ports, `dieLink` those between dies (R403). -/
  badFlits : List Nat := []
  /-- Cores mapped out in service (R405). -/
  mapout : List Nat := []
  mapoutReg : W64 := 0
  smpInterval : W32 := 0
  smpSeq : Nat := 0
  /-- The tick of the last pulse (R406). -/
  smpAt : Option Nat := none
  out : List Out := []
  spdm : List SpdmAnswer := []
  deriving DecidableEq, Repr

/-- The module right after reset (R452, R219, R203, R424 and the reset column of each register table): nothing listed. -/
def State.reset : State := {}

end Sys2Proof.Machine
end

