-- ==== Sys2Proof/Machine/Ops.lean ====
section
/-! DEFINITION. The named operations over the state: cores, slots and threads; memory at its homes with full/empty bits,
presence and poison; the home map; time; taking a trap and returning from one; channels that close; threads that end. -/

namespace Sys2Proof.Machine

/-- What a step of the machine answers. -/
abbrev Result := Host.Outcome State Fault Refusal

/-! ### Cores, slots, dies -/

/-- Core `c`. -/
def State.core (s : State) (c : Nat) : Core := look {} s.cores c
/-- Replaces core `c`. -/
def State.setCore (s : State) (c : Nat) (k : Core) : State := { s with cores := put s.cores c k }
/-- Changes core `c`. -/
def State.modCore (s : State) (c : Nat) (f : Core → Core) : State := s.setCore c (f (s.core c))
/-- Slot `k` of core `c`. -/
def State.slot (s : State) (c k : Nat) : Slot := look {} (s.core c).slots k
/-- Replaces slot `k` of core `c`. -/
def State.setSlot (s : State) (c k : Nat) (t : Slot) : State :=
  s.modCore c fun x => { x with slots := put x.slots k t }
/-- Changes slot `k` of core `c`. -/
def State.modSlot (s : State) (c k : Nat) (f : Slot → Slot) : State := s.setSlot c k (f (s.slot c k))
/-- The thread whose instruction runs. -/
def State.me (s : State) : Slot := s.slot s.cur.core s.cur.slot
/-- The core whose instruction runs. -/
def State.myCore (s : State) : Core := s.core s.cur.core
/-- Replaces the running thread. -/
def State.setMe (s : State) (t : Slot) : State := s.setSlot s.cur.core s.cur.slot t
/-- Die `d`. -/
def State.die (s : State) (d : Nat) : Die := look {} s.dies d
/-- Changes die `d`. -/
def State.modDie (s : State) (d : Nat) (f : Die → Die) : State := { s with dies := put s.dies d (f (s.die d)) }
/-- Cluster hub `h`, numbered by the bits [11:4] of its cores. -/
def State.hub (s : State) (h : Nat) : Hub := look {} s.hubs h
/-- Changes cluster hub `h`. -/
def State.modHub (s : State) (h : Nat) (f : Hub → Hub) : State := { s with hubs := put s.hubs h (f (s.hub h)) }
/-- Task `h` of core `c`. -/
def State.taskOf (s : State) (c h : Nat) : Task := look {} (s.core c).tasks h
/-- Changes task `h` of core `c`. -/
def State.modTask (s : State) (c h : Nat) (f : Task → Task) : State :=
  s.modCore c fun x => { x with tasks := put x.tasks h (f (look {} x.tasks h)) }
/-- Group `g`. -/
def State.group (s : State) (g : Nat) : Group := look {} s.groups g
/-- Changes group `g`. -/
def State.modGroup (s : State) (g : Nat) (f : Group → Group) : State := { s with groups := put s.groups g (f (s.group g)) }

/-- A core id names a core when its cluster field is below 36 (R5). -/
def coreExists (c : Nat) : Bool := decide (c < 4096) && decide (c / 16 % 64 < 36)
/-- The die of a core (R4). -/
def dieOf (c : Nat) : Nat := c / 1024
/-- The partition of a core: PARTID of its cluster hub (R409). -/
def State.partOf (s : State) (c : Nat) : Nat := (s.hub (c / 16)).partid

/-- A fresh free number. -/
def State.bump (s : State) : State := { s with free := s.free + 1 }

/-- The slots of a core that hold a thread of task `h`, ascending. -/
def State.threadsOf (s : State) (c h : Nat) : List Nat :=
  (upto 0 16).filter fun k => let t := s.slot c k; t.live && t.task == h

/-! ### Bit fields -/

/-- Bits `lo` to `lo + n - 1` of a doubleword, as a number. -/
def fieldN (v : W64) (lo n : Nat) : Nat := v.toNat / 2 ^ lo % 2 ^ n
/-- A number as a doubleword. -/
def w64 (n : Nat) : W64 := BitVec.ofNat 64 n
/-- A number as a word. -/
def w32 (n : Nat) : W32 := BitVec.ofNat 32 n
/-- A bit as a number. -/
def b2n (b : Bool) : Nat := if b then 1 else 0
/-- A doubleword's sign-extended low `n` bits. -/
def sextN (n : Nat) (x : Nat) : W64 := BitVec.ofInt 64 (toSigned n x)
/-- Keeps the bits of `v` that `mask` selects (R13). -/
def keep (v : W64) (mask : Nat) : W64 := v &&& w64 mask
/-- Bit `i` of a bit vector. -/
def bitAt {n : Nat} (v : BitVec n) (i : Nat) : Bool := v.getLsbD i
/-- Sets bit `i` of a bit vector to `b`. -/
def setBit {n : Nat} (v : BitVec n) (i : Nat) (b : Bool) : BitVec n :=
  if b then v ||| BitVec.ofNat n (2 ^ i) else v &&& ~~~ BitVec.ofNat n (2 ^ i)
/-- `a` limited to `m`. -/
def satAt (m a : Nat) : Nat := if m < a then m else a

/-! ### Memory -/

/-- The byte at a physical address; an unlisted byte reads zero (R452 for scratchpads and columns; a DESIGN CHOICE for
LPDDR-5X and far memory, assumption 3). -/
def readByte (m : List Host.Cell) (a : Nat) : Byte := look 0 m a
/-- Writes a byte, keeping the list canonical: rising addresses, no zero byte listed. -/
def writeByte (m : List Host.Cell) (a : Nat) (b : Byte) : List Host.Cell := if b = 0 then del m a else put m a b
/-- `n` bytes from address `a`. -/
def readBytes (m : List Host.Cell) (a n : Nat) : List Byte :=
  match n with
  | 0 => []
  | k + 1 => readByte m a :: readBytes m (a + 1) k
/-- Writes bytes from address `a` upward. -/
def writeBytes (m : List Host.Cell) (a : Nat) (l : List Byte) : List Host.Cell :=
  match l with
  | [] => m
  | b :: r => writeBytes (writeByte m a b) (a + 1) r
/-- The number that bytes make, lowest first (R9). -/
def leNat (l : List Byte) : Nat :=
  match l with
  | [] => 0
  | b :: r => b.toNat + 256 * leNat r
/-- Bytes `o` to `o + n - 1` of a record as a number. -/
def fieldAt (l : List Byte) (o n : Nat) : Nat := leNat ((l.drop o).take n)
/-- The `n` bytes of a number, lowest first (R9). -/
def natLe (n x : Nat) : List Byte :=
  match n with
  | 0 => []
  | k + 1 => BitVec.ofNat 8 x :: natLe k (x / 256)
/-- Canonical form of memory: addresses strictly rising and no zero byte. -/
def Memory.wf (m : List Host.Cell) : Bool :=
  match m with
  | [] => true
  | (a, x) :: r => decide (x ≠ 0) && (match r with | [] => true | (b, _) :: _ => decide (a < b)) && Memory.wf r

/-- The little-endian number of `n` bytes at `a`. -/
def State.loadN (s : State) (a n : Nat) : Nat := leNat (readBytes s.mem a n)

/-! ### Homes (R77 to R81) -/

/-- Scratchpad base and size, column base and size. -/
def scratchBase : Nat := 0x080000000000
/-- Column base (R77). -/
def columnBase : Nat := 0x0C0000000000
/-- Device windows (R77). -/
def deviceBase : Nat := 0x0E0000000000
/-- Far-memory base (R77). -/
def farBase : Nat := 0x040000000000

/-- The scratchpad address of a core's byte. -/
def scratchAddr (c off : Nat) : Nat := scratchBase + c * 0x80000 + off
/-- The column address of a core's byte. -/
def columnAddr (c off : Nat) : Nat := columnBase + c * 0x400000 + off

/-- What stands at a physical address (R77). -/
inductive Region where
  | lpddr | far (port off : Nat) | scratch (c off : Nat) | column (c off : Nat)
  | launch (hub off : Nat) | mgmt (off : Nat) | host (off : Nat) | peer (port : Nat) | reserved
  deriving DecidableEq, Repr

/-- The map of R77 and R419. -/
def regionOf (pa : Nat) : Region :=
  let m := pa / 2 ^ 48
  if m ≠ 0 then (if m ≤ 8 then .peer (m - 1) else .reserved)
  else if pa < 2 ^ 40 then .lpddr
  else if farBase ≤ pa ∧ pa < 0x080000000000 then .far ((pa - farBase) / 2 ^ 40) ((pa - farBase) % 2 ^ 40)
  else if scratchBase ≤ pa ∧ pa < scratchBase + 0x80000000 then
    .scratch ((pa - scratchBase) / 0x80000) ((pa - scratchBase) % 0x80000)
  else if columnBase ≤ pa ∧ pa < columnBase + 0x400000000 then
    .column ((pa - columnBase) / 0x400000) ((pa - columnBase) % 0x400000)
  else if deviceBase ≤ pa ∧ pa < deviceBase + 0x900000 then
    let n := (pa - deviceBase) / 0x10000
    .launch (n / 36 * 64 + n % 36) ((pa - deviceBase) % 0x10000)
  else if deviceBase + 0x40000000 ≤ pa ∧ pa < deviceBase + 0x60000000 then .mgmt (pa - deviceBase - 0x40000000)
  else if deviceBase + 0x80000000 ≤ pa ∧ pa < deviceBase + 0x100000000 then .host (pa - deviceBase - 0x80000000)
  else .reserved

/-- Whether bring-up serves a die (R424). -/
def State.served (s : State) (d : Nat) : Bool := decide (2 ≤ s.level) || (decide (1 ≤ s.level) && d == 0)

/-- Whether the home map holds a core's homes (R79). -/
def State.coreHome (s : State) (c : Nat) : Bool := coreExists c && s.served (dieOf c) && !s.mapout.contains c

/-- Bit of the supervisor's absence map for 1 GiB block `b` of LPDDR-5X, or 1024 + `b` of far memory (R80). -/
def State.blockAbsent (s : State) (b : Nat) : Bool := bitAt (look 0 s.hmap (b / 64)) (b % 64)

/-- Homes by number: cores, memory home nodes, cluster hubs, the management controller, the host window, peer ports. -/
def homeNode (n : Nat) : Nat := 0x10000 + n
/-- A cluster hub. -/
def homeHub (h : Nat) : Nat := 0x20000 + h
/-- The management controller. -/
def homeMgmt : Nat := 0x30000
/-- The host window. -/
def homeHost : Nat := 0x38000
/-- A peer port. -/
def homePeer (p : Nat) : Nat := 0x40000 + p

/-- The home of a physical address under the home map, or none (R79, R80). -/
def State.homeOf (s : State) (pa : Nat) : Option Nat :=
  match regionOf pa with
  | .lpddr => if s.level < 3 || s.blockAbsent (pa / 2 ^ 30) then none else some (homeNode (pa / 4096 % 32))
  | .far p off =>
    let f := look {} s.far p
    if s.level < 3 || !f.up || decide (f.gib * 2 ^ 30 ≤ off) || s.blockAbsent (1024 + (pa - farBase) / 2 ^ 30) then none
    else some (homeNode (pa / 4096 % 32))
  | .scratch c _ => if s.coreHome c then some c else none
  | .column c _ => if s.coreHome c then some c else none
  | .launch h _ => if s.served (h / 64) then some (homeHub h) else none
  | .mgmt _ => some homeMgmt
  | .host _ => if bitAt s.hostwin 0 && decide (1 ≤ s.level) then some homeHost else none
  | .peer p => if (look {} s.peer p).up && decide (2 ≤ s.level) then some (homePeer p) else none
  | .reserved => none

/-- Whether a home keeps full/empty bits: scratchpads and columns (R137). -/
def hasFe (pa : Nat) : Bool := match regionOf pa with | .scratch .. => true | .column .. => true | _ => false
/-- An address names memory: LPDDR-5X, far memory, a scratchpad or a column. -/
def inMemory (pa : Nat) : Bool :=
  match regionOf pa with
  | .lpddr => true
  | .far .. => true
  | .scratch .. => true
  | .column .. => true
  | _ => false
/-- Whether a home is a scratchpad. -/
def isScratch (pa : Nat) : Bool := match regionOf pa with | .scratch .. => true | _ => false

/-- Whether the word that holds `pa` is full. -/
def State.fullAt (s : State) (pa : Nat) : Bool := !s.empty.contains (pa / 4)
/-- Sets the word that holds `pa` full or empty. -/
def State.setFull (s : State) (pa : Nat) (b : Bool) : State :=
  { s with empty := if b then rmNat (pa / 4) s.empty else insNat (pa / 4) s.empty }
/-- Whether the line that holds `pa` is present; only scratchpad lines are ever absent (R137). -/
def State.present (s : State) (pa : Nat) : Bool := (find s.absent (pa / 64)).isNone

/-- The words that `n` bytes from `pa` touch. -/
def wordsOf (pa n : Nat) : List Nat := upto (pa / 4) ((pa + n - 1) / 4 + 1 - pa / 4)

/-- Sets full every word that a write touches where the home has such bits (R137). -/
def State.fillWords (s : State) (pa n : Nat) : State :=
  if hasFe pa then { s with empty := (wordsOf pa n).foldl (fun l w => rmNat w l) s.empty } else s

/-- Whether any granule of `n` bytes at `pa` is poisoned (R400). -/
def State.poisoned (s : State) (pa n : Nat) : Bool := s.poison.any fun g => decide (pa / 8 ≤ g) && decide (g ≤ (pa + n - 1) / 8)

/-- A write that covers a whole granule clears its poison mark; a narrower one leaves it (R400). -/
def State.clearPoison (s : State) (pa n : Nat) : State :=
  { s with poison := s.poison.filter fun g => !(decide (pa ≤ 8 * g) && decide (8 * g + 8 ≤ pa + n)),
           latent := s.latent.filter fun g => !(decide (pa ≤ 8 * g.1) && decide (8 * g.1 + 8 ≤ pa + n)) }

/-- Writes bytes at a home: the bytes, the poison marks, the full/empty bits (R137, R400). -/
def State.storeAt (s : State) (pa : Nat) (l : List Byte) : State :=
  ({ s with mem := writeBytes s.mem pa l }.clearPoison pa l.length).fillWords pa l.length

/-- Counts an event in every counter of a core that selects it (R408); `slot` is the slot it happens in, for an event that
counts per slot. -/
def State.countIn (s : State) (c : Nat) (ev : Nat) (slot : Option Nat) (by_ : Nat) : State :=
  let x := s.core c
  let bump (m : Map W64) (i : Nat) : Map W64 :=
    let q := look 0 x.pmsel i
    if bitAt q 8 && fieldN q 0 5 == ev && (match slot with | some k => bitAt q (16 + k) | none => true) then
      put m i (look 0 m i + w64 by_)
    else m
  if x.pmsel.isEmpty then s else s.setCore c { x with pmc := (upto 0 8).foldl bump x.pmc }

/-- Counts `n` corrections of errors in a core's registers, engine or mailboxes (R399, R408). -/
def State.corrected (s : State) (c n : Nat) : State := if n = 0 then s else { s with relCe := s.relCe + w32 n }.countIn c 25 none n

/-- Counts corrected errors at the cores that hold the granules (R408). -/
def State.countCorrected (s : State) (l : List (Nat × Bool)) : State :=
  l.foldl (fun s g => match g.2, regionOf (8 * g.1) with
    | false, .scratch c _ => s.countIn c 25 none 1
    | false, .column c _ => s.countIn c 25 none 1
    | _, _ => s) s

/-- Reads correct single-bit errors in place and count them; errors of more bits become poison (R399, R402). -/
def State.correct (s : State) (pa n : Nat) : State :=
  let hit := s.latent.filter fun g => decide (pa / 8 ≤ g.1) && decide (g.1 ≤ (pa + n - 1) / 8)
  if hit.isEmpty then s else
  let s := s.countCorrected hit
  { s with latent := s.latent.filter fun g => !(decide (pa / 8 ≤ g.1) && decide (g.1 ≤ (pa + n - 1) / 8)),
           relCe := s.relCe + w32 (hit.filter fun g => !g.2).length,
           relUeev := s.relUeev || hit.any fun g => g.2,
           poison := hit.foldl (fun l g => if g.2 then insNat g.1 l else l) s.poison }

/-! ### Time (R217, R422, R423) -/

/-- A clock of R6 in MHz by its code. -/
def clockMhz (f : Nat) : Nat := if f = 0 then 600 else if f = 1 then 900 else if f = 2 then 1200 else if f = 3 then 1500 else 1800

/-- CYC of a die (R217, R219, R423): the number of the cycle in progress; the last old cycle while a step stops the die. -/
def State.cyc (s : State) (d : Nat) : Nat :=
  let x := s.die d
  match x.stepping with
  | some (_, n) => n
  | none => if s.time < x.eTime then x.eCyc else x.eCyc + 1 + (s.time - x.eTime) * clockMhz x.freq / 1000

/-- NCYC (R217). -/
def State.ncyc (s : State) : Nat := s.time * 3 / 2

/-! ### Arrivals at a core (R412) -/

/-- Something that stood in the queue of a core is still to be performed: an access, a message, an arrival from outside the cores,
a write of a sluice or the next read or claim of its command, reads of a pattern command, a read of a thread's instruction, a read
of a walk. -/
def State.arrivalLives (s : State) (i : Nat) : Bool :=
  (s.flights.any fun f => f.id == i) || (find s.msgs i).isSome || (find s.ext i).isSome
    || (s.cores.any fun x => (x.2.pg.any fun q => q.id == i) || (x.2.slcmds.any fun q => (q.uid == i && !q.stopped) || q.pend.any fun w => w.id == i)
        || x.2.slots.any fun t => t.2.queued == some i)
    || s.hubs.any fun h => h.2.walks.any fun w => w.id == i

/-- What a core took first of all that reached it while it was frozen, and has not yet performed. -/
def State.firstArrival (s : State) (c : Nat) : Option Nat := (s.core c).arrivals.find? s.arrivalLives

/-- Core `c` performs what `src` sends to it: it is not frozen, and what reached it while it was has been performed; `id`
is the name of what arrives, if it has one (R412). -/
def State.takesArrival (s : State) (src c : Nat) (id : Option Nat) : Bool :=
  src == c || (!(s.core c).dbg.freeze && (match s.firstArrival c with | some i => id == some i | none => true))

/-- An arrival joins the queue of a frozen core, of 64 places; beyond them it stays on its way (R412). -/
def State.queueArrival (s : State) (c id : Nat) : State :=
  if !(s.core c).dbg.freeze || (s.core c).arrivals.contains id || decide (64 ≤ (s.core c).arrivals.length) then s
  else s.modCore c fun x => { x with arrivals := x.arrivals ++ [id] }

/-- An arrival leaves the queue, as its home takes it; it is counted there (R408, R412). -/
def State.takeArrival (s : State) (src c id : Nat) : State :=
  if src = c then s else
  let s := s.countIn c 23 none 1
  if (s.core c).arrivals.isEmpty then s else s.modCore c fun x => { x with arrivals := x.arrivals.filter fun i => i != id }

/-- A home takes what arrives under a name (R412). -/
def State.homeTakes (s : State) (src pa : Nat) (id : Option Nat) : Bool :=
  match s.homeOf pa with
  | some c => !decide (c < 4096) || s.takesArrival src c id
  | none => true
/-- A home takes what arrives (R412). -/
def State.homeOpen (s : State) (src pa : Nat) : Bool := s.homeTakes src pa none

/-- What cannot be performed yet joins the queue of its frozen home, or leaves it where its home is no longer frozen and its turn has
come: it is held at its line (R124, R412). -/
def State.arrives (s : State) (src pa id : Nat) : State :=
  match s.homeOf pa with
  | some c =>
    if ¬ c < 4096 ∨ c = src then s
    else if (s.core c).dbg.freeze then s.queueArrival c id
    else if s.firstArrival c = some id then s.modCore c fun x => { x with arrivals := x.arrivals.filter fun i => i != id }
    else s
  | none => s

/-- Counts what is performed at a home under a name, which leaves the home's queue (R408, R412). -/
def State.takeAt (s : State) (src pa id : Nat) : State :=
  match s.homeOf pa with
  | some c => if c < 4096 then s.takeArrival src c id else s
  | none => s

/-- Counts what an agent other than a thread has performed at a home: an arrival, where the home is a core's (R408). -/
def State.countArrival (s : State) (src pa : Nat) : State :=
  match s.homeOf pa with
  | some c => if c < 4096 ∧ c ≠ src then s.countIn c 23 none 1 else s
  | none => s

/-! ### Outside the module (R419, R420) -/

/-- The address that an access outside carries: HOSTWIN.BASE plus the offset in the host window, or the physical address. -/
def State.outsideAddr (s : State) (pa : Nat) : Nat :=
  match regionOf pa with
  | .host off => fieldN s.hostwin 31 21 * 2 ^ 31 + off
  | _ => pa

/-- The port that an access outside leaves by: a peer port, or 8 for the host. -/
def outsidePort (pa : Nat) : Nat := match regionOf pa with | .peer p => p | _ => 8

/-- A value that a read leaves the module for (R419, R420). -/
def State.outsideRead (s : State) (pa size : Nat) : Nat × State :=
  ((Config.freeW64 s.free).toNat % 2 ^ (8 * size),
   { s.bump with out := s.out ++ [{ port := outsidePort pa, kind := .read size, addr := s.outsideAddr pa, bytes := [] }] })

/-- Bytes that one read of any length leaves the module for. -/
def State.outsideBytes (s : State) (pa n : Nat) : List Byte × State :=
  ((upto 0 ((n + 7) / 8)).flatMap fun i => natLe (Nat.min 8 (n - 8 * i)) (Config.freeW64 (s.free + i)).toNat,
   { s with free := s.free + (n + 7) / 8,
            out := s.out ++ [{ port := outsidePort pa, kind := .read n, addr := s.outsideAddr pa, bytes := [] }] })

/-! ### Links (R403) -/

/-- The link between two dies. -/
def dieLink (a b : Nat) : Nat := 8 + 4 * Nat.min a b + Nat.max a b

/-- The die of a home, if it stands on one (R4, R78). -/
def homeDie (home : Nat) : Option Nat :=
  if home < 4096 then some (dieOf home)
  else if home < homeHub 0 then some ((home - homeNode 0) / 8)
  else if home < homeMgmt then some ((home - homeHub 0) / 64)
  else none

/-- The link that data between core `src` and the home of `pa` pass (R403). -/
def State.linkOf (s : State) (src pa : Nat) : Option Nat :=
  match regionOf pa with
  | .peer p => some p
  | _ =>
    match (s.homeOf pa).bind homeDie with
    | some d => if src < 4096 ∧ dieOf src ≠ d then some (dieLink (dieOf src) d) else none
    | none => none

/-- Whether data that pass a link come poisoned: two rails of their flit have failed (R403); and the state after the flit. -/
def State.crossLink (s : State) (link : Option Nat) : Bool × State :=
  match link with
  | none => (false, s)
  | some l => if s.badFlits.contains l then (true, { s with badFlits := s.badFlits.erase l }) else (false, s)

/-- Poisons every granule that bytes touch (R400). -/
def State.addPoison (s : State) (pa n : Nat) : State :=
  { s with poison := (upto (pa / 8) ((pa + n - 1) / 8 + 1 - pa / 8)).foldl (fun l g => insNat g l) s.poison }

/-! ### Messages -/

/-- Sends a message. -/
def State.send (s : State) (m : Msg) : State := { s with msgs := put s.msgs s.nextId m, nextId := s.nextId + 1 }

/-- Sends messages in order. -/
def State.sendAll (s : State) (l : List Msg) : State := l.foldl State.send s

/-! ### Channels that close, threads that end -/

/-- The thread executes a channel's stream: attached, and neither in a trap handler nor in a queue handler (R343, R349). -/
def Slot.inStream (t : Slot) : Bool := t.chState == 2 && !t.trapped && !t.qinh

/-- The address at which a thread goes on: after its bundle for an attached subscriber, else the next word (R343). -/
def Slot.next (t : Slot) : Slot :=
  if t.inStream then
    match t.chBuf with
    | b :: r => { t with chBuf := r, pc := b.target.getD (b.pc + 4), chAt := none }
    | [] => { t with pc := t.pc + 4 }
  else { t with pc := t.pc + 4 }

/-- Publishes a bundle to every attached subscriber (R338, R341). -/
def State.publish (s : State) (c : Nat) (b : Bundle) : State :=
  (s.core c).chan.subs.foldl
    (fun s x => s.modSlot x.1 x.2.1 fun t => if t.tid = x.2.2 && t.chState = 2 then { t with chFly := t.chFly ++ [b] } else t) s

/-- Keeps the last 64 retired PCs (R414). -/
def retireList (l : List W64) (pc : W64) : List W64 := (pc :: l).take 64

/-- A trailing thread of a pair. -/
def Slot.trails (t : Slot) : Bool := match t.role with | .trailing _ => true | _ => false

/-- The thread publishes what it issues: a publisher outside its trap handler (R341, R348); of a pair, the leading thread. -/
def Slot.publishes (t : Slot) : Bool := t.chState == 1 && !t.trapped && !t.trails

/-- The entries that an instruction has read leave the heads of their input ports as it completes (R207). -/
def State.takeHeads (s : State) (c : Nat) (l : List Nat) : State :=
  if l.isEmpty then s else
  s.modCore c fun x => { x with ports := l.foldl (fun m n => let p := look {} m n; put m n { p with here := p.here.drop 1 }) x.ports }

/-- Writes s[d] of a thread and sets it full; s0 keeps reading zero (R199, R201). -/
def Slot.putS (t : Slot) (d : Nat) (v : W64) : Slot :=
  if d = 0 then t else { t with sr := put t.sr d v, sFull := setBit t.sFull d true, sPoison := setBit t.sPoison d false, sErr := setBit t.sErr d false }

/-- The register fills in a pair's load-value queue that come next after `n` completed instructions (R397). -/
def LvEnt.due (n : Nat) (e : LvEnt) : Bool := match e.at_ with | some a => decide (a ≤ n) | none => false

/-- A trailing thread takes the register fills that its leading thread had taken when it stood at the same instruction (R397). -/
def State.landFills (s : State) (c lead : Nat) : State :=
  let l := s.slot c lead
  match l.role with
  | .leading j =>
    if (l.lvq.any (LvEnt.due (s.slot c j).count)) = false then s else
    let due := l.lvq.filter (LvEnt.due (s.slot c j).count)
    (s.setSlot c lead { l with lvq := l.lvq.filter fun e => !e.due (s.slot c j).count }).modSlot c j fun t =>
      due.foldl (fun t e => t.putS (e.key.toNat % 64) ((e.vals.getD []).headD 0)) t
  | _ => s

/-- The fills of a trailing thread's pair are looked at. -/
def State.landMine (s : State) (c k : Nat) : State := match (s.slot c k).role with | .trailing j => s.landFills c j | _ => s

/-- Moves a thread past the instruction that it has completed: the port entries that it took, its next address and the
retired PCs (R207, R414). -/
def State.retire (s : State) (c k : Nat) (target : Option W64) : State :=
  let s := s.takeHeads c (s.slot c k).pops
  let t := s.slot c k
  let u := { t.next with retired := retireList t.retired t.pc, count := t.count + 1, ins := [], wait := Wait.run, walkRes := [], missed := none, queued := none, agreed := false, rdv := none, wip := none, pops := [] }
  (s.setSlot c k (match target with
    | some a => if t.inStream then u else { u with pc := a }
    | none => u)).landMine c k

/-- Moves a thread past its instruction, and publishes the bundle when it is a publisher (R341). -/
def State.passed (s : State) (c k : Nat) (word : W32) (target : Option W64) : State :=
  let t := s.slot c k
  let s := s.retire c k target
  if t.publishes then s.publish c { word := word, pc := t.pc, target := target } else s

/-- Completes the instruction that a thread waits in: its registers by `f`, then on past it. -/
def State.complete (s : State) (c k : Nat) (f : Slot → Slot) : State := (s.modSlot c k f).passed c k (s.slot c k).word none

/-- The key of a fill of s[n] in a pair's load-value queue; that of a value that entered by s[n] as a queue port; that of the status
of a channel instruction into s[n]. -/
def fillKey (n : Nat) : W64 := w64 (2 ^ 60 + n)
/-- The key of a queue port. -/
def portKey (n : Nat) : W64 := w64 (2 ^ 60 + 0x400 + n)
/-- The key of a channel instruction's status. -/
def chanKey (n : Nat) : W64 := w64 (2 ^ 60 + 0x500 + n)

/-- A reserved place of a load-value queue takes its value; where none is reserved, a new entry (R397). -/
def lvSettle (l : List LvEnt) (key : W64) (v : List W64) : List LvEnt :=
  match l with
  | [] => [{ key := key, vals := some v }]
  | e :: r => if e.key = key ∧ e.flight.isNone ∧ e.vals.isNone then { e with vals := some v } :: r else e :: lvSettle r key v

/-- A value from outside enters a leading thread's load-value queue, at the place that its instruction reserved (R397). -/
def Slot.lvNote (t : Slot) (key v : W64) : Slot :=
  match t.role with
  | .leading _ => { t with lvq := lvSettle t.lvq key [v] }
  | _ => t

/-- A register fill enters a leading thread's load-value queue (R397). -/
def Slot.lvFilled (t : Slot) (n : Nat) (v : W64) : Slot :=
  match t.role with
  | .leading _ => { t with lvq := t.lvq ++ [{ key := fillKey n, vals := some [v], at_ := some t.count }] }
  | _ => t

/-- Closes the channel of a core (R341): a close marker, after which subscribers go on at `pc`, to every subscriber; waiting
and rejoining threads learn of it (R342, R347). -/
def State.closeChannel (s : State) (c : Nat) (pc : W64) : State :=
  let ch := (s.core c).chan
  if !ch.open_ then s else
  let s := s.publish c { word := 0, pc := pc, close := true }
  let s := ch.joining.foldl (fun s x =>
    let t := s.slot x.1 x.2.1
    match t.wait with
    | .busy _ (.chsub d) => if t.tid = x.2.2 then s.complete x.1 x.2.1 fun t => { (t.putS d 1).lvNote (chanKey d) 1 with chState := 0 } else s
    | _ => s) s
  let s := ch.subs.foldl (fun s x =>
    let t := s.slot x.1 x.2.1
    match t.wait with
    | .busy _ (.chresub d) => if t.tid = x.2.2 then s.complete x.1 x.2.1 fun t => { (t.putS d 1).lvNote (chanKey d) 1 with chState := 0, chTag := 0 } else s
    | _ => s) s
  let s := s.modCore c fun x => { x with chan := {} }
  s.modSlot c ch.slot fun t => if t.tid = ch.tid then { t with chState := 0, rdv := none } else t

/-- Removes a subscriber from the channel it subscribed to: its buffer is discarded, its hold drops, and DEP falls when its
departure was counted (R342). -/
def State.unsubscribe (s : State) (c k : Nat) : State :=
  let t := s.slot c k
  let s := s.modCore t.chChan fun x => { x with chan := { x.chan with
    subs := x.chan.subs.filter fun y => !(y == (c, k, t.tid)),
    joining := x.chan.joining.filter fun y => !(y == (c, k, t.tid)),
    relock := x.chan.relock.filter fun y => y != (c, k),
    holds := x.chan.holds.filter fun y => !(y == (c, k, t.tid)),
    rejoin := x.chan.rejoin.filter fun y => !(y.1 == c && y.2.1 == k && y.2.2.1 == t.tid),
    dep := if x.chan.subs.contains (c, k, t.tid) ∧ (t.chState = 4 ∨ t.chState = 5) ∧ ¬ t.chReports.contains 4 then x.chan.dep - 1 else x.chan.dep } }
  s.modSlot c k fun t => { t with chState := 0, chTag := 0, chFly := [], chBuf := [], chHold := false, chReports := [], chAt := none }

/-- Detaches or closes whatever channel a thread takes part in (R341, R343).  A publisher's subscribers go on at the
instruction that the publisher has not completed: the one it stands at, or the one that its handler would return to. -/
def State.leaveChannel (s : State) (c k : Nat) : State :=
  let t := s.slot c k
  if t.trails then s.modSlot c k fun t => { t with chState := 0 }
  else if t.chState = 1 then s.closeChannel c ((if t.trapped then t.epc else t.pc) &&& ~~~ (3 : W64))
  else if t.chState = 0 then s else s.unsubscribe c k

/-- A thread leaves the lists of those that wait for a mailbox. -/
def State.leaveMail (s : State) (c tid : Nat) : State :=
  s.modCore c fun x => { x with mailWait := x.mailWait.filter fun w => w.2.2 != tid }

/-- The slot once its thread has gone: what belongs to the slot stays, its batches and its retired PCs; a quiesce mark
clears (R389). -/
def Slot.vacated (t : Slot) : Slot := { tid := t.tid, retired := t.retired, bat := t.bat, lastCyc := t.lastCyc }

/-- The other member of a thread's pair (R397). -/
def Slot.partner (t : Slot) : Option Nat :=
  match t.role with
  | .single => none
  | .leading j => some j
  | .trailing j => some j

/-- No thread of the task of slot `k` is left but that slot's and, for a pair, its partner's. -/
def State.lastOf (s : State) (c k : Nat) : Bool :=
  (s.threadsOf c (s.slot c k).task).all fun j => j == k || (s.slot c k).partner == some j

/-- The least of some numbers. -/
def leastOf (l : List Nat) : Option Nat := match l with | [] => none | a :: r => some (leastOr a r)

/-- The words that the wait table of a core home has entries for (R160).  DESIGN CHOICE: a wait on a doubleword has one entry, under
its first word; the manual does not say under which of the two it stands (log entry 63). -/
def State.tableWords (s : State) (home : Nat) : List Nat :=
  ((s.flights.filter fun f => s.homeOf f.pa == some home && (match f.stage with | .waiting _ o => !o | _ => false)).map fun f => f.pa / 4).eraseDups

/-- The wait at the head of the overflow queue of a core home: the first that registered (R160). -/
def State.overflowHead (s : State) (home : Nat) : Option Nat :=
  leastOf (s.flights.filterMap fun f => if s.homeOf f.pa == some home then (match f.stage with | .waiting o true => some o | _ => none) else none)

/-- Waits move from the head of the overflow queue into the table while entries are free (R160). -/
def State.drainOverflow (s : State) (home fuel : Nat) : State :=
  match fuel with
  | 0 => s
  | n + 1 =>
    match (if (s.tableWords home).length < 256 then s.overflowHead home else none) with
    | none => s
    | some o =>
      let move (f : Flight) : Flight := if f.stage = .waiting o true ∧ s.homeOf f.pa = some home then { f with stage := .waiting o false } else f
      State.drainOverflow { s with flights := s.flights.map move } home n

/-- After a table entry of a home frees, waits move in from the overflow queue (R160). -/
def State.rebalance (s : State) (home : Nat) : State :=
  s.drainOverflow home (s.flights.filter fun f => match f.stage with | .waiting _ o => o | _ => false).length

/-- An access that goes with its thread: one that waits at its home for a full/empty state, for presence with the thread
parked on it, or for a barrier (R161), or one that a comparator still holds back (R397). -/
def Flight.withdrawn (f : Flight) : Bool :=
  match f.op, f.stage with
  | _, .held => true
  | .ldSync .., .returning .. => false
  | .ldSync .., _ => true
  | .stfe _, _ => true
  | .barwait _, _ => true
  | _, .waiting .. => true
  | _, _ => false

/-- Withdraws the accesses of a thread that go with it; their homes' tables take waits from their overflow queues (R160,
R161). -/
def State.withdraw (s : State) (tid : Nat) : State :=
  let gone := s.flights.filter fun f => f.tid == tid && f.withdrawn
  (gone.filterMap fun f => s.homeOf f.pa).eraseDups.foldl State.rebalance
    { s with flights := s.flights.filter fun f => !(f.tid == tid && f.withdrawn) }

/-- Abandons a pattern generator command: what it has not yet written stays unwritten (R290). -/
def State.dropPattern (s : State) (c id : Nat) : State :=
  let ids := ((s.core c).pg.filter fun q => q.id == id).flatMap PgCmd.flights
  { s with flights := s.flights.filter fun f => !ids.contains f.id }.modCore c fun x => { x with pg := x.pg.filter fun q => q.id != id }

/-- What a thread waits for beside its accesses goes with it: a record not yet accepted, a pattern command, a group not yet
open, its place in the list of a g register (R161). -/
def State.dropBusy (s : State) (c k : Nat) : State :=
  let t := s.slot c k
  match t.wait with
  | .busy _ (.place n) => { s with msgs := del s.msgs n }
  | .busy _ (.pattern id) => s.dropPattern c id
  | .busy _ (.rgopen g) => s.modGroup g fun x => if x.open_ then x else {}
  | .busy _ .shared => s.modCore c fun x => { x with gWait := x.gWait.filter fun w => w.tid != t.tid }
  | _ => s

/-! ### Batches (R126, R127) -/

/-- DONE advances past every sealed batch that holds nothing, in seal order (R126). -/
def Batches.advance (b : Batches) (fuel : Nat) : Batches :=
  match fuel with
  | 0 => b
  | n + 1 => if b.done = b.openN ∨ look 0 b.counts b.done.toNat ≠ 0 then b else Batches.advance { b with done := b.done + 1 } n

/-- Counts a request or command into a batch. -/
def Batches.add (b : Batches) (n : Nat) : Batches := { b with counts := put b.counts n (look 0 b.counts n + 1) }
/-- A request or command leaves its batch. -/
def Batches.sub (b : Batches) (n : Nat) : Batches :=
  let c := look 0 b.counts n
  Batches.advance { b with counts := if c ≤ 1 then del b.counts n else put b.counts n (c - 1) } 65
/-- Changes the batches of slot `k` that thread `tid` uses, or used last: BSTATn stays with its slot when the thread has gone,
until another thread starts there (R127, R380). -/
def State.modBat (s : State) (c k tid : Nat) (f : Batches → Batches) : State :=
  s.modSlot c k fun t => if t.tid == tid then { t with bat := f t.bat } else t

/-- A failure enters BSTAT: FBATCH and STATUS keep the first one since FAILED was last cleared (R127).  DESIGN CHOICE: where a
program has cleared FAILED after a failure whose command is then discarded, the discard is the first failure since, and
writes FBATCH and STATUS. -/
def Batches.fail (b : Batches) (batch : W16) (status : Nat) : Batches :=
  if b.failed then b else { b with failed := true, fbatch := batch, status := BitVec.ofNat 4 status }

/-- What an SLQUIESCE or SLRESUME that slot 15 waited in counts leaves its batch, and what it latched goes (R111, R126). -/
def State.slUncount (s : State) (c : Nat) : State :=
  match (s.core c).slHold with
  | some r => (s.modBat c r.slot r.tid fun b => b.sub r.batch.toNat).modCore c fun x => { x with slHold := none, slWalk := none }
  | none => s

/-- COPYFAULTs and MERGEFAULTs that wait for a thread which has gone pass to the task's thread in the lowest slot; where none
is left, the task's reply carries the cause (R380). -/
def State.passPosts (s : State) (c h : Nat) (copy merge : List Post) : State :=
  if copy.isEmpty && merge.isEmpty then s else
  match (s.threadsOf c h).find? fun k => (s.slot c k).wait != .dumping with
  | some k => s.modSlot c k fun t => { t with pendCopy := t.pendCopy ++ copy, pendMerge := t.pendMerge ++ merge }
  | none => s.modTask c h fun t => { t with endStatus := if copy.isEmpty then 0x15 else 0x0D }

/-- A slot loses its thread: its channel closes or loses it, its place in the mailbox lists goes, and what belongs to the slot
stays (R341, R368). -/
def State.vacate (s : State) (c k : Nat) : State :=
  let t := s.slot c k
  let s := s.leaveChannel c k
  let s := s.leaveMail c t.tid
  let s := if k = 15 then (s.slUncount c).modCore c fun x => { x with slMail := x.slMail.filter fun m => m.1.1 != t.tid } else s
  (s.modSlot c k Slot.vacated).passPosts c t.task t.pendCopy t.pendMerge

/-- Frees a slot (R368): its channel closes; the task has ended its last thread when none is left.  The other member of a
pair goes with it, its waits withdrawn (R401). -/
def State.freeSlot (s : State) (c k : Nat) : State :=
  let t := s.slot c k
  let s := s.vacate c k
  let s := match t.partner with
    | none => s
    | some j => ((s.dropBusy c j).withdraw (s.slot c j).tid).vacate c j
  if (s.threadsOf c t.task).isEmpty then s.modTask c t.task fun x => { x with ending := true } else s

/-- A thread's waits go as it ends or dies (R161, R378, R401). -/
def State.dropWaits (s : State) (c k : Nat) : State := (s.dropBusy c k).withdraw (s.slot c k).tid

/-- Kills a thread that consumed poison (R401): its waits are withdrawn, what it sent still performs, its registers go, the
slot is free, and a last thread's task replies KILLED. -/
def State.kill (s : State) (c k : Nat) : State :=
  let s := { s.dropWaits c k with relUe := satAt 255 (s.relUe + 1) }
  let s := s.modTask c (s.slot c k).task fun x => { x with killed := true }
  s.freeSlot c k

/-! ### Traps (R376 to R381) -/

/-- SLSTS (R135): running and stopped commands, quiesced slots, the lowest stopped number. -/
def State.slsts (s : State) (c : Nat) : W64 :=
  let x := s.core c
  let stopped := x.slcmds.filter SlCmd.stopped
  let mask := (upto 0 16).foldl (fun a k => if (s.slot c k).quiesced then a + 2 ^ k else a) 0
  w64 (satAt 15 (x.slcmds.length - stopped.length) + satAt 15 stopped.length * 16 + (if mask = 0 then 0 else 256)
    + (match stopped.map SlCmd.num with | [] => 0 | a :: l => leastOr a l) * 2 ^ 16 + mask * 2 ^ 24)

/-- BSTATn (R127). -/
def bstatWord (b : Batches) : W64 :=
  w64 (b.openN.toNat * 2 ^ 48 + b.done.toNat * 2 ^ 32 + b.fbatch.toNat * 2 ^ 16 + (if b.failed then 2 ^ 15 else 0)
    + (if b.disc then 2 ^ 14 else 0) + b.flags.toNat * 16 + b.status.toNat)

/-- The lowest slot that holds a thread of a task. -/
def State.lowestOf (s : State) (c h : Nat) : Option Nat := (s.threadsOf c h).head?

/-- The thread that an FMTMISMATCH record goes to: the owner of the register, or the task's thread in the lowest slot. -/
def State.fmtTarget (s : State) (c h : Nat) (r : W64 × W64 × Option Nat) : Option Nat :=
  match r.2.2 with
  | some k => some k
  | none => s.lowestOf c h

/-- The first FMTMISMATCH record for a thread. -/
def State.fmtFor (s : State) (c k : Nat) : Option (W64 × W64 × Option Nat) :=
  let h := (s.slot c k).task
  (s.taskOf c h).fmtq.find? fun r => s.fmtTarget c h r == some k

/-- EPEND (R377). -/
def State.epend (s : State) (c k : Nat) : W64 :=
  let t := s.slot c k
  w64 (b2n (s.fmtFor c k).isSome + 2 * b2n (!t.pendCopy.isEmpty) + 4 * b2n t.pendPre.isSome + 8 * b2n (!t.pendMerge.isEmpty))

/-- Starts a dump of a slot (R414): its trigger is dropped while one runs. -/
def State.startDump (s : State) (c k : Nat) (ended : Bool) (fault : List W64) : State :=
  let x := s.core c
  match x.dump with
  | some _ => s.setCore c { x with dumpDropped := satAt 255 (x.dumpDropped + 1) }
  | none =>
    let t := s.slot c k
    let held := x.slcmds.filter fun q => q.task == t.task && !q.stopped
    let objs := (held.filter fun q => q.fl % 2 == 1 && decide (q.cmd ≤ 8)).map fun q => look 0 q.desc 6
    s.setCore c { x with dump := some { slot := k, taskN := t.task, ended := ended, cmds := held.map SlCmd.uid, objs := objs,
                                          bstat := bstatWord t.bat, slsts := s.slsts c, epend := s.epend c k, fault := fault } }

/-- A thread ends as QUIT does, with a cause that its task's reply carries when it was the last (R378); a dump starts first
where the core's dumps are enabled, and holds the slot (R414). -/
def State.endThread (s : State) (c k : Nat) (cause : Nat) (pc addr st : W64) : State :=
  let t := s.slot c k
  let s := if s.lastOf c k then s.modTask c t.task fun x => { x with endStatus := cause } else s
  let s := s.dropWaits c k
  if bitAt (s.core c).dumpcfg 0 ∧ (s.core c).dump.isNone then
    let fault := [w64 cause, pc, addr, (st &&& ~~~ w64 (2 ^ 32)) ||| (if t.privS then w64 (2 ^ 32) else 0), w64 (t.act.toNat + t.hlp.toNat * 2 ^ 16)]
    (s.startDump c k true fault).modSlot c k fun t => { t with wait := .dumping }
  else
    let s := if bitAt (s.core c).dumpcfg 0 then s.startDump c k true [] else s
    s.freeSlot c k

/-- A record enters the encoder's FIFO of 16, after a record of those lost before it; where it does not fit it is lost
(R413). -/
def Dbg.traced (d : Dbg) (r : W64) : Dbg :=
  let l := d.btfifo ++ (if d.btlost = 0 then [] else [w64 (3 * 2 ^ 62 + d.btlost % 2 ^ 55)]) ++ [r]
  if l.length ≤ 16 then { d with btfifo := l, btlost := 0 } else { d with btlost := d.btlost + 1 }

/-- A branch-trace record, when the encoder is on (R413). -/
def State.trace (s : State) (c k kind : Nat) (pc : W64) : State :=
  if bitAt (s.core c).dbg.btbase 0 then
    s.modCore c fun x => { x with dbg := x.dbg.traced (w64 (kind * 2 ^ 62 + k * 2 ^ 58 + fieldN pc 2 55)) }
  else s

/-- Trap entry (R378): EPC, ECAUSE, EADDR, ESTAT with PPRIV, ESMASK from DSMASK, all lanes active, privilege S, PC at EVEC;
with EVEC = 0 the thread ends instead. -/
def State.trapEntry (s : State) (c k : Nat) (cause : Nat) (pc addr st : W64) : State :=
  let s := if k = 15 then s.slUncount c else s
  let t := s.slot c k
  let s := s.leaveMail c t.tid
  if t.evec = 0 then s.endThread c k cause pc addr st
  else
    (s.setSlot c k { t with
      epc := pc, ecause := w64 cause, eaddr := addr,
      estat := (st &&& ~~~ w64 (2 ^ 32)) ||| (if t.privS then w64 (2 ^ 32) else 0),
      esA := t.act, esH := t.hlp, act := 0xFFFF, hlp := 0,
      privS := true, pc := t.evec, wait := .run, trapped := true, entering := true, walkRes := [], missed := none, queued := none, agreed := false, rdv := none, wip := none, pops := [],
      cmp := t.cmp.filter fun e => !(e.stands && !e.agreed),
      chAt := if t.chState = 2 ∧ t.chAt.isNone then some pc else t.chAt }).trace c k 1 pc

/-- The return from a trap (R381): the privilege of PPRIV, DSMASK from ESMASK, PC from EPC; an attached subscriber that
returns to the bundle it trapped on stays attached, otherwise it detaches (R349). -/
def State.trapReturn (s : State) (c k : Nat) : State :=
  let t := s.slot c k
  let pc := t.epc &&& ~~~ (3 : W64)
  let s := s.setSlot c k { t with privS := bitAt t.estat 32, act := t.esA, hlp := t.esH, pc := pc, wait := .run, trapped := false,
                                  retired := retireList t.retired t.pc }
  let s := if t.chState = 2 then
      (if t.chAt = some pc then s.modSlot c k fun x => { x with chAt := none } else s.unsubscribe c k)
    else s
  s.trace c k 2 pc

/-! ### The running instruction -/

/-- How an instruction ends other than by completing at once. -/
inductive Stop where
  /-- It parks, with a run state of R328, and re-executes. -/
  | park (code : Nat)
  /-- It traps (R15, R378): cause, EADDR, ESTAT. -/
  | trap (cause : Nat) (addr stat : W64)
  /-- It waits for an event that completes it: the state with what it has done so far. -/
  | busy (s : State) (code : Nat) (b : Busy)
  /-- The state is final: the thread has moved on by the instruction's own rule. -/
  | fin (s : State)
  /-- It read a poisoned register: the thread dies before the instruction has any effect (R400). -/
  | kill
  /-- A data access missed the translation buffer: address space, root and what the walk is asked for (R76). -/
  | miss (asp : Nat) (root : W64) (w : Want)
  /-- It leaves this change alone, to the state before it, and is tried again. -/
  | retry (code : Nat) (f : State → State)
  /-- It read a control entry at the head of an input port (R374). -/
  | control (port : Nat)
  /-- A read that it makes waits for its turn at the home of `pa` (R412). -/
  | arrive (pa code : Nat)

/-- The meaning of an instruction: a computation on the state that may stop. -/
abbrev M := StateT State (Except Stop)

/-- The running thread. -/
def getMe : M Slot := fun s => .ok (s.me, s)
/-- Changes the running thread. -/
def modMe (f : Slot → Slot) : M Unit := fun s => .ok ((), s.setMe (f s.me))
/-- The running core. -/
def getCore : M Core := fun s => .ok (s.myCore, s)
/-- Changes the running core. -/
def modMyCore (f : Core → Core) : M Unit := fun s => .ok ((), s.modCore s.cur.core f)
/-- Parks (R15). -/
def parkM {α : Type} (code : Nat) : M α := fun _ => .error (.park code)
/-- Parks with reason register. -/
def parkReg {α : Type} : M α := parkM 3
/-- Traps (R15). -/
def trapM {α : Type} (cause : Nat) (addr stat : W64) : M α := fun _ => .error (.trap cause addr stat)
/-- Traps with RESOURCE and a code (R379). -/
def resource {α : Type} (code : Nat) : M α := trapM 0x16 0 (w64 code)
/-- Waits for an event. -/
def busyM {α : Type} (code : Nat) (b : Busy) : M α := fun s => .error (.busy s code b)
/-- Ends with the state as it stands. -/
def finM {α : Type} : M α := fun s => .error (.fin s)
/-- The running thread consumes poison: it dies, in a state where the home has done its part (R400, R401). -/
def dieM {α : Type} : M α := fun s => .error (.fin (s.kill s.cur.core s.cur.slot))
/-- Applies a change of the state. -/
def doM (f : State → State) : M Unit := fun s => .ok ((), f s)
/-- Reads something of the state. -/
def askM {α : Type} (f : State → α) : M α := fun s => .ok (f s, s)
/-- Traps with PRIV at U (R48); EADDR holds the word. -/
def needS : M Unit := fun s => if s.me.privS then .ok ((), s) else .error (.trap 2 (w64 s.cur.word.toNat) 0)
/-- Traps with ILLEGAL (R49). -/
def illegalM {α : Type} : M α := fun s => .error (.trap 1 (w64 s.cur.word.toNat) 0)
/-- Stops unless a condition holds. -/
def need (b : Bool) (e : M Unit) : M Unit := if b then pure () else e

/-- The running thread's read joins the queue of its home (R412), and the thread waits. -/
def State.queueRead (s : State) (c k pa code : Nat) : State :=
  let id := (s.slot c k).queued.getD s.nextId
  { s with nextId := Nat.max s.nextId (id + 1) }.arrives c pa id |>.modSlot c k fun t => { t with wait := .park code s.epoch, queued := some id }

/-- Parks the running thread after a change that its instruction has made; it is tried again. -/
def State.tryAgain (s : State) (code : Nat) : State := { s.setMe { s.me with wait := .park code s.epoch } with epoch := s.epoch + 1 }

/-- The head entry of a port, read as data: how an instruction's parking checks see it (R374). -/
def Core.plainHead (n : Nat) (x : Core) : Core :=
  let p := look {} x.ports n
  match p.here with
  | e :: r => { x with ports := put x.ports n { p with here := { e with ctl := false } :: r } }
  | [] => x

/-- A read of a control entry enters the port's handler: the entry leaves, QCVAL, QRPC and QHST are set, and the thread
goes on at QHDLn (R374). -/
def State.queueHandler (s : State) (c k n : Nat) : State :=
  let p := look {} (s.core c).ports n
  match p.here with
  | e :: r =>
    (s.modCore c fun x => { x with ports := put x.ports n { p with here := r } }).modSlot c k fun t =>
      { t with qcval := e.val, qrpc := t.pc, qinh := true, qport := BitVec.ofNat 2 n, pc := look 0 t.qhdl n &&& ~~~ (3 : W64) }
  | [] => s

/-- A walk in flight that a miss may join: the same address space and 64 KiB page, and not overtaken by a TLBINV (R74, R75). -/
def Walk.serves (w : Walk) (asp page : Nat) : Bool := w.asp == asp && w.page == page && !w.stale

/-- Whether a waiter of core `c` already waits on a walk of a page, in flight or queued. -/
def State.walking (s : State) (c w asp page : Nat) : Bool :=
  let h := s.hub (c / 16)
  (h.walks.any fun k => k.serves asp page && k.waiters.contains (c, w)) ||
    (h.fifo.any fun q => q.asp == asp && q.want.page == page && q.waiter == (c, w))

/-- A miss at a walker joins the walk in flight for its page, takes a free engine, or waits in the FIFO; none when that is
full (R74).  A new walk takes the name `id`. -/
def Hub.takeMiss (h : Hub) (m : QMiss) (id : Nat) : Option Hub :=
  if h.walks.any fun k => k.serves m.asp m.want.page then
    some { h with walks := h.walks.map fun k => if k.serves m.asp m.want.page then { k with waiters := k.waiters ++ [m.waiter] } else k }
  else if h.walks.length < 8 then
    some { h with walks := h.walks ++ [{ asp := m.asp, root := m.root, page := m.want.page, acc := m.want.acc, privS := m.want.privS,
                                         table := m.root.toNat, level := 1, waiters := [m.waiter], id := id }] }
  else none

/-- A miss of core `c` goes to its cluster's walker (R74); `w` is the waiting slot, or 0x10000 + the name of the waiting
sluice command.  A full FIFO leaves the miss at its core, which asks again.  Misses, and walks started, are counted (R408). -/
def State.requestWalk (s : State) (c w : Nat) (asp : Nat) (root : W64) (x : Want) : State :=
  if s.walking c w asp x.page then s else
  let m : QMiss := ⟨asp, root, x, (c, w)⟩
  let h := s.hub (c / 16)
  match (if h.fifo.isEmpty || (h.walks.any fun k => k.serves asp x.page) then h.takeMiss m s.nextId else none) with
  | some h' =>
    let s := ({ s with nextId := s.nextId + 1 }.countIn c 9 none 1).modHub (c / 16) fun _ => h'
    if h'.walks.length = h.walks.length then s else s.countIn c 10 none 1
  | none =>
    if 64 ≤ h.fifo.length then s else (s.countIn c 9 none 1).modHub (c / 16) fun h => { h with fifo := h.fifo ++ [m] }

/-- Runs a meaning: on completion the thread passes the instruction; a trap enters the handler from the state before it
(R15: no further effect); a park leaves that state, with the thread out of the rotation. -/
def run (m : M Unit) (s : State) : Result :=
  match m s with
  | .ok (_, s') => .next (s'.passed s.cur.core s.cur.slot s.cur.word s'.cur.npc)
  | .error (.park n) => .next (s.setMe { s.me with wait := .park n s.epoch, queued := none })
  | .error (.arrive pa n) => .next (s.queueRead s.cur.core s.cur.slot pa n)
  | .error (.trap cause addr st) => .next (s.trapEntry s.cur.core s.cur.slot cause s.me.pc addr st)
  | .error (.busy s' n b) => .next (s'.setMe { s'.me with wait := .busy n b, word := s.cur.word })
  | .error (.fin s') => .next s'
  | .error .kill => .next (s.kill s.cur.core s.cur.slot)
  | .error (.retry n f) => .next ((f s).tryAgain n)
  | .error (.miss a r p) => .next ((s.requestWalk s.cur.core s.cur.slot a r p).setMe { s.me with wait := .park 3 s.epoch, missed := some (p.page, a) })
  | .error (.control n) =>
    match m (s.modCore s.cur.core (Core.plainHead n)) with
    | .error (.park c) => .next (s.setMe { s.me with wait := .park c s.epoch })
    | _ => .next (s.queueHandler s.cur.core s.cur.slot n)

end Sys2Proof.Machine
end

