-- ==== Sys2Proof/Machine/Flags.lean ====
section
/-! DEFINITION. FSTAT (R102): its sticky flags, rounding mode, FTZ, and TOPINF, which the core holds for every slot
(R100). -/

namespace Sys2Proof.Machine

/-- ORs flags into a thread's FSTAT (R103, R163). -/
def Slot.raise (t : Slot) (f : Flags) : Slot := { t with fstat := t.fstat ||| w64 f.toNat }
/-- The rounding mode (R102). -/
def Slot.rm (t : Slot) : Rm := Rm.ofBits (fieldN t.fstat 8 2)
/-- FTZ (R104). -/
def Slot.ftz (t : Slot) : Bool := bitAt t.fstat 10
/-- FSTAT as read: the thread's fields and the core's TOPINF (R100). -/
def State.fstatOf (s : State) (c k : Nat) : W64 :=
  (keep (s.slot c k).fstat 0x71F) ||| (if (s.core c).topinf then w64 0x800 else 0)
/-- A write of FSTAT: TOPINF goes to the whole core (R100). -/
def State.putFstat (s : State) (c k : Nat) (v : W64) : State :=
  (s.modSlot c k fun t => { t with fstat := keep v 0x71F }).modCore c fun x => { x with topinf := bitAt v 11 }

end Sys2Proof.Machine
end

