-- ==== Sys2Proof/Machine/Operands.lean ====
section
/-! DEFINITION. How an instruction reads and writes its operands: scalar registers with their waiting rules (R220), queue
ports (R207, R373, R374), vector and mask registers, affine registers; the store comparator and the load-value queue of a
pair (R397, R398); the order that releases, acquires and fences ask for (R157). -/

namespace Sys2Proof.Machine

/-! ### Pairs (R397, R398) -/

/-- The core's slot of the pair's leading thread: the thread itself unless it trails. -/
def Slot.leadSlot (t : Slot) (k : Nat) : Nat := match t.role with | .trailing j => j | _ => k

/-- The address that an output shows as EADDR (R398): that of an access or of a task instruction; 0 for an output that has
none. -/
def CmpEnt.addr (e : CmpEnt) : W64 :=
  if e.kind < 32 then (if e.kind = 9 then 0 else e.va)
  else if [40, 62, 63, 66, 67, 68, 80, 96, 97, 103, 105, 112, 116, 117].contains e.kind then e.va else 0

/-- The address that an entry of the load-value queue shows as EADDR: sources that are no memory have keys from 2^60. -/
def LvEnt.addr (e : LvEnt) : W64 := if e.key.toNat < 2 ^ 60 then e.key else 0

/-- Both threads of a pair trap with PAIRMISMATCH: the outputs of the leading thread from the first that is not agreed are
discarded, with the accesses that they hold back (R398). -/
def State.mismatch (s : State) (c lead : Nat) (addr : W64) (code : Nat) : State :=
  let gone := ((s.slot c lead).cmp.dropWhile CmpEnt.agreed).filterMap CmpEnt.access
  { s with flights := s.flights.filter fun f => !gone.contains f.id }.modSlot c lead fun t =>
    { t with cmp := t.cmp.takeWhile CmpEnt.agreed, mismatch := some ⟨0x14, addr, w64 code⟩, pairHeld := true }

/-- The trailing thread's trap: the mismatch is noted at the leading thread, then the trailing thread enters its handler. -/
def pairTrap {α : Type} (addr : W64) (code : Nat) : M α := fun s =>
  let c := s.cur.core
  let k := s.cur.slot
  let s' := s.mismatch c (s.me.leadSlot k) addr code
  .error (.fin (s'.trapEntry c k 0x14 s.me.pc addr (w64 code)))

/-- Which code of R398 two outputs that differ show; none when they are the same. -/
def CmpEnt.differs (e : CmpEnt) (kind : Nat) (va : W64) (size : Nat) (data : List W64) : Option Nat :=
  if e.kind ≠ kind then some 5
  else if e.va ≠ va ∨ e.size ≠ size then some (if e.addr = e.va then 1 else 4)
  else if e.data ≠ data then some (if kind ≤ 3 then 2 else 4)
  else none

/-- A leading thread's output enters the comparator; it parks while that is full (R397). -/
def holdOutput (e : CmpEnt) : M Unit := fun s =>
  let t := s.me
  if 32 ≤ t.cmp.length then .error (.park 3) else .ok ((), s.setMe { t with cmp := t.cmp ++ [e] })

/-- A trailing thread's output against the first of the leading thread's that it has not agreed: it waits for one, and both
trap where they differ.  The same output is released, or marked agreed where the leading thread stands in it or where
releases wait for an ERET of both threads (R397, R398).  Answers whether it is released. -/
def matchOutput (j kind : Nat) (va : W64) (size : Nat) (data : List W64) : M Bool := fun s =>
  let c := s.cur.core
  let l := s.slot c j
  match l.cmp.dropWhile CmpEnt.agreed with
  | [] => .error (.park 3)
  | e :: r =>
    match e.differs kind va size data with
    | some n => pairTrap e.addr n s
    | none =>
      if l.pairHeld ∨ e.stands then
        .ok (false, s.setSlot c j { l with cmp := l.cmp.takeWhile CmpEnt.agreed ++ { e with agreed := true } :: r })
      else
        let s := s.setSlot c j { l with cmp := l.cmp.takeWhile CmpEnt.agreed ++ r }
        .ok (true, { s with flights := s.flights.map fun f => if e.access = some f.id then { f with stage := .sent } else f })

/-- A trailing thread's output that its instruction produces once, though it is tried again after it (R397). -/
def agreeOnce (j kind : Nat) (va : W64) (size : Nat) (data : List W64) : M Unit := fun s =>
  if s.me.agreed then .ok ((), s) else
  match matchOutput j kind va size data s with
  | .ok _ => .error (.retry 3 fun s =>
      match matchOutput j kind va size data s with
      | .ok (_, s) => s.setMe { s.me with agreed := true }
      | .error _ => s)
  | .error e => .error e

/-- Checks that a member of a pair has passed before its instruction's output was agreed: it does not make them again when its
instruction is tried again after that (R397). -/
def checks (m : M Unit) : M Unit := fun s => if s.me.agreed then .ok ((), s) else m s

/-- The entry of a load-value queue that a trailing thread's instruction takes next, and the queue without it; register fills have
their own moment (`State.landFills`). -/
def lvNext (l : List LvEnt) : Option (LvEnt × List LvEnt) :=
  match l with
  | [] => none
  | e :: r => if e.at_.isNone then some (e, r) else (lvNext r).map fun x => (x.1, e :: x.2)

/-- A trailing thread takes its next input from the queue of the leading thread in slot `j` (R397, R398). -/
def nextInput (j : Nat) (key : W64) : M (List W64) := fun s =>
  let l := s.slot s.cur.core j
  match lvNext l.lvq with
  | none => .error (.park 3)
  | some (e, r) =>
    if e.key ≠ key then pairTrap e.addr 3 s else
    match e.vals with
    | some v => .ok (v, s.setSlot s.cur.core j { l with lvq := r })
    | none => .error (.park 3)

/-- An input of the pair that is known at once, such as a MOVC value: the leading thread's value also enters the load-value
queue, once, however often its instruction is tried, and the trailing thread takes it from there (R397). -/
def input (key : W64) (m : M W64) : M W64 := fun s =>
  let t := s.me
  match t.role with
  | .single => m s
  | .leading _ =>
    (match t.ins.find? fun i => i.1 == key with
     | some i => .ok (i.2, s)
     | none =>
       if 64 ≤ t.lvq.length then .error (.park 3) else
       match m s with
       | .ok (v, s') => .ok (v, s'.setMe { s'.me with lvq := s'.me.lvq ++ [{ key := key, vals := some [v] }], ins := s'.me.ins ++ [(key, v)] })
       | .error e => .error e)
  | .trailing j =>
    match nextInput j key s with
    | .ok (l, s) => .ok (l.headD 0, s)
    | .error e => .error e

/-- A leading thread's instruction reserves the place of a value that an event brings (R397). -/
def reserveInput (key : W64) : M Unit := fun s =>
  match s.me.role with
  | .leading _ => if 64 ≤ s.me.lvq.length then .error (.park 3) else .ok ((), s.setMe { s.me with lvq := s.me.lvq ++ [{ key := key }] })
  | _ => .ok ((), s)

/-- The leading thread stands in an output: its entry, with what the instruction has entered into the load-value queue. -/
def State.standIn (s0 s : State) (e : CmpEnt) : State :=
  s0.setMe { s0.me with cmp := s0.me.cmp ++ [e], lvq := s.me.lvq, ins := s.me.ins, pops := s.me.pops }

/-- An output of the pair whose instruction may itself wait, or answers, such as a task instruction or a mailbox send: true
when the instruction is to have its effect.  The leading thread stands in it until the trailing thread has produced the same
output; the trailing thread's instruction completes without the effect (assumption 35). -/
def output (kind : Nat) (va : W64) (size : Nat) (data : List W64) : M Bool := fun s =>
  let t := s.me
  match t.role with
  | .single => .ok (true, s)
  | .leading _ =>
    if t.agreed then .ok (true, s) else
    (match t.cmp.getLast? with
     | some e =>
       if e.stands then
         (if e.agreed ∧ ¬ t.pairHeld then .ok (true, s.setMe { t with cmp := t.cmp.dropLast, agreed := true }) else .error (.park 3))
       else if 32 ≤ t.cmp.length then .error (.park 3)
       else .error (.retry 3 fun s0 => s0.standIn s ⟨kind, va, size, data, none, none, true, false⟩)
     | none => .error (.retry 3 fun s0 => s0.standIn s ⟨kind, va, size, data, none, none, true, false⟩))
  | .trailing j =>
    match agreeOnce j kind va size data s with
    | .ok (_, s) => .ok (false, s)
    | .error e => .error e

/-- An output of the pair that is posted: the leading thread goes on, and the trailing thread, when it produces the same
output, gives it its effect (R397). -/
def outputPost (kind : Nat) (va : W64) (size : Nat) (data : List W64) (e : Eff) (f : State → State) : M Unit := fun s =>
  match s.me.role with
  | .single => .ok ((), f s)
  | .leading _ => holdOutput ⟨kind, va, size, data, none, some e, false, false⟩ s
  | .trailing j =>
    match matchOutput j kind va size data s with
    | .ok (go, s) => .ok ((), if go then f s else s)
    | .error e => .error e


/-- Runs a part of the trailing thread's instruction as the leading thread of slot `j`. -/
def asLeading (j : Nat) (m : M Unit) : M Unit := fun s =>
  match m { s with cur := { s.cur with slot := j } } with
  | .ok (_, t) => .ok ((), { t with cur := { t.cur with slot := s.cur.slot } })
  | .error e => .error e

/-- An output of the pair that may wait, and that the leading thread need not stand in: it goes on, and the trailing thread's
instruction, which produces the same output, waits where it must and has its effect `m` (R397). -/
def outputLater (kind : Nat) (va : W64) (size : Nat) (data : List W64) (e : Eff) (m : M Unit) : M Unit := fun s =>
  match s.me.role with
  | .single => m s
  | .leading _ => holdOutput ⟨kind, va, size, data, none, some e, false, false⟩ s
  | .trailing j =>
    match matchOutput j kind va size data s with
    | .ok (go, s) => if go then asLeading j m s else .ok ((), s)
    | .error e => .error e

/-! ### Order among a thread's accesses (R157, R164, R178) -/

/-- A home in the domain of a scope: none for `.t`, the module's homes for `.c` to `.dev`, all for `.sys`; host-window
reads lie in the domain of `.sys` only (R157, R419). -/
def inDomain (scope home : Nat) : Bool :=
  if scope = 0 then false else if scope ≤ 4 then decide (home < homeHost) else true

/-- Whether an access is still to be performed. -/
def Flight.pending (f : Flight) : Bool := match f.stage with | .returning .. => false | _ => true

/-- The home code of an access that has passed its checks; a home that has gone since keeps its place in no domain. -/
def State.flightHome (s : State) (f : Flight) : Nat := (s.homeOf f.pa).getD homeMgmt

/-- Whether an earlier access of thread `tid`, with a home in the domain of `scope`, is still to be performed. -/
def State.unperformed (s : State) (tid scope : Nat) : Bool :=
  s.flights.any fun f => f.tid == tid && f.pending && inDomain scope (s.flightHome f)

/-- A release at a scope: waits until every earlier access of the thread in its domain has been performed (R157).  DESIGN CHOICE:
it parks with reason register, and so does an access behind an acquire; the manual names no reason for either (log entry 62). -/
def release (scope : Nat) : M Unit := fun s =>
  if s.unperformed s.me.tid scope then .error (.park 3) else .ok ((), s)

/-- Before an access is sent: an earlier acquire must have been performed and its value have returned (R157). -/
def afterAcquires : M Unit := fun s =>
  if s.flights.any fun f => f.tid == s.me.tid && f.acq then .error (.park 3) else .ok ((), s)

/-! ### Queue ports (R207, R373) -/

/-- The field of QCFG for port `n` (R207). -/
def portCfg (cfg : W64) (n : Nat) : Nat := fieldN cfg (16 * n) 16
/-- Whether a port is enabled. -/
def portOn (cfg : W64) (n : Nat) : Bool := decide (portCfg cfg n % 2 = 1)
/-- Whether a port is an output. -/
def portOut (cfg : W64) (n : Nat) : Bool := decide (portCfg cfg n / 2 % 2 = 1)
/-- The side and the peer of a port. -/
def portSide (cfg : W64) (n : Nat) : Nat := portCfg cfg n / 4 % 4
/-- The neighbour's port. -/
def portPeer (cfg : W64) (n : Nat) : Nat := portCfg cfg n / 16 % 4

/-- Row and column of a core in the 24 × 24 grid of its die (R4, R207). -/
def gridOf (c : Nat) : Nat × Nat :=
  let cl := c / 16 % 64
  (cl / 6 * 4 + c % 16 / 4, cl % 6 * 4 + c % 4)
/-- The core at a place of a die's grid. -/
def coreAt (d row col : Nat) : Nat := d * 1024 + (row / 4 * 6 + col / 4) * 16 + row % 4 * 4 + col % 4
/-- The neighbour on a side: 0 north, 1 east, 2 south, 3 west; none at the die's edge (R207). -/
def neighbour (c side : Nat) : Option Nat :=
  let (r, q) := gridOf c
  let d := dieOf c
  if side = 0 then (if r = 0 then none else some (coreAt d (r - 1) q))
  else if side = 1 then (if q = 23 then none else some (coreAt d r (q + 1)))
  else if side = 2 then (if r = 23 then none else some (coreAt d (r + 1) q))
  else if q = 0 then none else some (coreAt d r (q - 1))

/-- QCFG of the slot that holds a port of a core, if any (R207). -/
def State.holder (s : State) (c n : Nat) : Option W64 :=
  ((upto 0 16).find? fun k => (s.slot c k).live && portOn (s.slot c k).qcfg n).map fun k => (s.slot c k).qcfg

/-- The port that a port is joined with: each side enabled, naming the other, with opposite directions (R373). -/
def State.joined (s : State) (c n : Nat) : Option (Nat × Nat) :=
  match s.holder c n with
  | none => none
  | some cfg =>
    match neighbour c (portSide cfg n) with
    | none => none
    | some o =>
      let p := portPeer cfg n
      match s.holder o p with
      | none => none
      | some ocfg =>
        if portOut ocfg p != portOut cfg n && portPeer ocfg p == n && neighbour o (portSide ocfg p) == some c then some (o, p)
        else none

/-- Whether a port is an output with space: fewer than 32 entries in the joined pair (R373). -/
def State.portSpace (s : State) (c n : Nat) : Bool :=
  match s.joined c n with
  | none => false
  | some (o, p) =>
    let q := look {} (s.core o).ports p
    (s.holder c n).any (fun cfg => portOut cfg n) && decide (q.here.length + q.fly.length < 32)

/-- An entry leaves an output port for the port that it is joined with (R373). -/
def State.pushEntry (s : State) (c n : Nat) (e : PortEnt) : State :=
  match s.joined c n with
  | some (o, p) => s.modCore o fun x => let q := look {} x.ports p; { x with ports := put x.ports p { q with fly := q.fly ++ [e] } }
  | none => s

/-- Pushes an entry on an output port: a release at .dev, it parks while the port has no space (R373). -/
def pushPort (n : Nat) (v : W64) (ctl : Bool) : M Unit :=
  outputLater 9 (w64 n) 8 [v, w64 (b2n ctl)] (.push n v ctl) do
    release 4
    fun s => if s.portSpace s.cur.core n then .ok ((), s.pushEntry s.cur.core n { val := v, ctl := ctl }) else .error (.park 3)

/-- Reads the head entry of an input port (R207, R373, R374): it parks while the port is not joined or holds none, traps with
QUEUE 3 on a control entry in a handler, and enters the handler on a control entry when one is set.  The entry leaves the
port as the instruction completes, and serves all its operands (R220). -/
def pullPort (n : Nat) : M W64 := fun s =>
  let p := look {} s.myCore.ports n
  match p.here with
  | [] => .error (.park 3)
  | e :: _ =>
    if s.me.pops.contains n then .ok (e.val, s)
    else if (s.joined s.cur.core n).isNone then .error (.park 3)
    else if e.poison then .error .kill
    else if e.ctl ∧ s.me.qinh then .error (.trap 0x17 0 3)
    else if e.ctl ∧ look 0 s.me.qhdl n ≠ 0 then .error (.control n)
    else .ok (e.val, s.setMe { s.me with pops := s.me.pops ++ [n] })

/-! ### Scalar registers (R199, R201, R220) -/

/-- The run state of a thread that reads register `d` of its own access: presence while a load or BARRD is held at an absent line,
register otherwise (R124, R152). -/
def State.awaitCode (s : State) (tid : Nat) (vec : Bool) (d : Nat) : Nat :=
  if s.flights.any fun f => f.tid == tid && f.pending && !s.present f.pa && (match f.op with
      | .ld _ r => !vec && r == d
      | .barrd r => !vec && r == d
      | .vld r _ => vec && r == d
      | _ => false) then 5 else 3

/-- Whether s[n] of a thread is an enabled queue port. -/
def Slot.isPort (t : Slot) (n : Nat) : Bool := decide (60 ≤ n) && portOn t.qcfg (n - 60)

/-- Reads s[n] (R220), correcting a single-bit error (R399): it parks while the register is empty or awaits the thread's own access, and kills on poison (R400). -/
def readS (n : BitVec 6) : M W64 := fun s =>
  let i := n.toNat
  let t := s.me
  if i = 0 then .ok (0, s)
  else if t.isPort i then
    (if portOut t.qcfg (i - 60) then .error (.trap 0x17 0 1) else input (portKey i) (pullPort (i - 60)) s)
  else if bitAt t.sAwait i then .error (.park (s.awaitCode t.tid false i))
  else if !bitAt t.sFull i then .error (.park 3)
  else if bitAt t.sPoison i then .error .kill
  else if bitAt t.sErr i then .ok (look 0 t.sr i, (s.setMe { t with sErr := setBit t.sErr i false }).corrected s.cur.core 1)
  else .ok (look 0 t.sr i, s)

/-- Writes s[n] and sets it full (R220): discarded for s0; it parks while the register awaits the thread's own access. -/
def writeS (n : BitVec 6) (v : W64) : M Unit := fun s =>
  let i := n.toNat
  let t := s.me
  if i = 0 then .ok ((), s)
  else if t.isPort i then
    (if portOut t.qcfg (i - 60) then pushPort (i - 60) v false s else .error (.trap 0x17 0 1))
  else if bitAt t.sAwait i then .error (.park 3)
  else .ok ((), s.setMe (t.putS i v))

/-- Parks while a scalar destination awaits the thread's own access, as a write would (R152, R220). -/
def freeS (n : Nat) : M Unit := fun s =>
  if n ≠ 0 ∧ bitAt s.me.sAwait n then .error (.park 3) else .ok ((), s)

/-- A value that reaches s[d] of slot `k` when its wait ends may be written: an output port has space for it (R207, R220, R227). -/
def State.destReady (s : State) (c k d : Nat) : Bool :=
  let t := s.slot c k
  !t.isPort d || t.trails || s.portSpace c (d - 60)

/-- The value is written: into the register, or on the output port, with its poison mark (R220, R373, R400). -/
def State.putDest (s : State) (c k d : Nat) (v : W64) (poison : Bool) : State :=
  let t := s.slot c k
  if t.isPort d && t.trails then s
  else if t.isPort d then s.pushEntry c (d - 60) { val := v, poison := poison }
  else s.modSlot c k fun t => if poison ∧ d ≠ 0 then { t.putS d v with sPoison := setBit t.sPoison d true } else t.putS d v

/-- Parks for a destination whose value comes later as a write would (R152, R220): until no own access is outstanding into it,
or until an output port has space (R373). -/
def roomFor (d : Nat) : M Unit := do
  let t ← getMe
  if t.isPort d then
    if portOut t.qcfg (d - 60) then do
      release 4
      let ok ← askM fun s => s.portSpace s.cur.core (d - 60)
      if ok then pure () else parkReg
    else trapM 0x17 0 1
  else freeS d

/-- Marks s[d] empty and awaiting the thread's own access or command (R152, R214). -/
def awaitS (d : Nat) : M Unit :=
  modMe fun t => if d = 0 ∨ t.isPort d then t else { t with sFull := setBit t.sFull d false, sAwait := setBit t.sAwait d true }

/-! ### Vector, mask and affine registers -/

/-- Lane `l` of v[n]. -/
def Slot.lane (t : Slot) (n l : Nat) : W32 := look 0 t.vr (16 * n + l)

/-- Reads v[n] whole, lane by lane, correcting single-bit errors (R399): it parks while the register is empty or awaiting (R201), and kills on poison. -/
def readV (n : BitVec 5) : M (List W32) := fun s =>
  let i := n.toNat
  let t := s.me
  if bitAt t.vAwait i then .error (.park (s.awaitCode t.tid true i))
  else if !bitAt t.vFull i then .error (.park 3)
  else if bitAt t.vPoison i then .error .kill
  else if t.vErr.any fun g => g / 8 == i then
    .ok ((upto 0 16).map (t.lane i), (s.setMe { t with vErr := t.vErr.filter fun g => g / 8 != i }).corrected s.cur.core
      (t.vErr.filter fun g => g / 8 == i).length)
  else .ok ((upto 0 16).map (t.lane i), s)

/-- Parks while v[n] awaits the thread's own access. -/
def freeV (n : Nat) : M Unit := fun s =>
  if bitAt s.me.vAwait n then .error (.park 3) else .ok ((), s)

/-- Writes the lanes of v[n] that `mask` selects, the others keeping their values, and sets the register full (R201). -/
def Slot.putV (t : Slot) (n : Nat) (mask : W16) (l : List W32) : Slot :=
  { t with vr := (upto 0 16).foldl (fun m i => if bitAt mask i then put m (16 * n + i) (l.getD i 0) else m) t.vr,
           vFull := setBit t.vFull n true,
           vPoison := if mask = 0xFFFF then setBit t.vPoison n false else t.vPoison,
           vErr := if mask = 0xFFFF then t.vErr.filter fun g => g / 8 != n else t.vErr }

/-- Writes lanes of v[n]; it parks while the register awaits the thread's own access. -/
def writeV (n : BitVec 5) (mask : W16) (l : List W32) : M Unit := do
  freeV n.toNat
  modMe fun t => t.putV n.toNat mask l

/-- Reads granules of the thread's mask and affine registers (R399, R400): single-bit errors are corrected and counted, and more wrong
bits kill the reader. -/
def readGranules (l : List Nat) : M Unit := fun s =>
  let hit := s.me.rErr.filter fun e => l.contains e.1
  if hit.isEmpty then .ok ((), s)
  else if hit.any Prod.snd then dieM { s with relUeev := true }
  else .ok ((), (s.setMe { s.me with rErr := s.me.rErr.filter fun e => !l.contains e.1 }).corrected s.cur.core hit.length)

/-- Reads the granule of k[n]; k0 names the active mask (R206, R399). -/
def soundK (n : BitVec 3) : M Unit := if n = 0 then pure () else readGranules [n.toNat / 4]
/-- Reads the granule of the base of affine register n (R399). -/
def soundBase (n : BitVec 4) : M Unit := readGranules [16 + n.toNat]
/-- Reads the granule of the stride of affine register n (R399). -/
def soundStride (n : BitVec 4) : M Unit := readGranules [32 + n.toNat / 2]
/-- Reads an affine register whole (R399). -/
def soundA (n : BitVec 4) : M Unit := readGranules [16 + n.toNat, 32 + n.toNat / 2]

/-- Mask register n; k0 reads the active mask (R206). -/
def Slot.mask (t : Slot) (n : BitVec 3) : W16 := if n = 0 then t.act else look 0 t.kr n.toNat

/-- The predicate of an instruction: the lanes that take effect, E = (A ∪ H) ∩ P (R240). -/
def Slot.effective (t : Slot) (k : BitVec 3) : W16 := (t.act ||| t.hlp) &&& (if k = 0 then t.act ||| t.hlp else t.mask k)

/-- Writes k[n]; the decoder refuses k0 as a destination (R45). -/
def writeK (n : BitVec 3) (v : W16) : M Unit := modMe fun t => if n = 0 then t else { t with kr := put t.kr n.toNat v }

/-- Base and stride of affine register n (R205). -/
def Slot.aff (t : Slot) (n : BitVec 4) : W64 × W32 := (look 0 t.afB n.toNat, look 0 t.afS n.toNat)
/-- Writes an affine register; its base is a whole granule, its stride is not (R400). -/
def writeA (n : BitVec 4) (b : W64) (st : W32) : M Unit :=
  modMe fun t => { t with afB := put t.afB n.toNat b, afS := put t.afS n.toNat st, rErr := del t.rErr (16 + n.toNat) }
/-- Writes the stride of an affine register alone. -/
def writeStride (n : BitVec 4) (st : W32) : M Unit := modMe fun t => { t with afS := put t.afS n.toNat st }

/-- Sets the program counter of the running instruction's thread and notes the branch in the branch trace (R330, R331,
R413). -/
def branchTo (a : W64) : M Unit := fun s =>
  .ok ((), { s.trace s.cur.core s.cur.slot 0 a with cur := { s.cur with npc := some a } })

end Sys2Proof.Machine
end

