-- ==== Sys2Proof/Machine/Translate.lean ====
section
/-! DEFINITION. From a virtual address to a place: the windows (R63 to R66), the translation buffer and the walker's tables
(R67 to R76), the home map (R79), and the order of the checks of R151. -/

namespace Sys2Proof.Machine

/-- A resolved address: the physical address, the polder slot it passed, the page it was translated through. -/
structure Loc where
  pa : Nat
  polder : Option Nat := none
  page : Option Nat := none
  deriving DecidableEq, Repr

/-- Who an address is resolved for: core, task, address space and privilege. -/
structure Ctx where
  core : Nat
  task : Nat
  root : W64
  asp : Nat
  privS : Bool
  deriving DecidableEq, Repr

/-- How resolving an address ends when not with a place: a trap cause with its ESTAT detail, or a walk to wait for. -/
inductive Miss where
  | trap (cause detail : Nat)
  | walk (w : Want)
  deriving DecidableEq, Repr

/-- Permissions of a leaf, bits [6:0] of its entry (R70), against an access and a privilege (R71). -/
def permOk (perm : Nat) (a : Acc) (privS : Bool) : Bool :=
  (privS || Nat.testBit perm 5) &&
    (match a with
      | .load => Nat.testBit perm 2
      | .store => Nat.testBit perm 3
      | .atomic => Nat.testBit perm 2 && Nat.testBit perm 3
      | .fetch => Nat.testBit perm 4)

/-- The entry of a core's translation buffer that holds an address in an address space (R73).  DESIGN CHOICE: of several entries that
hold it (pages of two sizes, or a global one beside one of the address space) the first of the list translates it (log entry 47). -/
def State.tlbHit (s : State) (c asp va : Nat) : Option Tlb :=
  (s.core c).tlb.find? fun e => (e.asp == asp || Nat.testBit e.perm 6) && e.base / 2 ^ e.bits == va / 2 ^ e.bits

/-- Translation through the buffer: a place, a fault, or a walk (R71, R73, R76). -/
def State.translate (s : State) (x : Ctx) (va : Nat) (a : Acc) : Except Miss Loc :=
  match s.tlbHit x.core x.asp va with
  | some e => if permOk e.perm a x.privS then .ok { pa := e.pa + va % 2 ^ e.bits, page := some (va / 65536) } else .error (.trap 5 0)
  | none => .error (.walk { page := va / 65536, acc := a, privS := x.privS })

/-- A window bank of a task as a physical bank (R64). -/
def State.bankOf (s : State) (c h wb : Nat) : Option Nat := (s.taskOf c h).banks[wb]?

/-- A data address to a place: bits [63:57] (R62), the windows (R63 to R66), translation (R69 to R71), the home map (R79). -/
def State.resolve (s : State) (x : Ctx) (va : W64) (a : Acc) : Except Miss Loc :=
  let v := va.toNat
  if 2 ^ 57 ≤ v then .error (.trap 4 0) else
  let r : Except Miss Loc :=
    if v < 0x80000 then
      match s.bankOf x.core x.task (v / 4096) with
      | some b => .ok { pa := scratchAddr x.core (b * 4096 + v % 4096) }
      | none => .error (.trap 5 0x100)
    else if 0x400000 ≤ v ∧ v < 0x800000 then
      if !x.privS && decide ((s.core x.core).colwin * 65536 ≤ v - 0x400000) then .error (.trap 5 0x100)
      else .ok { pa := columnAddr x.core (v - 0x400000) }
    else if 0x10000000 ≤ v ∧ v < 0x12000000 then
      let i := v / 2 ^ 19 % 64
      match find (s.core x.core).pwin (x.task * 64 + i) with
      | none => .error (.trap 7 0)
      | some (c, h) =>
        match s.bankOf c h (v % 2 ^ 19 / 4096) with
        | some b => .ok { pa := scratchAddr c (b * 4096 + v % 4096), polder := some i }
        | none => .error (.trap 5 0x100)
    else s.translate x v a
  match r with
  | .ok l => if (s.homeOf l.pa).isSome then .ok l else .error (.trap 4 0x100)
  | .error e => .error e

/-- The running thread's context. -/
def State.myCtx (s : State) : Ctx :=
  { core := s.cur.core, task := s.me.task, root := s.me.ptroot, asp := s.me.aspace.toNat, privS := s.me.privS }

/-- Resolves an address of the running instruction with the checks of R151 in order: alignment to `align` bytes, then the
address.  A miss parks the thread for a walk (R76); a walk that ended in a fault traps here.  `lane` enters ESTAT (R379). -/
def resolveM (va : W64) (align : Nat) (a : Acc) (lane : Nat) : M Loc := fun s =>
  if va.toNat % align ≠ 0 then .error (.trap 3 va (w64 lane))
  else
    match s.resolve s.myCtx va a with
    | .ok l =>
      match regionOf l.pa, a with
      | .host _, .store => .error (.trap 5 va (w64 lane))
      | .host _, .atomic => .error (.trap 5 va (w64 lane))
      | _, _ => .ok (l, s)
    | .error (.trap cause d) => .error (.trap cause va (w64 (lane + d)))
    | .error (.walk p) =>
      match s.me.walkRes.find? fun w => w.1 == p.page && w.2.1 == s.me.aspace.toNat with
      | some (_, _, cause, d) => .error (.trap cause va (w64 (lane + d)))
      | none => .error (.miss s.me.aspace.toNat s.me.ptroot p)

end Sys2Proof.Machine
end

