-- ==== Sys2Proof/Machine/Access.lean ====
section
/-! DEFINITION. Sending an access (R151 to R153): the checks, the order among a thread's accesses, watchpoints, the store
comparator of a pair, and the destination register that awaits. -/

namespace Sys2Proof.Machine

/-- A trap with ESTAT detail in [15:8]. -/
def trapDetail {α : Type} (cause : Nat) (va : W64) (d : Nat) : M α := trapM cause va (w64 (d * 256))

/-- The access as it leaves the running thread. -/
def State.mkFlight (s : State) (va : W64) (l : Loc) (size : Nat) (op : FOp) (acq : Bool) : Flight :=
  { id := s.nextId, core := s.cur.core, slot := s.cur.slot, tid := s.me.tid, task := s.me.task, va := va, pa := l.pa, size := size,
    op := op, topinf := s.myCore.topinf, privS := s.me.privS, seq := s.nextId, acq := acq, polder := l.polder, page := l.page }

/-- A watchpoint of the core matches an access (R411). -/
def wpMatch (d : Dbg) (va : W64) (size : Nat) (reads writes : Bool) : Bool :=
  (upto 0 2).any fun i =>
    let c := look 0 d.wpc i
    let a := (look 0 d.wp i).toNat
    let len := 2 ^ fieldN c 0 5
    bitAt c 10 && ((bitAt c 9 && writes) || (bitAt c 8 && reads)) && decide (va.toNat < a / len * len + len) && decide (a / len * len < va.toNat + size)

/-- A slot halts (R410): its HALTREQ bit is set, and DBGSTAT names the slot and the reason. -/
def State.halt (s : State) (c k why : Nat) : State :=
  (s.modCore c fun x => { x with dbg := { x.dbg with haltreq := setBit x.dbg.haltreq k true, slot := k, why := why } }).modSlot c k
    fun t => { t with halted := true }

/-- The running slot halts with PC at the next instruction: a watchpoint, BKPT or HALT (R383, R411). -/
def State.haltMe (s : State) (why : Nat) : State := s.halt s.cur.core s.cur.slot why

/-- Whether an access reads, and whether it writes, as a watchpoint asks (R410). -/
def FOp.rw (o : FOp) : Bool × Bool :=
  match o with
  | .ld .. => (true, false)
  | .vld .. => (true, false)
  | .st _ => (false, true)
  | .ldSync .. => (true, false)
  | .stfe _ => (false, true)
  | .stff _ => (false, true)
  | .feclr => (false, true)
  | .atom .. => (true, true)
  | .barinit _ => (false, true)
  | .bararr _ => (false, true)
  | .barwait _ => (true, false)
  | .barrd _ => (true, false)
  | .sptagRead _ => (true, false)
  | .sptagWrite _ => (false, true)
  | .tileLoad _ => (false, false)
  | .tileStore .. => (false, false)

/-- Kind and data of an output of the store comparator, for an operation that leaves the pair (R397); none for a read. -/
def FOp.outKind (o : FOp) : Option (Nat × List W64) :=
  match o with
  | .st v => some (1, [v])
  | .stfe v => some (2, [v])
  | .stff v => some (3, [v])
  | .feclr => some (4, [])
  | .ldSync true _ => some (5, [])
  | .atom op _ b c => some (16 + op, [b, c])
  | .barinit v => some (6, [v])
  | .bararr n => some (7, [w64 n])
  | .barwait ph => some (8, [w64 ph])
  | .barrd _ => some (10, [])
  | _ => none

/-- Watchpoints and the counters of remote accesses, as an access is sent (R408, R411); of a pair, as the leading thread sends
it. -/
def State.noteSend (s : State) (va : W64) (pa size : Nat) (op : FOp) : State :=
  if s.me.trails then s else
  let rw := op.rw
  let s := if wpMatch s.myCore.dbg va size rw.1 rw.2 then s.haltMe 3 else s
  if s.homeOf pa = some s.cur.core then s
  else s.countIn s.cur.core (if rw.1 then 21 else 22) none 1

/-- Puts an access on its way: past the watchpoints, and through the pair's comparator when it is an output.  A leading
thread's output is held; a trailing thread sends none, and releases it (R397, R398).  Answers the access's id. -/
def launch (va : W64) (l : Loc) (size : Nat) (op : FOp) (acq : Bool) : M Nat := do
  let f ← askM fun s => s.mkFlight va l size op acq
  let send (st : FStage) : M Unit := doM fun s =>
    { s.noteSend va l.pa size op with nextId := s.nextId + 1, flights := s.flights ++ [{ f with stage := st }] }
  let r ← askM fun s => s.me.role
  match r, op.outKind with
  | .leading _, some (k, d) =>
    holdOutput ⟨k, va, size, d, some f.id, none, false, false⟩
    send .held
  | .trailing j, some (k, d) =>
    let _ ← matchOutput j k va size d
    pure ()
  | .trailing _, none => pure ()
  | _, _ => send .sent
  pure f.id

/-- How many value-returning instructions of a thread are outstanding (R152). -/
def State.outstanding (s : State) (tid : Nat) : Nat :=
  (s.flights.filter fun f => f.tid == tid && (match f.op with
    | .ld .. => true
    | .vld _ lane => lane == 0 || !(s.flights.any fun g => g.tid == tid && g.seq == f.seq && decide (g.id < f.id))
    | .atom .. => true
    | .barrd _ => true
    | _ => false)).length

/-- Parks a seventeenth outstanding access (R152). -/
def roomForLoad : M Unit := fun s => if 16 ≤ s.outstanding s.me.tid then .error (.park 3) else .ok ((), s)

/-- A synchronising access at a scope other than `.t` follows the thread's earlier synchronising accesses (R178 item 6). -/
def afterSyncs (scope : Nat) : M Unit := fun s =>
  if scope ≠ 0 ∧ (s.flights.any fun f => f.tid == s.me.tid && f.pending && (match f.op with
      | .stff _ => true
      | .feclr => true
      | .ldSync .. => true
      | .stfe _ => true
      | .atom .. => true
      | _ => false)) then .error (.park 3)
  else .ok ((), s)

/-- The load-value queue's share of a value that returns later: the leading thread reserves an entry, the trailing thread
takes it (R397).  None when the thread sends the access itself. -/
def returnInput (va : W64) (id : Nat) : M (Option (List W64)) := fun s =>
  match s.me.role with
  | .single => .ok (none, s)
  | .leading _ =>
    if 64 ≤ s.me.lvq.length then .error (.park 3)
    else .ok (none, s.setMe { s.me with lvq := s.me.lvq ++ [{ key := va, flight := some id }] })
  | .trailing j =>
    match nextInput j va s with
    | .ok (l, s) => .ok (some l, s)
    | .error e => .error e

/-- The same for a value of s[d], with the flags that came with it (R163).  True when the thread sends the access itself. -/
def loadInput (va : W64) (id d : Nat) : M Bool := do
  match ← returnInput va id with
  | none => pure true
  | some l =>
    modMe fun t => (t.putS d (l.headD 0)).raise ((l.getD 1 0).setWidth 5)
    pure false

/-- LD (R152, R155): the destination awaits the value. -/
def sendLoad (va : W64) (size : Nat) (signed : Bool) (d : Nat) : M Unit := do
  roomFor d
  let l ← resolveM va size .load 0
  afterAcquires
  roomForLoad
  let id ← askM State.nextId
  let go ← loadInput va id d
  if go then
    let _ ← launch va l size (.ld signed d) false
    awaitS d
  else pure ()

/-- A posted store (R153, R155). -/
def sendStore (va : W64) (size : Nat) (v : W64) : M Unit := do
  let l ← resolveM va size .store 0
  afterAcquires
  let _ ← launch va l size (.st v) false

/-- The check of R156: the home keeps full/empty bits.  DEDUCED: a home beyond a peer port keeps none for this module, whatever its
bits [47:0] name there (R77, R162; log entry 61). -/
def needFe (va : W64) (l : Loc) : M Unit := if hasFe l.pa then pure () else trapDetail 5 va 2
/-- The check of R165: the home is a scratchpad of this module (log entry 61). -/
def needBarrierHome (va : W64) (l : Loc) : M Unit := if isScratch l.pa then pure () else trapDetail 5 va 3

/-- A synchronising access that parks its thread until the home has performed it (R453). -/
def sendParked (va : W64) (l : Loc) (size : Nat) (op : FOp) (code : Nat) : M Unit := do
  let id ← launch va l size op false
  busyM code (.access id)

/-- LDFE and LDFF (R156, R453).  DEDUCED: LDFE, which reads and sets words empty, needs R and W, LDFF R, and STFE, STFF, FECLR,
BARINIT and BARARR W; R71 names loads, stores and atomics alone (log entry 60). -/
def sendSyncLoad (va : W64) (size : Nat) (take : Bool) (d scope : Nat) : M Unit := do
  roomFor d
  let l ← resolveM va size (if take then .atomic else .load) 0
  needFe va l
  afterAcquires
  afterSyncs scope
  let t ← getMe
  match t.role, take with
  | .trailing j, true => agreeOnce j 5 va size []
  | _, _ => pure ()
  let id ← askM State.nextId
  let go ← loadInput va id d
  if go then sendParked va l size (.ldSync take d) 4 else pure ()

/-- STFE (R156, R453): a release. -/
def sendStfe (va : W64) (size : Nat) (v : W64) (scope : Nat) : M Unit := do
  let l ← resolveM va size .store 0
  needFe va l
  afterAcquires
  release scope
  afterSyncs scope
  let lead ← askM fun s => (match s.me.role with | .trailing _ => false | _ => true)
  if lead then sendParked va l size (.stfe v) 4
  else
    let _ ← launch va l size (.stfe v) false
    pure ()

/-- STFF and FECLR (R156): posted releases. -/
def sendPostedSync (va : W64) (size : Nat) (op : FOp) (scope : Nat) : M Unit := do
  let l ← resolveM va size .store 0
  needFe va l
  afterAcquires
  release scope
  afterSyncs scope
  let _ ← launch va l size op false

/-- An atomic (R162): acquire and release at its scope; the destination awaits the old value. -/
def sendAtomic (va : W64) (size op : Nat) (d : Nat) (b c : W64) (scope : Nat) : M Unit := do
  roomFor d
  let l ← resolveM va size .atomic 0
  afterAcquires
  roomForLoad
  release scope
  afterSyncs scope
  let t ← getMe
  match t.role with
  | .trailing j => agreeOnce j (16 + op) va size [b, c]
  | _ => pure ()
  let id ← askM State.nextId
  let go ← loadInput va id d
  if go then
    let _ ← launch va l size (.atom op d b c) (scope != 0)
    awaitS d
  else pure ()

/-- BARINIT and BARARR (R166, R167): posted releases at device scope. -/
def sendBarrierPost (va : W64) (op : FOp) : M Unit := do
  let l ← resolveM va 16 .store 0
  needBarrierHome va l
  afterAcquires
  release 4
  let _ ← launch va l 16 op false

/-- An access of the thread to a home is still to be performed there. -/
def State.pendingAt (s : State) (tid pa : Nat) : Bool :=
  s.flights.any fun f => f.tid == tid && f.pending && s.homeOf f.pa == s.homeOf pa

/-- Bytes that an instruction reads as part of itself, at their home: from memory, with errors corrected and poison
consumed; from outside the module in one read; from a register of the management window by `mg`; zeros of a launch window (R359,
R399 to R401, R419, R420).  Data whose flit lost two rails are poison (R403). -/
def readHome (pa size : Nat) (mg : Nat → State → W64 × State) : M (List Byte) := fun s =>
  let x := s.crossLink (s.linkOf s.cur.core pa)
  if x.1 then dieM (x.2.correct pa size) else
  let s := x.2
  match regionOf pa with
  | .launch _ _ => .ok (natLe size 0, s)
  | .mgmt off => let r := mg off s; .ok (natLe size r.1.toNat, r.2)
  | .host _ => .ok (s.outsideBytes pa size)
  | .peer _ => .ok (s.outsideBytes pa size)
  | _ =>
    let s := s.correct pa size
    if s.poisoned pa size then dieM s else .ok (readBytes s.mem pa size, s)

/-- A line that a command stopped into an image leaves absent is read through by a thread at S while a slot of its core is
quiesced (R388). -/
def State.throughImage (s : State) (c pa : Nat) (privS : Bool) : Bool :=
  privS && (match find s.absent (pa / 64) with | some (_, _, image) => image | none => true) && (upto 0 16).any fun k => (s.slot c k).quiesced

/-- A read that is part of its instruction (R337, R364): after the thread's earlier accesses to that home, of a present
line or one that a load reads through (R388), as an access that the thread sends (R408, R411). -/
def readNow (va : W64) (size align : Nat) (mg : Nat → State → W64 × State) : M (List Byte) := do
  let l ← resolveM va align .load 0
  afterAcquires
  (fun s =>
    if s.pendingAt s.me.tid l.pa then .error (.park 3)
    else if !(s.present l.pa || s.throughImage s.cur.core l.pa s.me.privS) then .error (.park 5)
    else if !s.homeTakes s.cur.core l.pa s.me.queued then .error (.arrive l.pa 3)
    else .ok ((), (s.noteSend va l.pa size (.ld false 0)).takeAt s.cur.core l.pa (s.me.queued.getD 0)))
  readHome l.pa size mg

/-- What a read of another size than 8 bytes gives through the management window: zero (R419). -/
def mgmtZero (_ : Nat) (s : State) : W64 × State := (0, s)

/-- FENCE (R164): the thread waits until every earlier access in the scope's domain has been performed. -/
def fenceM (scope : Nat) : M Unit := release scope

end Sys2Proof.Machine
end

