-- ==== Sys2Proof/Machine/Perform.lean ====
section
/-! DEFINITION. Accesses performed at their homes (chapters 06 and 07): which access may perform, what it does in one step,
the wake chains, the returning value, the withdrawal of a wait. -/

namespace Sys2Proof.Machine

/-! ### Banks and their formats (R64, R93, R115) -/

/-- The task of core `c` that holds physical bank `b`, if any. -/
def Core.bankOwner (x : Core) (b : Nat) : Option Nat := (upto 0 16).find? fun h => let t := look {} x.tasks h; t.live && t.banks.contains b

/-- The BFMT that governs a physical address: that of the task that holds the bank; RAW elsewhere (R115). -/
def State.bfmtAt (s : State) (pa : Nat) : W64 :=
  match regionOf pa with
  | .scratch c off => if ((s.core c).bankOwner (off / 4096)).isSome then look 0 (s.core c).bfmt (off / 4096) else 0
  | _ => 0

/-- The format and the signed scale of a BFMT value (R93). -/
def bfmtFmt (v : W64) : Fmt := Fmt.ofCode (fieldN v 0 3)
/-- The scale. -/
def bfmtScale (v : W64) : Int := toSigned 8 (fieldN v 8 8)

/-- Whether a write from core `src` carrying `ti` is discarded at its home: a tapered bank of another core under another
TOPINF (R101). -/
def State.discards (s : State) (src : Nat) (ti : Bool) (pa : Nat) : Bool :=
  match regionOf pa with
  | .scratch c _ => decide (c ≠ src) && (bfmtFmt (s.bfmtAt pa)).tapered && ti != (s.core c).topinf
  | _ => false

/-- A discarded write: the line's presence bit is set and the bank's owner gets an FMTMISMATCH record (R101, R379). -/
def State.discardWrite (s : State) (src pa : Nat) : State :=
  let s := { s with absent := del s.absent (pa / 64) }
  match regionOf pa with
  | .scratch c off =>
    match (s.core c).bankOwner (off / 4096) with
    | some h => s.send (.fmt c h (w64 pa) (w64 (1 + src * 256)) none)
    | none => s
  | _ => s

/-! ### One access at its home -/

/-- The value that a load of a width extends to 64 bits (R155). -/
def extend (signed : Bool) (size x : Nat) : W64 := if signed then sextN (8 * size) x else w64 x

/-- The new memory value of an atomic, none when no write occurs, and the flags of AFADD (R162, R163). -/
def atomNew (op size m b c : Nat) : Option Nat × Flags :=
  let w := 8 * size
  let lim := 2 ^ w
  let b := b % lim
  let sm := toSigned w m
  let sb := toSigned w b
  match op with
  | 0 => (some ((m + b) % lim), 0)
  | 1 => (some (Nat.land m b), 0)
  | 2 => (some (Nat.lor m b), 0)
  | 3 => (some (Nat.xor m b), 0)
  | 4 => (some (if sm ≤ sb then m else b), 0)
  | 5 => (some (if sm ≤ sb then b else m), 0)
  | 6 => (some (if m ≤ b then m else b), 0)
  | 7 => (some (if m ≤ b then b else m), 0)
  | 8 => (some b, 0)
  | 9 => (if m = c % lim then some b else none, 0)
  | _ => let r := fadd .rne false m b; (some r.1, r.2)

/-- PHASE of a barrier object has passed `ph` (R130). -/
def phasePassed (p ph : Nat) : Bool := let d := (p + 65536 - ph % 65536) % 65536; decide (1 ≤ d) && decide (d ≤ 32768)

/-- A barrier object's fields (R128). -/
structure BarObj where
  phase : Nat
  expect : Nat
  arrived : Nat
  flags : Nat
  ebytes : Nat
  pend : Nat
  deriving DecidableEq, Repr

/-- Reads a barrier object. -/
def State.barrier (s : State) (pa : Nat) : BarObj :=
  ⟨s.loadN pa 2, s.loadN (pa + 2) 2, s.loadN (pa + 4) 2, s.loadN (pa + 6) 2, s.loadN (pa + 8) 4, s.loadN (pa + 12) 4⟩

/-- The bytes of a barrier object. -/
def BarObj.bytes (b : BarObj) : List Byte :=
  natLe 2 b.phase ++ natLe 2 b.expect ++ natLe 2 b.arrived ++ natLe 2 b.flags ++ natLe 4 b.ebytes ++ natLe 4 b.pend

/-- Writes a barrier object's bytes; arrivals leave the full/empty bits unchanged (R165). -/
def State.putBarrier (s : State) (pa : Nat) (b : BarObj) : State :=
  { s with mem := writeBytes s.mem pa b.bytes }.clearPoison pa 16

/-- One arrival with `n` bytes (R129). -/
def BarObj.arrive (b : BarObj) (n : Nat) : BarObj :=
  let b := if b.pend < n then { b with flags := b.flags ||| 2, pend := 0 } else { b with pend := b.pend - n }
  let b := { b with arrived := (b.arrived + 1) % 65536 }
  if b.arrived = b.expect then
    { b with flags := b.flags / 2 * 2 + (if b.pend = 0 then 0 else 1), phase := (b.phase + 1) % 65536, arrived := 0, pend := b.ebytes }
  else b

/-- The words of a synchronising access are in the state that it waits for (R156). -/
def State.feReady (s : State) (f : Flight) : Bool :=
  match f.op with
  | .ldSync .. => (wordsOf f.pa f.size).all fun w => s.fullAt (4 * w)
  | .stfe _ => (wordsOf f.pa f.size).all fun w => !s.fullAt (4 * w)
  | .barwait ph => phasePassed (s.barrier f.pa).phase ph
  | _ => true

/-- Replaces the access with id `f.id`. -/
def State.setFlight (s : State) (f : Flight) : State := { s with flights := s.flights.map fun g => if g.id = f.id then f else g }
/-- Removes the access with an id. -/
def State.dropFlight (s : State) (id : Nat) : State := { s with flights := s.flights.filter fun g => g.id != id }
/-- The access has been performed; its value returns. -/
def State.answer (s : State) (f : Flight) (v : W64) (fl : Flags) (p : Bool) : State := s.setFlight { f with stage := .returning v fl p }

/-- Sets every word of an access empty (R156). -/
def State.emptyWords (s : State) (pa n : Nat) : State := { s with empty := (wordsOf pa n).foldl (fun l w => insNat w l) s.empty }

/-- A synchronising load, STFE or BARWAIT whose condition holds is performed (R156, R168). -/
def State.performWaiter (s : State) (f : Flight) : State :=
  match f.op with
  | .ldSync take _ =>
    let s := s.correct f.pa f.size
    let v := extend (f.size == 4) f.size (s.loadN f.pa f.size)
    let p := s.poisoned f.pa f.size
    let s := if take then s.emptyWords f.pa f.size else s
    s.answer f v 0 p
  | .stfe v =>
    if s.discards f.core f.topinf f.pa then (s.discardWrite f.core f.pa).answer f 0 0 false
    else (s.storeAt f.pa (natLe f.size v.toNat)).answer f 0 0 false
  | .barwait _ => s.answer f 0 0 false
  | _ => s

/-- Place in park order of a waiting access. -/
def Flight.order (f : Flight) : Option Nat := match f.stage with | .waiting o _ => some o | _ => none

/-- The words that a waiting access stands at. -/
def Flight.words (f : Flight) : List Nat := wordsOf f.pa f.size

/-- The oldest waiter on any of some words, or on an object, whose condition holds (R158, R168).  DESIGN CHOICE: the chain performs a
wait that stands on a word's list though a claim has made the line absent since; R139 orders presence before the full/empty bit for
an access that arrives, and says nothing of one that waits already (log entry 64). -/
def State.oldestReady (s : State) (ws : List Nat) : Option Flight :=
  (s.flights.filter fun f => f.order.isSome && (f.words.any fun w => ws.contains w) && s.feReady f).foldl
    (fun b f => match b with
      | none => some f
      | some g => if f.order.getD 0 < g.order.getD 0 then some f else b) none

/-- The wake chain of some words of a home: the oldest wait whose condition holds is performed, and again, until none is
left; the words that a performed wait changes join the chain (R158, R160). -/
def State.wakeChain (s : State) (ws : List Nat) (fuel : Nat) : State :=
  match fuel with
  | 0 => s
  | n + 1 =>
    match s.oldestReady ws with
    | none => s
    | some f => State.wakeChain (s.performWaiter f) (ws ++ f.words) n

/-- The wake chain of every word that bytes `pa` to `pa + n - 1` touch; entries of the wait table that it frees take waits
from the overflow queue. -/
def State.wake (s : State) (pa n : Nat) : State :=
  if s.flights.any fun f => f.order.isSome then
    let s := s.wakeChain (wordsOf pa n) s.flights.length
    match s.homeOf pa with
    | some h => s.rebalance h
    | none => s
  else s

/-- A waiting access registers at the tail of its word's list: in the table when its word has an entry, or when the overflow
queue is empty and an entry is free, else in the queue (R160); a wait on a doubleword stands under its first word (log entry 63). -/
def State.register (s : State) (f : Flight) : State :=
  let home := (s.homeOf f.pa).getD homeMgmt
  let words := s.tableWords home
  let queued := (s.overflowHead home).isSome
  let toQueue := !words.contains (f.pa / 4) && (queued || decide (256 ≤ words.length))
  { s with nextId := s.nextId + 1 }.setFlight { f with stage := .waiting s.nextId toQueue }

/-- SPTAG of a line: PRES and FULL (R141). -/
def State.tagOf (s : State) (pa : Nat) : W64 :=
  let base := pa / 64 * 64
  w64 ((upto 0 16).foldl (fun a i => a + (if s.fullAt (base + 4 * i) then 2 ^ i else 0)) (if s.present pa then 65536 else 0))

/-- Writes FULL of a line and runs the wake chain of each word (R141). -/
def State.putTag (s : State) (pa : Nat) (v : W64) : State :=
  let base := pa / 64 * 64
  let s := (upto 0 16).foldl (fun s i => s.setFull (base + 4 * i) (bitAt v i)) s
  s.wake base 64

/-- An access reads a line through the claim of a command that was stopped into an image (R388). -/
def State.readsThrough (s : State) (f : Flight) : Bool :=
  s.throughImage f.core f.pa f.privS && (match f.op with | .ld .. => true | .vld .. => true | _ => false)

/-- The lines of a matrix command's pieces at one home are all present (R262). -/
def MxCmd.linesAt (q : MxCmd) (home : Nat) : List Nat :=
  ((q.pieces.filter fun p => p.1 == home).map fun p => p.2.2.2.2 / 64).eraseDups

/-- The matrix command with an id on a core. -/
def Core.mxCmd (x : Core) (id : Nat) : Option MxCmd := x.mx.find? fun q => q.id == id

/-- Tiles and accumulators that a command reads and writes, as numbers: tile t as t, accumulator c as 8 + c. -/
def MxCmd.reads (q : MxCmd) : List Nat :=
  match q.kind with
  | .mma => [q.ta, q.tb, 8 + q.acc]
  | .spmma => [q.ta, q.tb, 8 + q.acc]
  | .spmmat => [q.ta, q.tb, 8 + q.acc]
  | .mxrun => [q.ta, q.tb, 8 + q.acc]
  | .tst => [q.ta]
  | .tquant => [q.ta]
  | .had => [q.ta]
  | .accrd => [8 + q.acc]
  | .accst => [8 + q.acc]
  | .tld => []
  | .tzero => []
  | .acczero => []
/-- What it writes. -/
def MxCmd.writes (q : MxCmd) : List Nat :=
  match q.kind with
  | .mma => [8 + q.acc]
  | .spmma => [8 + q.acc]
  | .spmmat => [8 + q.acc]
  | .mxrun => [8 + q.acc]
  | .acczero => [8 + q.acc]
  | .tld => [q.ta]
  | .tzero => [q.ta]
  | .had => [q.ta]
  | .tst => []
  | .tquant => []
  | .accrd => []
  | .accst => []

/-- Two commands touch a common resource: the engine does not reorder them (R257). -/
def MxCmd.conflicts (a b : MxCmd) : Bool := (a.reads ++ a.writes).any fun r => b.reads.contains r || b.writes.contains r

/-- No earlier command of the core's issue order conflicts with a command (R257). -/
def Core.mxClear (x : Core) (q : MxCmd) : Bool := (x.mx.takeWhile fun p => p.id != q.id).all fun p => !p.conflicts q

/-- The commands of the transfer path (R257). -/
def MxKind.transfer (k : MxKind) : Bool :=
  match k with
  | .tld => true
  | .tst => true
  | .tzero => true
  | .tquant => true
  | .accrd => true
  | .accst => true
  | .acczero => true
  | .mma => false
  | .spmma => false
  | .spmmat => false
  | .had => false
  | .mxrun => false

/-- Accesses of a command that are still to be performed. -/
def State.mxLeft (s : State) (p : MxCmd) : List Flight := s.flights.filter fun g => p.flights.contains g.id && g.pending

/-- The lines that an access of a command needs at its home are present (R124). -/
def State.mxPresent (s : State) (p : MxCmd) (g : Flight) : Bool :=
  match g.op with
  | .tileLoad _ => (p.linesAt ((s.homeOf g.pa).getD 0)).all fun l => s.present (64 * l)
  | _ => s.present g.pa

/-- Whether access `g` of a thread, sent before `f`, keeps `f` back: it is still to be performed at the same home (R178 item 1),
and is no element of the same vector load that waits for its line (R251). -/
def State.keepsBack (s : State) (g f : Flight) : Bool :=
  g.tid == f.tid && (g.stage == .sent || g.stage == .held) && s.homeOf g.pa == s.homeOf f.pa &&
    !(g.seq == f.seq && !s.present g.pa && (match g.op with | .vld .. => true | _ => false))
/-- An earlier access of its thread keeps an access back (R178 item 1). -/
def State.keptBack (s : State) (f : Flight) : Bool := (s.flights.takeWhile fun g => g.id != f.id).any fun g => s.keepsBack g f

/-- A transfer waits for presence: each access that it has left does, or stands behind one that does (R257). -/
def State.mxWaits (s : State) (p : MxCmd) : Bool := (s.mxLeft p).all fun g => !s.mxPresent p g || s.keptBack g

/-- Transfer `q` depends on an earlier one: they touch one tile or accumulator, or memory that one of them stores to (R257). -/
def MxCmd.dependsOn (q p : MxCmd) : Bool :=
  p.conflicts q || (!(q.kind == .tld && p.kind == .tld) && q.pieces.any fun b => p.pieces.any fun x =>
    decide (b.2.2.2.2 < x.2.2.2.2 + x.2.2.2.1) && decide (x.2.2.2.2 < b.2.2.2.2 + b.2.2.2.1))

/-- Transfer `q` of a core may use the transfer path: no other holds it, and every earlier one that has accesses left waits for
presence, without `q` depending on it.  The one that used the path last holds it while it has accesses left and does not wait for
presence; so what was passed does not go on amid the one that passed it (R257). -/
def State.hasPath (s : State) (c : Nat) (q : MxCmd) : Bool :=
  let x := s.core c
  let busy (p : MxCmd) : Bool := !(s.mxLeft p).isEmpty && !s.mxWaits p
  !q.kind.transfer ||
    (match x.path.bind x.mxCmd with
     | some p => p.id == q.id || !busy p
     | none => true) &&
    (x.path == some q.id ||
      (x.mx.takeWhile fun p => p.id != q.id).all fun p => !p.kind.transfer || (s.mxLeft p).isEmpty || (s.mxWaits p && !q.dependsOn p))

/-- Whether an access may perform now: its turn among its thread's accesses to the home (R178 item 1), its line present
where it asks for that (R124), the core not frozen against arrivals (R412), and a matrix store's operands ready (R257). -/
def State.mayPerform (s : State) (f : Flight) : Bool :=
  let h := s.homeOf f.pa
  f.stage == .sent
    && !s.keptBack f
    && (match h with | some c => !decide (c < 4096) || s.takesArrival f.core c (some f.id) | none => true)
    && (match f.op with
        | .sptagRead _ => true
        | .sptagWrite _ => true
        | .tileLoad id =>
          (match (s.core f.core).mxCmd id with
           | some q => s.hasPath f.core q && s.mxPresent q f
           | none => true)
        | .tileStore id .. =>
          (match (s.core f.core).mxCmd id with
           | some q => s.hasPath f.core q && (s.core f.core).mxClear q
           | none => true) && s.present f.pa
        | _ => s.present f.pa || s.readsThrough f)

/-- What an access outside the module carries (R162, R419, R420). -/
def Flight.outside (f : Flight) : OutKind × List Byte :=
  match f.op with
  | .st v => (.write, natLe f.size v.toNat)
  | .atom op _ b c => (.atomic op c, natLe f.size b.toNat)
  | _ => (.read f.size, [])

/-- An access to the host window, or beyond a peer port, leaves the module: its value comes from outside (R419, R420). -/
def State.performOutside (s : State) (f : Flight) : State :=
  let o : Out := { port := outsidePort f.pa, kind := f.outside.1, addr := s.outsideAddr f.pa, bytes := f.outside.2, topinf := f.topinf }
  let v := Config.freeW64 s.free
  let s := { s.bump with out := s.out ++ [o] }
  match f.op with
  | .ld signed _ => s.answer f (extend signed f.size (v.toNat % 2 ^ (8 * f.size))) 0 false
  | .vld .. => s.answer f (w64 (v.toNat % 2 ^ 32)) 0 false
  | .atom op _ _ _ => s.answer f (sextN (8 * f.size) (v.toNat % 2 ^ (8 * f.size))) (if op = 10 then BitVec.ofNat 5 (Config.freeNat s.free) &&& 0x17 else 0) false
  | _ => s.dropFlight f.id

/-- Performs a memory access of a thread at its home, in one step (R155, R156, R162, R165 to R169, R141).  DEDUCED: no arrival at a
barrier object is discarded under R101, which lists stores, atomics, fills and writes of copies; R129 performs each exactly once (log
entry 65). -/
def State.performAt (s : State) (f : Flight) : State :=
  match f.op with
  | .ld signed _ =>
    let s := s.correct f.pa f.size
    s.answer f (extend signed f.size (s.loadN f.pa f.size)) 0 (s.poisoned f.pa f.size)
  | .vld .. =>
    let s := s.correct f.pa f.size
    s.answer f (w64 (s.loadN f.pa f.size)) 0 (s.poisoned f.pa f.size)
  | .st v =>
    if s.discards f.core f.topinf f.pa then (s.discardWrite f.core f.pa).dropFlight f.id
    else ((s.dropFlight f.id).storeAt f.pa (natLe f.size v.toNat)).wake f.pa f.size
  | .ldSync .. => if s.feReady f then let r := s.performWaiter f; r.wake f.pa f.size else s.register f
  | .stfe _ => if s.feReady f then let r := s.performWaiter f; r.wake f.pa f.size else s.register f
  | .barwait _ => let s := s.correct f.pa 16; if s.feReady f then s.performWaiter f else s.register f
  | .stff v =>
    if s.discards f.core f.topinf f.pa then (s.discardWrite f.core f.pa).dropFlight f.id
    else ((s.dropFlight f.id).storeAt f.pa (natLe f.size v.toNat)).wake f.pa f.size
  | .feclr => ((s.dropFlight f.id).emptyWords f.pa f.size).wake f.pa f.size
  | .atom op _ b c =>
    let s := s.correct f.pa f.size
    let m := s.loadN f.pa f.size
    let r := atomNew op f.size m b.toNat c.toNat
    let p := s.poisoned f.pa f.size
    let old := sextN (8 * f.size) m
    match r.1 with
    | none => s.answer f old r.2 p
    | some v =>
      if s.discards f.core f.topinf f.pa then (s.discardWrite f.core f.pa).answer f old r.2 p
      else ({ s with mem := writeBytes s.mem f.pa (natLe f.size v) }.clearPoison f.pa f.size).answer f old r.2 p
  | .barinit v =>
    let eb := v.toNat / 2 ^ 32
    let b : BarObj := ⟨v.toNat / 2 ^ 16 % 2 ^ 16, v.toNat % 2 ^ 16, 0, 0, eb, eb⟩
    if s.discards f.core f.topinf f.pa then (s.discardWrite f.core f.pa).dropFlight f.id
    else (((s.dropFlight f.id).putBarrier f.pa b).fillWords f.pa 16).wake f.pa 16
  | .bararr n =>
    let s := s.correct f.pa 16
    ((s.dropFlight f.id).putBarrier f.pa ((s.barrier f.pa).arrive n)).wake f.pa 16
  | .barrd _ =>
    let s := s.correct f.pa 16
    let b := s.barrier f.pa
    s.answer f (w64 (b.phase + b.arrived * 2 ^ 16 + b.pend * 2 ^ 32)) 0 (s.poisoned f.pa 16)
  | .sptagRead _ => s.answer f (s.tagOf f.pa) 0 false
  | .sptagWrite v => (s.putTag f.pa v).answer f 0 0 false
  | _ => s

/-! ### Writes of the module's own devices -/

/-- Bytes cut at the ends of their lines. -/
def cutLines (pa : Nat) (l : List Byte) (fuel : Nat) : List (Nat × List Byte) :=
  match fuel with
  | 0 => []
  | n + 1 => if l.isEmpty then [] else let m := 64 - pa % 64; (pa, l.take m) :: cutLines (pa + m) (l.drop m) n

/-- Something that reaches a home from outside the cores and cannot be performed there yet waits, in its home's queue where that is
frozen (R124, R412). -/
def State.waitOutside (s : State) (pa : Nat) (i : Ext) : State :=
  { s with ext := put s.ext s.nextId i, nextId := s.nextId + 1 }.arrives 4096 pa s.nextId

/-- An ordinary write inside one line by a device of the module, or by core `src` for one: a peer port carries it away, and a launch
window counts and refuses it (R359, R420); DESIGN CHOICE: the host window, which takes no writes (R419), and the management window,
which reaches no register with it, drop it (log entry 66).  It waits at an absent line and at a frozen home. -/
def State.devLine (s : State) (src pa : Nat) (l : List Byte) : State :=
  match regionOf pa with
  | .host _ => s
  | .mgmt _ => s
  | .launch h _ => s.modHub h fun x => { x with drops := satAt 0xFFFF (x.drops + 1) }
  | .peer p => { s with out := s.out ++ [{ port := p, kind := .write, addr := pa, bytes := l }] }
  | _ =>
    if s.present pa && s.homeOpen src pa then ((s.storeAt pa l).wake pa l.length).countArrival src pa
    else s.waitOutside pa (.host pa l.length (some l))

/-- Ordinary writes of a device of the module at consecutive addresses. -/
def State.devWrite (s : State) (src pa : Nat) (l : List Byte) : State :=
  (cutLines pa l (l.length / 64 + 2)).foldl (fun s x => s.devLine src x.1 x.2) s

/-! ### Values that return (R152, R161) -/

/-- Other lanes of the vector load that an access belongs to are still under way. -/
def State.moreLanes (s : State) (f : Flight) (d : Nat) : Bool :=
  s.flights.any fun g => g.id != f.id && g.tid == f.tid && (match g.op with | .vld e _ => e == d | _ => false)

/-- Fills the load-value queue entry that an access reserved (R397). -/
def lvFillIn (l : List LvEnt) (id d : Nat) (v fl : W64) : List LvEnt :=
  match l with
  | [] => []
  | e :: r =>
    if e.flight = some id then { e with vals := some [v, fl] } :: r.filter fun e => !(e.at_.isSome && e.key == fillKey d) else e :: lvFillIn r id d v fl

/-- The value and the flags of an access into s[d] enter the place that it reserved.  They follow the fills of s[d] that came while it
was under way, and stand (R212, R397). -/
def Slot.lvFill (t : Slot) (id d : Nat) (v fl : W64) : Slot := { t with lvq := lvFillIn t.lvq id d v fl }

/-- The scalar register that an access brings a value to. -/
def FOp.dest (o : FOp) : Nat :=
  match o with
  | .ld _ d => d
  | .ldSync _ d => d
  | .atom _ d _ _ => d
  | .barrd d => d
  | .sptagRead d => d
  | _ => 0

/-- A value returns to its thread, if the thread is still there: the register is written and set full, AFADD's flags enter
FSTAT, a parked synchronising access completes (R152, R163, R329).  A value for an output port waits while the port has no space
(R207, R373). -/
def State.valueReturn (s : State) (f : Flight) (v : W64) (fl : Flags) (p : Bool) : State :=
  let t := s.slot f.core f.slot
  if !t.live || t.tid != f.tid then s.dropFlight f.id else
  if !s.destReady f.core f.slot f.op.dest then s else
  let s := s.dropFlight f.id
  let free (d : Nat) (t : Slot) : Slot := { t with sAwait := setBit t.sAwait d false }.lvFill f.id d v (fl.setWidth 64)
  let give (s : State) (d : Nat) : State := (s.modSlot f.core f.slot (free d)).putDest f.core f.slot d v p
  let waits : Bool := match t.wait with | .busy _ (.access id) => id == f.id | _ => false
  match f.op with
  | .ld _ d => give s d
  | .atom _ d _ _ => ((give s d).modSlot f.core f.slot fun t => t.raise fl).countIn f.core 29 (some f.slot) ((upto 0 5).filter (bitAt fl)).length
  | .barrd d => give s d
  | .vld d lane =>
    let last := !s.moreLanes f d
    s.modSlot f.core f.slot fun t => { t.lvFill f.id 0 v 0 with
      vr := put t.vr (16 * d + lane) (w32 v.toNat),
      vPoison := if p then setBit t.vPoison d true else t.vPoison,
      vFull := if last then setBit t.vFull d true else t.vFull,
      vAwait := if last then setBit t.vAwait d false else t.vAwait }
  | .ldSync _ d => if waits then (give s d).complete f.core f.slot (fun t => t) else give s d
  | .sptagRead d => if waits then (give s d).complete f.core f.slot (fun t => t) else s
  | _ => match t.wait with
    | .busy _ (.access id) => if id = f.id then s.complete f.core f.slot (fun t => t) else s
    | _ => s

/-- LOAD_VALUE_RETURN: the value of a performed access reaches its thread. -/
def State.returnValue (s : State) (id : Nat) : State :=
  match s.flights.find? fun f => f.id == id with
  | some f => match f.stage with
    | .returning v fl p => s.valueReturn f v fl p
    | _ => s
  | none => s

/-- WAIT_WITHDRAWAL: a wait that a trap abandons leaves its home's list (R161). -/
def State.withdrawWait (s : State) (id : Nat) : State :=
  match s.flights.find? fun f => f.id == id with
  | some f => match f.stage with
    | .returning .. => s
    | _ => (match s.homeOf f.pa with | some h => (s.dropFlight id).rebalance h | none => s.dropFlight id)
  | none => s

end Sys2Proof.Machine
end

