-- ==== Sys2Proof/Machine/Fill.lean ====
section
/-! DEFINITION. Register targets and fills (R211 to R213), the shared g registers' wake chain (R236), and replies to a
register or memory target (R367). -/

namespace Sys2Proof.Machine

/-! ### Register targets (R211) -/

/-- The descriptor is well formed (R211). -/
def targetOk (d : W64) : Bool :=
  if bitAt d 63 then fieldN d 57 6 == 0
  else
    let file := fieldN d 20 2
    fieldN d 28 35 == 0 && decide (file ≤ 1) && (file == 0 || (decide (fieldN d 22 6 ≤ 7) && fieldN d 12 4 == 0)) && coreExists (fieldN d 0 12)

/-! ### Shared registers (R203, R204, R235, R236) -/

/-- The key of g[n] in a pair's load-value queue. -/
def sharedKey (n : Nat) : W64 := w64 (2 ^ 60 + 128 + n)

/-- g[n] of a core takes a value and becomes full; `plain` records the value that a plain GST replaces, with its cycle
(R204). -/
def State.putG (s : State) (c n : Nat) (v : W64) (plain : Bool) : State :=
  let now := s.cyc (dieOf c)
  s.modCore c fun x => { x with
    gr := put x.gr n v, gFull := setBit x.gFull n true, gErr := del x.gErr n,
    gOld := if plain then put x.gOld n ((look 0 x.gr n, now) :: (look [] x.gOld n).filter fun o => decide (now < o.2 + 4)) else put x.gOld n [] }

/-- A read of g[n] finds its errors (R399, R400): a wrong bit is corrected and counted, more leave a mark on the value read. -/
def State.readMark (s : State) (c n : Nat) : Bool × State :=
  match find (s.core c).gErr n with
  | none => (false, s)
  | some true => (true, { s with relUeev := true })
  | some false => (false, (s.modCore c fun x => { x with gErr := del x.gErr n }).corrected c 1)

/-- A wait of g[n] is performed (R236): the value goes to its slot, which goes on once an output port has space for it. -/
def State.performG (s : State) (c : Nat) (w : GWait) : State :=
  let s := s.modCore c fun x => { x with gWait := x.gWait.erase w }
  if w.kind = 2 then (s.putG c w.reg w.v false).complete c w.slot fun t => t
  else
    let v := look 0 (s.core c).gr w.reg
    let m := s.readMark c w.reg
    let s := m.2
    let s := if w.kind = 1 then s.modCore c fun x => { x with gFull := setBit x.gFull w.reg false, gOld := put x.gOld w.reg [] } else s
    let s := s.modSlot c w.slot fun t => t.lvNote (sharedKey w.reg) v
    if s.destReady c w.slot w.d then (s.putDest c w.slot w.d v m.1).complete c w.slot fun t => t
    else s.modSlot c w.slot fun t => { t with wait := .busy 3 (.divide w.d v m.1) }

/-- The condition of a wait of a g register: full for GLD and GLDFE, empty for GSTFE. -/
def Core.gReady (x : Core) (w : GWait) : Bool := bitAt x.gFull w.reg != (w.kind == 2)

/-- The wake chain of g[n]: the oldest wait whose condition holds, again and again (R236). -/
def State.gWake (s : State) (c n fuel : Nat) : State :=
  match fuel with
  | 0 => s
  | f + 1 =>
    match (s.core c).gWait.find? fun w => w.reg == n && (s.core c).gReady w with
    | none => s
    | some w => State.gWake (s.performG c w) c n f

/-- A step that changes g[n] runs its wake chain. -/
def State.gChain (s : State) (c n : Nat) : State := s.gWake c n ((s.core c).gWait.length + 1)

/-! ### Fills (R212, R213) -/

/-- The run of GOWN against a task (R203). -/
def Core.gAllows (x : Core) (task : Nat) : Bool := bitAt x.gown 4 || fieldN x.gown 0 4 == task

/-- Counts a dropped fill and keeps its drop record while fewer than 16 wait (R212, R396). -/
def State.dropFill (s : State) (c : Nat) (d v : W64) : State :=
  s.modCore c fun x => { x with filldrop := x.filldrop + 1, dropq := if x.dropq.length < 16 then x.dropq ++ [(d, v)] else x.dropq }

/-- A fill reaches its target core (R212), its value perhaps with a poison mark, which the register takes over (R400, R403). -/
def State.fillArrive (s : State) (d v : W64) (ti : Bool) (src : Nat) (bad : Bool) : State :=
  let c := fieldN d 0 12
  let k := fieldN d 12 4
  let task := fieldN d 16 4
  let reg := fieldN d 22 6
  let g := fieldN d 20 2 == 1
  let x := s.core c
  let t := s.slot c k
  if (!g && !(t.live && t.task == task)) || (g && !x.gAllows task) then s.dropFill c d v
  else if ti != x.topinf then s.send (.fmt c task d (w64 (2 + src * 256)) (if g then none else some k))
  else if g then ((s.putG c reg v false).modCore c fun x => if bad then { x with gErr := put x.gErr reg true } else x).gChain c reg
  else if reg = 0 then s
  else (s.modSlot c k fun t =>
    let t := (t.putS reg v).lvFilled reg v
    if bad then { t with sPoison := setBit t.sPoison reg true } else t).landFills c k

/-- Sends a fill: one whose target is a slot of the sender's own core is performed before the sender's next instruction
(R237). -/
def State.sendFill (s : State) (d v : W64) (ti : Bool) (src : Nat) : State :=
  if fieldN d 0 12 = src then s.fillArrive d v ti src false else s.send (.fill d v ti src)

end Sys2Proof.Machine
end

