-- ==== Sys2Proof/Machine/RegState.lean ====
section
/-! DEFINITION. Full/empty state of registers, shared registers, RFILL and queue control (major 0x0D, R231 to R237, R373). -/

namespace Sys2Proof.Machine

/-- SETE and SETF (R231): nothing for s0 and for an enabled queue port. -/
def setFullS (d : Nat) (b : Bool) : M Unit := do
  let t ← getMe
  if d = 0 ∨ t.isPort d then pure ()
  else do
    freeS d
    modMe fun t => { t with sFull := setBit t.sFull d b }

/-- SETE (R231). -/
def execSete (d : BitVec 6) (s : State) : Result := run (setFullS d.toNat false) s
/-- SETF (R231). -/
def execSetf (d : BitVec 6) (s : State) : Result := run (setFullS d.toNat true) s

/-- The bit that TSTF and RDFE report for port n of the running slot (R202). -/
def State.portBit (s : State) (cfg : W64) (n : Nat) : Bool :=
  if portOut cfg n then s.portSpace s.cur.core n else !(look {} s.myCore.ports n).here.isEmpty

/-- Bit i of class 0: full, and awaiting nothing (R202, R232, R233). -/
def State.scalarBit (s : State) (i : Nat) : Bool :=
  let t := s.me
  if i = 0 then true else if t.isPort i then s.portBit t.qcfg (i - 60) else bitAt t.sFull i && !bitAt t.sAwait i
/-- Bit i of class 1. -/
def State.vectorBit (s : State) (i : Nat) : Bool := bitAt s.me.vFull i && !bitAt s.me.vAwait i

/-- A number from bits. -/
def bitsToNat (f : Nat → Bool) (n : Nat) : Nat :=
  match n with
  | 0 => 0
  | k + 1 => bitsToNat f k + (if f k then 2 ^ k else 0)

/-- The key of a full/empty vector in a pair's load-value queue. -/
def stateKey : W64 := w64 (2 ^ 60 + 256)

/-- TSTF (R232). -/
def execTstf (d a : BitVec 6) (s : State) : Result :=
  run (do let v ← input stateKey (askM fun s => if s.scalarBit a.toNat then 1 else 0)
          writeS d v) s
/-- VTSTF (R232). -/
def execVtstf (d : BitVec 6) (v : BitVec 5) (s : State) : Result :=
  run (do let v ← input stateKey (askM fun s => if s.vectorBit v.toNat then 1 else 0)
          writeS d v) s
/-- VSETE (R231). -/
def execVsete (d : BitVec 5) (s : State) : Result :=
  run (do freeV d.toNat
          modMe fun t => { t with vFull := setBit t.vFull d.toNat false }) s

/-- A trap with PERM where no address takes part (R208, R239): the manual states ESTAT 0, a failed privilege, and leaves
EADDR, for which the free value stands. -/
def permNoAddr {α : Type} : M α := fun s =>
  .error (.fin (s.bump.trapEntry s.cur.core s.cur.slot 5 s.me.pc (Config.freeW64 s.free) 0))

/-- The GOWN check of R203. -/
def needGown : M Unit := fun s =>
  if s.me.privS || s.myCore.gAllows s.me.task then .ok ((), s) else permNoAddr s

/-- The full/empty vector of a class (R202). -/
def State.feVector (s : State) (c : Nat) : W64 :=
  if c = 0 then w64 (bitsToNat s.scalarBit 64)
  else if c = 1 then w64 (bitsToNat s.vectorBit 32)
  else w64 s.myCore.gFull.toNat

/-- RDFE (R233).  DEDUCED: that it never parks is said of the states it reads; its destination is written as R220 has every
instruction of the chapter write one, so it waits while s[d] awaits the thread's own access, and while an output port that it names
has no space (log entry 67). -/
def execRdfe (d c : BitVec 6) (s : State) : Result :=
  run (do if c.toNat = 2 then needGown else pure ()
          if 2 < c.toNat then illegalM else pure ()
          let v ← input stateKey (askM fun s => s.feVector c.toNat)
          writeS d v) s

/-- Class 0 under WRFE: s0 and enabled ports keep their bits (R234). -/
def Slot.wrfeS (t : Slot) (v : W64) : Slot :=
  { t with sFull := w64 (bitsToNat (fun i => if i = 0 ∨ t.isPort i then bitAt t.sFull i else bitAt v i) 64) }

/-- WRFE of class 2: the bits, then the wake chain of each register whose bit changes (R234). -/
def State.wrfeG (s : State) (c : Nat) (v : W64) : State :=
  let old := (s.core c).gFull
  let s := s.modCore c fun x => { x with gFull := v.setWidth 8 }
  (upto 0 8).foldl (fun s i => if bitAt old i ≠ bitAt v i then s.gChain c i else s) s

/-- WRFE (R234). -/
def execWrfe (c a : BitVec 6) (s : State) : Result :=
  run (do if c.toNat = 2 then needGown else pure ()
          if 2 < c.toNat then illegalM else pure ()
          let v ← readS a
          let t ← getMe
          match c.toNat with
          | 0 => if t.sAwait ≠ 0 then parkReg else modMe fun t => t.wrfeS v
          | 1 => if t.vAwait ≠ 0 then parkReg else modMe fun t => { t with vFull := v.setWidth 32 }
          | _ =>
            let go ← output 33 0 8 [v]
            if go then doM fun s => s.wrfeG s.cur.core v else pure ()) s

/-- The value that a GLD reads: within the window of a plain GST, the new value or one that it replaced (R204). -/
def readShared (n : Nat) : M W64 := fun s =>
  let x := s.myCore
  let now := s.cyc (dieOf s.cur.core)
  let old := (look [] x.gOld n).filter fun o => decide (now < o.2 + 4)
  let i := Config.freeNat s.free % (old.length + 1)
  if old.isEmpty then .ok (look 0 x.gr n, s) else .ok (((look 0 x.gr n) :: old.map Prod.fst).getD i 0, s.bump)

/-- Joins the wait list of g[n] (R236). -/
def waitShared {α : Type} (kind n d : Nat) (v : W64) : M α := fun s =>
  let s' := s.modCore s.cur.core fun x => { x with gWait := x.gWait ++ [⟨s.cur.slot, s.me.tid, kind, n, d, v⟩] }
  .error (.busy s' 3 .shared)

/-- GLD, and GLDFE with `take` (R235, R236). -/
def loadShared (d n : Nat) (take : Bool) : M Unit := do
  roomFor d
  let x ← getCore
  let t ← getMe
  let v ← (match t.role with
    | .trailing _ => input (sharedKey n) (pure 0)
    | _ => if bitAt x.gFull n then input (sharedKey n) (if take then pure (look 0 x.gr n) else readShared n)
           else do
             reserveInput (sharedKey n)
             waitShared (if take then 1 else 0) n d 0)
  doM fun s =>
    let m : Bool × State := if t.trails then (false, s) else s.readMark s.cur.core n
    let s := m.2.putDest s.cur.core s.cur.slot d v m.1
    if take && !t.trails then
      (s.modCore s.cur.core fun x => { x with gFull := setBit x.gFull n false, gOld := put x.gOld n [] }).gChain s.cur.core n
    else s

/-- GLD (R235). -/
def execGld (d : BitVec 6) (n : BitVec 3) (s : State) : Result := run (do needGown; loadShared d.toNat n.toNat false) s
/-- GLDFE (R236). -/
def execGldfe (d : BitVec 6) (n : BitVec 3) (s : State) : Result := run (do needGown; loadShared d.toNat n.toNat true) s
/-- GST (R235). -/
def execGst (n : BitVec 3) (a : BitVec 6) (s : State) : Result :=
  run (do needGown
          let v ← readS a
          outputPost 34 (w64 n.toNat) 8 [v] (.gst n.toNat v) fun s => (s.putG s.cur.core n.toNat v true).gChain s.cur.core n.toNat) s
/-- GSTFE (R236): a release at .c. -/
def execGstfe (n : BitVec 3) (a : BitVec 6) (s : State) : Result :=
  run (do needGown
          let v ← readS a
          release 1
          let go ← output 35 (w64 n.toNat) 8 [v]
          let x ← getCore
          if !go then pure ()
          else if bitAt x.gFull n.toNat then waitShared 2 n.toNat 0 v
          else doM fun s => (s.putG s.cur.core n.toNat v false).gChain s.cur.core n.toNat) s

/-- RFILL (R237): a release at .dev; to memory it acts as STFF.D.dev. -/
def execRfill (a b : BitVec 6) (s : State) : Result :=
  run (do let d ← readS a
          let v ← readS b
          if targetOk d then pure () else resource 13
          if bitAt d 63 then sendPostedSync (w64 (fieldN d 0 57)) 8 (.stff v) 4
          else do
            release 4
            outputPost 36 d 8 [v] (.fill d v) fun s => s.sendFill d v s.myCore.topinf s.cur.core) s

/-- No earlier fill of the same source is on its way to the same core (R212: pair order). -/
def State.fillFirst (s : State) (n : Nat) (d : W64) (src : Nat) : Bool :=
  !(s.msgs.any fun m => decide (m.1 < n) && (match m.2 with
    | .fill e _ _ q => q == src && fieldN e 0 12 == fieldN d 0 12
    | _ => false))

/-- A fill's target leads a pair whose load-value queue is full (R397). -/
def State.pairFull (s : State) (d : W64) : Bool :=
  let t := s.slot (fieldN d 0 12) (fieldN d 12 4)
  fieldN d 20 2 == 0 && (match t.role with | .leading _ => decide (64 ≤ t.lvq.length) | _ => false)

/-- FILL (R212): a fill on its way reaches its target core, which takes it unless it is frozen (R412), or unless the pair it goes to
has no place for it (R397). -/
def execFill (n : Nat) (s : State) : Result :=
  match find s.msgs n with
  | some (.fill d v ti src) =>
    let c := fieldN d 0 12
    .next (if !s.fillFirst n d src then s
           else if !s.takesArrival src c (some n) then s.queueArrival c n
           else if s.pairFull d then s
           else
             let x := ({ s with msgs := del s.msgs n }.takeArrival src c n).crossLink
               (if dieOf src = dieOf c then none else some (dieLink (dieOf src) (dieOf c)))
             x.2.fillArrive d v ti src x.1)
  | _ => .next s

end Sys2Proof.Machine
end

