-- ==== Sys2Proof/Machine/Branch.lean ====
section
/-! DEFINITION. Branches and calls (majors 0x10 to 0x14, R330 to R333). -/

namespace Sys2Proof.Machine

/-- The branch's outcome: an attached subscriber takes the publisher's, whatever its own registers hold (R343). -/
def jump (taken : Bool) (a : W64) : M Unit := do
  let t ← getMe
  let b ← askM fun s => s.cur.bundle
  match t.inStream, b with
  | true, some b => (match b.target with | some x => branchTo x | none => pure ())
  | _, _ => if taken then branchTo a else pure ()

/-- The target of a branch by a signed number of words (R330). -/
def wordsFrom {n : Nat} (pc : W64) (o : BitVec n) : W64 := pc + 4 * o.signExtend 64

/-- A compare-branch (R330). -/
def compareBranch (a b : BitVec 6) (o : BitVec 11) (f : W64 → W64 → Bool) : M Unit := do
  let x ← readS a
  let y ← readS b
  let t ← getMe
  jump (f x y) (wordsFrom t.pc o)

/-- BEQ. -/
def execBeq (a b : BitVec 6) (o : BitVec 11) (s : State) : Result := run (compareBranch a b o fun x y => x == y) s
/-- BNE. -/
def execBne (a b : BitVec 6) (o : BitVec 11) (s : State) : Result := run (compareBranch a b o fun x y => x != y) s
/-- BLT. -/
def execBlt (a b : BitVec 6) (o : BitVec 11) (s : State) : Result := run (compareBranch a b o fun x y => x.slt y) s
/-- BGE. -/
def execBge (a b : BitVec 6) (o : BitVec 11) (s : State) : Result := run (compareBranch a b o fun x y => !x.slt y) s
/-- BLTU. -/
def execBltu (a b : BitVec 6) (o : BitVec 11) (s : State) : Result := run (compareBranch a b o fun x y => x.ult y) s
/-- BGEU. -/
def execBgeu (a b : BitVec 6) (o : BitVec 11) (s : State) : Result := run (compareBranch a b o fun x y => !x.ult y) s

/-- BR (R331). -/
def execBr (o : BitVec 26) (s : State) : Result :=
  run (do let t ← getMe
          jump true (wordsFrom t.pc o)) s
/-- CALL (R331): the link goes to s57. -/
def execCall (o : BitVec 26) (s : State) : Result :=
  run (do let t ← getMe
          writeS 57 (t.pc + 4)
          jump true (wordsFrom t.pc o)) s
/-- JALR (R331): sa is read before sd is written. -/
def execJalr (d a : BitVec 6) (i : BitVec 14) (s : State) : Result :=
  run (do let x ← readS a
          let t ← getMe
          writeS d (t.pc + 4)
          jump true ((x + i.signExtend 64) &&& ~~~ (3 : W64))) s

/-- A mask branch (R333): the condition sees k[n] AND A, and A. -/
def maskBranch (k : BitVec 3) (o : BitVec 11) (f : W16 → W16 → Bool) : M Unit := do
  soundK k
  let t ← getMe
  jump (f (t.mask k &&& t.act) t.act) (wordsFrom t.pc o)

/-- BANY. -/
def execBany (k : BitVec 3) (o : BitVec 11) (s : State) : Result := run (maskBranch k o fun m _ => m != 0) s
/-- BALL. -/
def execBall (k : BitVec 3) (o : BitVec 11) (s : State) : Result := run (maskBranch k o fun m a => m == a) s
/-- BNONE. -/
def execBnone (k : BitVec 3) (o : BitVec 11) (s : State) : Result := run (maskBranch k o fun m _ => m == 0) s
/-- BNALL. -/
def execBnall (k : BitVec 3) (o : BitVec 11) (s : State) : Result := run (maskBranch k o fun m a => m != a) s

/-! ### Divergence-stack entries as doublewords (R334) -/

/-- The doubleword of a stack entry, the layout of DSTK (R334). -/
def DEnt.word (e : DEnt) : W64 := w64 (e.m.toNat + e.e.toNat * 2 ^ 16 + e.kind.toNat * 2 ^ 32)
/-- A stack entry from its doubleword. -/
def DEnt.ofWord (v : W64) : DEnt := ⟨v.setWidth 16, BitVec.ofNat 16 (fieldN v 16 16), BitVec.ofNat 2 (fieldN v 32 2)⟩

end Sys2Proof.Machine
end

