-- ==== Sys2Proof/Machine/Channel.lean ====
section
/-! DEFINITION. Instruction channels (major 0x16, R338 to R351, R428). -/

namespace Sys2Proof.Machine

/-- The thread as its channel names it: core, slot, thread. -/
def State.whoAmI (s : State) : Nat × Nat × Nat := (s.cur.core, s.cur.slot, s.me.tid)

/-- The running thread opens its core's channel (R341). -/
def State.openChannel (s : State) : State :=
  (s.modCore s.cur.core fun x => { x with chan := { open_ := true, slot := s.cur.slot, tid := s.me.tid } }).modSlot s.cur.core s.cur.slot
    fun t => { t with chState := 1, chChan := s.cur.core }

/-- CHPUB (R341, R351). -/
def execChpub (s : State) : Result :=
  run (do let x ← getCore
          let t ← getMe
          checks do
            if x.chan.open_ ∧ x.chan.tid ≠ t.tid then trapM 0x0F 0 1 else pure ()
            if t.chState ≠ 0 then trapM 0x0F 0 2 else pure ()
          let go ← output 50 0 0 []
          doM fun s => s.retire s.cur.core s.cur.slot none
          if go then doM State.openChannel else doM fun s => s.setMe { s.me with chState := 1, chChan := s.cur.core }
          finM) s

/-- CHCLOSE (R341): subscribers go on at the address that follows; closed from a trap handler, at the address that the
handler would return to. -/
def execChclose (s : State) : Result :=
  run (do let t ← getMe
          let go ← output 51 0 0 []
          if t.chState ≠ 1 then pure ()
          else if go then doM fun s => s.closeChannel s.cur.core ((if t.trapped then t.epc else t.pc + 4) &&& ~~~ (3 : W64))
          else modMe fun t => { t with chState := 0 }) s

/-- CHSUB (R342, R351). -/
def execChsub (a : BitVec 6) (s : State) : Result :=
  run (do let t ← getMe
          if t.chState ≠ 0 then trapM 0x0F 0 2 else pure ()
          let v ← readS a
          let c := fieldN v 0 12
          if fieldN v 12 52 ≠ 0 ∨ !coreExists c then trapM 0x0F 0 3 else pure ()
          freeS a.toNat
          let go ← output 53 0 0 [v]
          let ch ← askM fun s => (s.core c).chan
          if !go ∨ !ch.open_ then do
            let st ← input (chanKey a.toNat) (pure 1)
            writeS a st
          else if 64 ≤ ch.subs.length then do
            let st ← input (chanKey a.toNat) (pure 2)
            writeS a st
          else do
            reserveInput (chanKey a.toNat)
            modMe fun t => { t with chState := 3, chChan := c }
            doM fun s => s.modCore c fun x => { x with chan := { x.chan with joining := x.chan.joining ++ [s.whoAmI] } }
            busyM 7 (.chsub a.toNat)) s

/-- A waiting thread joins at a CHSYNC, or learns that the channel is full (R342); one of another die joins relocking while either die
steps its clock (R345). -/
def State.join (s : State) (c : Nat) (x : Nat × Nat × Nat) : State :=
  let t := s.slot x.1 x.2.1
  match t.wait with
  | .busy _ (.chsub d) =>
    if t.tid ≠ x.2.2 then s
    else if 64 ≤ (s.core c).chan.subs.length then s.complete x.1 x.2.1 fun t => { (t.putS d 2).lvNote (chanKey d) 2 with chState := 0 }
    else
      let s := s.complete x.1 x.2.1 fun t => (t.putS d 0).lvNote (chanKey d) 0
      let relock := dieOf x.1 != dieOf c && ((s.die (dieOf x.1)).stepping.isSome || (s.die (dieOf c)).stepping.isSome)
      (s.modSlot x.1 x.2.1 fun t => { t with chState := 2, chHold := false }).modCore c fun k =>
        { k with chan := { k.chan with subs := k.chan.subs ++ [x], relock := if relock then k.chan.relock ++ [(x.1, x.2.1)] else k.chan.relock } }
  | _ => s

/-- Every thread that waits for a CHSYNC joins. -/
def State.joinAll (s : State) : State :=
  let l := s.myCore.chan.joining
  let s := s.modCore s.cur.core fun x => { x with chan := { x.chan with joining := [] } }
  l.foldl (fun s x => s.join s.cur.core x) s

/-- CHSYNC (R342): in the publisher, waiting threads join, and receive the bundles that follow it. -/
def execChsync (s : State) : Result :=
  run (do let t ← getMe
          let go ← output 52 0 0 []
          if go && t.publishes then
            doM fun s => s.passed s.cur.core s.cur.slot s.cur.word none
            doM State.joinAll
            finM
          else pure ()) s

/-- CHUNSUB (R342): in the stream, or issued privately by a subscribed, departed or rejoining thread, it detaches the thread. -/
def execChunsub (s : State) : Result :=
  run (do let t ← getMe
          let _ ← output 54 0 0 []
          if 2 ≤ t.chState then
            let pc := t.pc
            doM fun s => (s.unsubscribe s.cur.core s.cur.slot).setMe { (s.unsubscribe s.cur.core s.cur.slot).me with pc := pc }
          else pure ()) s

/-- CHLEAVE.IF (R346). -/
def execChleaveIf (a : BitVec 6) (o : BitVec 14) (s : State) : Result :=
  run (do let t ← getMe
          if t.chState = 1 then do
            let _ ← output 55 0 0 []
            pure ()
          else do
            let v ← readS a
            let _ ← output 55 0 0 []
            let label := wordsFrom t.pc o
            if v = 0 then pure ()
            else if t.chState = 2 then do
              modMe fun t => { t with chState := 4, chFly := [], chBuf := [], chAt := none, chReports := t.chReports ++ [4] }
              doM fun s => { s with cur := { s.cur with npc := some label } }
            else branchTo label) s

/-- CHRESUB (R347): a release at .dev (R428). -/
def execChresub (a : BitVec 6) (tag : BitVec 14) (s : State) : Result :=
  run (do let t ← getMe
          if t.chState = 1 then trapM 0x0F 0 2 else pure ()
          let v ← readS a
          freeS a.toNat
          let go ← output 56 0 0 [v, w64 tag.toNat]
          let ch ← askM fun s => (s.core t.chChan).chan
          let who ← askM State.whoAmI
          if !go then do
            let st ← input (chanKey a.toNat) (pure 1)
            writeS a st
          else if t.chState ≠ 4 ∨ fieldN v 12 52 ≠ 0 ∨ fieldN v 0 12 ≠ t.chChan ∨ !ch.open_ ∨ !ch.subs.contains who then do
            if t.chState = 0 then pure () else doM fun s => s.unsubscribe s.cur.core s.cur.slot
            let st ← input (chanKey a.toNat) (pure 1)
            writeS a st
          else do
            release 4
            reserveInput (chanKey a.toNat)
            modMe fun t => { t with chState := 5, chTag := tag.toNat, chReports := t.chReports ++ [5] }
            busyM 7 (.chresub a.toNat)) s

/-- What a CHRDV waits for (R347, R428): every attached subscriber has executed every bundle before it, with its accesses
performed, and every departed one is known to be rejoining. -/
def State.rendezvous (s : State) (c : Nat) (pc : W64) : Bool :=
  (s.core c).chan.subs.all fun x =>
    let t := s.slot x.1 x.2.1
    if t.chState = 2 then ((t.chBuf ++ t.chFly).all fun b => b.pc == pc && b.word.toNat / 2 ^ 20 == 0x587) && !s.unperformed t.tid 4
    else t.chState == 5 && t.chReports.isEmpty && (s.core c).chan.rejoin.any fun r => r.1 == x.1 && r.2.1 == x.2.1

/-- A passing CHRDV attaches the rejoining subscribers of its tag at the bundle after it (R347). -/
def State.attachTag (s : State) (c tag : Nat) : State :=
  let ch := (s.core c).chan
  let l := ch.rejoin.filter fun r => r.2.2.2 == tag
  let s := s.modCore c fun x => { x with chan := { x.chan with
    rejoin := x.chan.rejoin.filter fun r => r.2.2.2 != tag, dep := x.chan.dep - l.length } }
  l.foldl (fun s r =>
    match (s.slot r.1 r.2.1).wait with
    | .busy _ (.chresub d) =>
      (s.complete r.1 r.2.1 fun t => (t.putS d 0).lvNote (chanKey d) 0).modSlot r.1 r.2.1 fun t => { t with chState := 2, chTag := 0, chFly := [], chBuf := [] }
    | _ => s) s

/-- CHRDV in the publisher (R347): published at its issue; it then waits, and passes without a second bundle. -/
def execChrdv (tag : BitVec 14) (s : State) : Result :=
  run (do let t ← getMe
          let go ← (if t.rdv.isNone then output 57 0 0 [w64 tag.toNat] else pure true)
          if !go || !t.publishes then pure ()
          else match t.rdv with
          | none =>
            let now ← askM State.time
            let lim := fieldN t.chcfg 0 32
            doM fun s => s.publish s.cur.core { word := s.cur.word, pc := t.pc }
            modMe fun t => { t with rdv := some (if lim = 0 then none else some (now + lim)) }
            doM fun s => (s.setMe { s.me with word := s.cur.word }).tryAgain 7
            finM
          | some _ => do
            let ok ← askM fun s => s.rendezvous s.cur.core t.pc
            if ok then do
              doM fun s => s.retire s.cur.core s.cur.slot none
              doM fun s => s.attachTag s.cur.core tag.toNat
              finM
            else parkM 7) s

/-- RENDEZVOUS_TIMEOUT (R347): RDVTMO expires; the CHRDV passes and sets TMO. -/
def execRendezvousTimeout (core slot : Nat) (s : State) : Result :=
  let t := s.slot core slot
  match t.rdv with
  | some (some d) =>
    if d ≤ s.time ∧ ¬ t.halted then
      let s := (s.retire core slot none).attachTag core (t.word.toNat % 2 ^ 14)
      .next (s.modSlot core slot fun t => { t with chTmo := true })
    else .next s
  | _ => .next s

/-- BUNDLE_ARRIVAL (R344): a bundle in transit enters a subscriber's buffer of 32; a departed thread discards it. -/
def execBundleArrival (core slot : Nat) (s : State) : Result :=
  let t := s.slot core slot
  match t.chFly with
  | b :: r =>
    if (s.core t.chChan).chan.relock.any fun p => p.1 == core && p.2 == slot then .next s
    else if t.chState ≠ 2 then .next (s.setSlot core slot { t with chFly := r })
    else if t.chBuf.length < 32 then .next (s.setSlot core slot { t with chFly := r, chBuf := t.chBuf ++ [b] })
    else .next s
  | [] => .next s

/-- CHANNEL_HOLD (R344): a hold, raised at 16 waiting bundles and dropped below, reaches the publisher. -/
def execChannelHold (core slot : Nat) (s : State) : Result :=
  let t := s.slot core slot
  let h := t.chState == 2 && decide (16 ≤ t.chBuf.length)
  let who := (core, slot, t.tid)
  if h = t.chHold then .next s else
  let s := s.setSlot core slot { t with chHold := h }
  .next (s.modCore t.chChan fun x => { x with chan := { x.chan with
    holds := if h ∧ x.chan.subs.contains who then who :: x.chan.holds else x.chan.holds.filter fun y => y != who } })

/-- DEPARTURE_REPORT (R346, R347): a departure, or the start of a rejoin, reaches the publisher. -/
def execDepartureReport (core slot : Nat) (s : State) : Result :=
  let t := s.slot core slot
  match t.chReports with
  | m :: r =>
    let s := s.setSlot core slot { t with chReports := r }
    .next (s.modCore t.chChan fun x =>
      if x.chan.subs.contains (core, slot, t.tid) then { x with chan := { x.chan with
        dep := if m = 4 then x.chan.dep + 1 else x.chan.dep,
        rejoin := if m = 5 then x.chan.rejoin ++ [(core, slot, t.tid, t.chTag)] else x.chan.rejoin,
        holds := x.chan.holds.filter fun y => y != (core, slot, t.tid) } } else x)
  | [] => .next s

/-- CLOCK_CROSSING_RELOCK (R345): once neither die steps its clock, the FIFO of a cross-die subscriber relocks; its bundles go
on. -/
def execClockCrossingRelock (core slot : Nat) (s : State) : Result :=
  let p := (s.slot core slot).chChan
  if (s.die (dieOf core)).stepping.isSome || (s.die (dieOf p)).stepping.isSome then .next s
  else .next (s.modCore p fun x => { x with chan := { x.chan with relock := x.chan.relock.filter fun p => p != (core, slot) } })

end Sys2Proof.Machine
end

