-- ==== Sys2Proof/Machine/Polder.lean ====
section
/-! DEFINITION. Polders (R142 to R149): the directory, joining, leaving, and the window of each member. -/

namespace Sys2Proof.Machine

/-- The physical address of a directory entry (R143). -/
def dirEntry (base : W64) (pid : Nat) : Nat := base.toNat + pid * 512
/-- MEMBERi of an entry's bytes, when V is set: core and task. -/
def dirMember (l : List Byte) (i : Nat) : Option (Nat × Nat) :=
  let v := fieldAt l (16 + 4 * i) 4
  if Nat.testBit v 31 then some (v % 4096, v / 65536 % 16) else none
/-- The members of an entry: index, core, task. -/
def dirMembers (l : List Byte) : List (Nat × Nat × Nat) :=
  (upto 0 64).filterMap fun i => if Nat.testBit (fieldAt l 0 8) i then (dirMember l i).map fun m => (i, m.1, m.2) else none

/-- Bytes of a directory entry, read at their home in one step (R143): memory, with errors corrected; zeros of a window; what comes from
the host or through a peer port (R419, R420). -/
def State.dirLoad (s : State) (e n : Nat) : List Byte × State :=
  match regionOf e with
  | .host _ => s.outsideBytes e n
  | .peer _ => s.outsideBytes e n
  | .launch _ _ => (natLe n 0, s)
  | .mgmt _ => (natLe n 0, s)
  | _ => (readBytes s.mem e n, s.correct e n)

/-- Bytes of a directory entry, written at their home (R143, R158): beyond a peer port they leave the module (R420). -/
def State.dirPut (s : State) (a : Nat) (l : List Byte) : State :=
  match regionOf a with
  | .host _ => s
  | .launch _ _ => s
  | .mgmt _ => s
  | .peer p => { s with out := s.out ++ [{ port := p, kind := .write, addr := a, bytes := l }] }
  | _ => (s.storeAt a l).wake a l.length

/-- PDIRBASE as the running core's partition holds it. -/
def State.myDir (s : State) : W64 := look 0 s.pdirbase (s.partOf s.cur.core)

/-- The lines of a directory entry are present. -/
def State.dirHere (s : State) (e : Nat) : Bool := (upto 0 8).all fun l => s.present (e + 64 * l)

/-- Core `c` can take a step on a directory entry: its lines are present, and its home takes arrivals. -/
def State.dirOpen (s : State) (c e : Nat) : Bool := s.dirHere e && s.homeOpen c e

/-- The directory is read and written at its home (R143), after the thread's earlier accesses there (R178): the home must be present,
and take an atomic step (R419); the thread waits with reason word (R147). -/
def dirReady (e : Nat) : M Unit := fun s =>
  if (s.homeOf e).isNone then .error (.trap 4 (w64 e) (w64 0x100))
  else match regionOf e with
    | .host _ => .error (.trap 5 (w64 e) 0)
    | _ =>
      if s.pendingAt s.me.tid e || !s.dirHere e then .error (.park 4)
      else if s.homeTakes s.cur.core e s.me.queued then .ok ((), s)
      else .error (.arrive e 4)

/-- A step on a directory entry at its home reads the entry and is counted there (R143, R408). -/
def State.dirStep (s : State) (c e id : Nat) : List Byte × State := (s.takeAt c e id).dirLoad e 512

/-- A directory entry that a thread's step reads is poisoned, or its flit lost two rails: the thread consumes it and dies (R400, R401,
R403). -/
def dirSound (e : Nat) : M Unit := fun s =>
  let x := s.crossLink (s.linkOf s.cur.core e)
  if x.1 then dieM x.2
  else if inMemory e && s.poisoned e 272 || (s.latent.any fun g => g.2 && decide (e / 8 ≤ g.1) && decide (g.1 < e / 8 + 34)) then dieM (s.dirLoad e 512).2
  else .ok ((), s)

/-- Whether polder messages of a task are still unacknowledged. -/
def State.polderPending (s : State) (src : Nat) : Bool :=
  s.msgs.any fun m => match m.2 with | .polder _ _ _ _ _ q _ => q == src | _ => false

/-- The polder slot that an address names (R65). -/
def polderSlot (va : Nat) : Option Nat := if 0x10000000 ≤ va ∧ va < 0x12000000 then some (va / 2 ^ 19 % 64) else none

/-- Claims of a command are on their way to their homes (R123). -/
def SlCmd.claiming (q : SlCmd) : Bool := q.started && !q.stopped && !q.toClaim.isEmpty

/-- Polder slots that an access goes through: a tile load's at one home, every slot that its rows there name (R148, R261). -/
def State.slotsOf (s : State) (f : Flight) : List Nat :=
  match f.op with
  | .tileLoad id =>
    (match (s.core f.core).mxCmd id with
     | some q => (q.via.filter fun v => some v.1 == s.homeOf f.pa).map Prod.snd
     | none => [])
  | _ => f.polder.toList

/-- What a task has in flight through polder slots that `p` selects: accesses, the arrivals, writes and claims of its sluice
commands, and the reads of its pattern commands, by name (R148, R175). -/
def State.through (s : State) (c h : Nat) (p : Nat → Bool) : List Nat :=
  (s.flights.filter fun f => f.core == c && f.task == h && f.pending && (s.slotsOf f).any p).map Flight.id
    ++ (((s.core c).slcmds.filter fun q => q.task == h).flatMap fun q =>
      (if q.claiming && q.slots.any p then [q.uid] else []) ++ (q.pend.filter fun w => w.polder.any p).map SlWrite.id)
    ++ ((s.core c).pg.filter fun q => q.task == h && q.reads.any fun z => z.polder.any p).map PgCmd.id

/-- Whether one of these is still on its way. -/
def State.underWay (s : State) (c : Nat) (l : List Nat) : Bool :=
  (s.flights.any fun f => f.pending && l.contains f.id) || ((s.core c).pg.any fun q => !q.reads.isEmpty && l.contains q.id)
    || (s.core c).slcmds.any fun q => (q.claiming && l.contains q.uid) || q.pend.any fun w => l.contains w.id

/-- Whether accesses of a task through polder slots are still in flight. -/
def State.polderFlights (s : State) (c h : Nat) : Bool := !(s.through c h fun _ => true).isEmpty

/-- The directory step and the installs of a PJOIN (R147). -/
def State.joinStep (s : State) (c h pid i : Nat) (e id : Nat) : State :=
  let r := s.dirStep c e id
  let s := r.2.dirPut (e + 16 + 4 * i) (natLe 4 (c + h * 65536 + 2 ^ 31))
  let s := s.dirPut e (natLe 8 (Nat.lor (fieldAt r.1 0 8) (2 ^ i)))
  let l := ((dirMembers r.1).filter fun j => decide (j.1 < i)) ++ (i, c, h) :: (dirMembers r.1).filter fun j => decide (i < j.1)
  let s := s.modCore c fun x => { x with pwin := l.foldl (fun m j => put m (h * 64 + j.1) j.2) x.pwin }
  s.sendAll ((l.filter fun j => j.1 != i).map fun j => .polder j.2.1 j.2.2 pid i (some (c, h)) (c * 16 + h) none)
    |>.modTask c h fun t => { t with member := some (pid, i) }

/-- The directory step and the removals of a PLEAVE of polder `pid` (R148). -/
def State.leaveStep (s : State) (c h pid i : Nat) (e id : Nat) : State :=
  let r := s.dirStep c e id
  let m := fieldAt r.1 0 8
  let s := r.2.dirPut (e + 16 + 4 * i) (natLe 4 0)
  let s := s.dirPut e (natLe 8 (if Nat.testBit m i then Nat.xor m (2 ^ i) else m))
  s.sendAll (((dirMembers r.1).filter fun j => j.1 != i).map fun j => .polder j.2.1 j.2.2 pid i none (c * 16 + h) none)
    |>.modTask c h fun t => { t with member := none, leaving := true }

/-- Every slot leaves the window of a task (R148). -/
def State.clearWindow (s : State) (c h : Nat) : State :=
  (s.modCore c fun x => { x with pwin := x.pwin.filter fun p => p.1 / 64 != h }).modTask c h fun t => { t with leaving := false }

/-- PJOIN (R146, R147): the checks in order, the directory step, and a wait until every install is acknowledged.  DESIGN CHOICE: while a
PLEAVE of its task is under way the task still counts as a member here, and PJOIN traps with RESOURCE 4, though another thread's PLEAVE
then finds no membership and completes at once; the manual does not say when a membership ends (log entry 69). -/
def execPjoin (a b : BitVec 6) (s : State) : Result :=
  run (do let p ← readS a
          let i ← readS b
          let t ← getMe
          let c ← askM fun s => s.cur.core
          let task ← askM fun s => s.taskOf c t.task
          if task.joinBy = some t.tid then
            let wait ← askM fun s => s.polderPending (c * 16 + t.task)
            if wait then parkM 4 else doM fun s => s.modTask c t.task fun x => { x with joinBy := none }
          else do
            let base ← askM State.myDir
            if base = 0 then resource 1 else pure ()
            if 255 < p.toNat then resource 2 else pure ()
            if 63 < i.toNat then resource 3 else pure ()
            let e := dirEntry base p.toNat
            checks do
              if task.member.isSome ∨ task.leaving then resource 4 else pure ()
              dirReady e
              dirSound e
              let held ← askM fun s => Nat.testBit (fieldAt (s.dirLoad e 512).1 0 8) i.toNat
              if held then resource 5 else pure ()
            let go ← output 60 p 8 [i]
            if go then do
              doM fun s => s.joinStep c t.task p.toNat i.toNat e (t.queued.getD 0)
              doM fun s => s.modTask c t.task fun x => { x with joinBy := some t.tid }
              doM fun s => s.tryAgain 4
              finM
            else pure ()) s

/-- PLEAVE (R148): the directory step; a wait until every removal is acknowledged; the task's own window; a wait for the task's
polder accesses in flight. -/
def execPleave (s : State) : Result :=
  run (do let t ← getMe
          let c ← askM fun s => s.cur.core
          let h := t.task
          let task ← askM fun s => s.taskOf c h
          if task.leaveBy = some t.tid then do
            let wait ← askM fun s => if task.leaving then s.polderPending (c * 16 + h) else s.polderFlights c h
            if wait then parkM 4
            else if task.leaving then do
              doM fun s => (s.clearWindow c h).tryAgain 4
              finM
            else doM fun s => s.modTask c h fun x => { x with leaveBy := none }
          else do
            let go ← output 61 0 0 []
            match (if go then task.member else none) with
            | none => pure ()
            | some (p, i) =>
              let base ← askM State.myDir
              let e := dirEntry base p
              dirReady e
              dirSound e
              doM fun s => s.leaveStep c h p i e (t.queued.getD 0)
              doM fun s => (s.modTask c h fun x => { x with leaveBy := some t.tid }).tryAgain 4
              finM) s

/-- PQUERY (R149): MASK, by one atomic read at the entry's home, after the thread's earlier accesses there and its acquires; a
poisoned MASK leaves its mark on the destination (R400, R403). -/
def execPquery (d a : BitVec 6) (s : State) : Result :=
  run (do let p ← readS a
          freeS d.toNat
          let base ← askM State.myDir
          if base = 0 then resource 1 else pure ()
          if 255 < p.toNat then resource 2 else pure ()
          let e := dirEntry base p.toNat
          let lead ← askM fun s => !s.me.trails
          if lead then do
            let gone ← askM fun s => (s.homeOf e).isNone
            if gone then trapM 4 (w64 e) (w64 0x100) else pure ()
            afterAcquires
            let early ← askM fun s => s.pendingAt s.me.tid e
            if early then parkReg else pure ()
            let here ← askM fun s => s.present e
            if here then pure () else parkM 5
            fun s => if s.homeTakes s.cur.core e s.me.queued then .ok ((), s.takeAt s.cur.core e (s.me.queued.getD 0)) else .error (.arrive e 3)
          else pure ()
          let lost ← askM fun s => lead && (s.crossLink (s.linkOf s.cur.core e)).1
          let v ← input (w64 e) fun s => let r := (s.crossLink (s.linkOf s.cur.core e)).2.dirLoad e 8; .ok (w64 (leNat r.1), r.2)
          let bad ← askM fun s => lost || (lead && inMemory e && s.poisoned e 8)
          writeS d v
          if bad ∧ d ≠ 0 then modMe fun t => { t with sPoison := setBit t.sPoison d.toNat true } else pure ()) s

/-- No earlier message for the same slot of the same window is still to be applied. -/
def State.polderFirst (s : State) (n core task idx : Nat) : Bool :=
  !(s.msgs.any fun m => decide (m.1 < n) && (match m.2 with
    | .polder c h _ i _ _ none => c == core && h == task && i == idx
    | _ => false))

/-- What a message does to a member's window (R147, R148): it installs or removes the slot, if the task still holds its membership
of that polder; a removal takes out the member that left, and nobody who has come after it. -/
def State.windowStep (s : State) (c h pid i : Nat) (m : Option (Nat × Nat)) (src : Nat) : State :=
  let t := s.taskOf c h
  if !t.live || !(match t.member with | some (p, _) => p == pid | none => false) then s else
  s.modCore c fun x => { x with pwin := match m with
    | some q => put x.pwin (h * 64 + i) q
    | none => if find x.pwin (h * 64 + i) = some (src / 16, src % 16) then del x.pwin (h * 64 + i) else x.pwin }

/-- POLDER_WINDOW_UPDATE (R147, R148): a member's window changes; a removal is acknowledged once what has already been sent
through the slot has been performed.  A frozen core's queue takes the message first (R412). -/
def execPolderWindowUpdate (n : Nat) (s : State) : Result :=
  match find s.msgs n with
  | some (.polder c h pid i m src drain) =>
    match drain with
    | some l => if s.underWay c l then .next s else .next { s with msgs := del s.msgs n }
    | none =>
      if !s.polderFirst n c h i then .next s
      else if !s.takesArrival (src / 16) c (some n) then .next (s.queueArrival c n)
      else
        let s := s.takeArrival (src / 16) c n
        let l := if m.isSome then [] else s.through c h fun j => j == i
        let s := s.windowStep c h pid i m src
        .next (if l.isEmpty then { s with msgs := del s.msgs n }
               else { s with msgs := put s.msgs n (.polder c h pid i none src (some l)) })
  | _ => .next s

end Sys2Proof.Machine
end

