-- ==== Sys2Proof/Machine/Queue.lean ====
section
/-! DEFINITION. Queue ports between neighbouring cores: QPUSHC, QSTAT, QRET and the arrival of an entry (R373, R374). -/

namespace Sys2Proof.Machine

/-- QPUSHC (R373, R375): a control entry on an enabled output port. -/
def execQpushc (q : BitVec 2) (a : BitVec 6) (s : State) : Result :=
  run (do let v ← readS a
          let t ← getMe
          if portOn t.qcfg q.toNat && portOut t.qcfg q.toNat then pushPort q.toNat v true else trapM 0x17 0 2) s

/-- The entries of a port, oldest first: those that an input port holds, or all of the pair that an output port is joined
with (R373). -/
def State.portEntries (s : State) (c n : Nat) (out : Bool) : List PortEnt :=
  if out then
    match s.joined c n with
    | some (o, p) => let q := look {} (s.core o).ports p; q.here ++ q.fly
    | none => []
  else (look {} (s.core c).ports n).here

/-- The status word of a port as a slot with configuration `cfg` sees it (R373). -/
def State.portStatus (s : State) (c n : Nat) (cfg : W64) : W64 :=
  let on := portOn cfg n
  let out := on && portOut cfg n
  let l := s.portEntries c n out
  w64 (l.length + (match l with | e :: _ => if e.ctl then 64 else 0 | [] => 0) + (if on then 128 else 0) + (if portOut cfg n then 256 else 0))

/-- QSTAT (R373). -/
def execQstat (q : BitVec 2) (d : BitVec 6) (s : State) : Result :=
  run (do let t ← getMe
          let v ← input (w64 (2 ^ 60 + 320)) (askM fun s => s.portStatus s.cur.core q.toNat t.qcfg)
          writeS d v) s

/-- QRET (R374): the interrupted instruction re-executes. -/
def execQret (s : State) : Result :=
  run (do let t ← getMe
          if !t.qinh then trapM 0x17 0 4 else pure ()
          doM fun s => s.retire s.cur.core s.cur.slot (some (t.qrpc &&& ~~~ (3 : W64)))
          let u ← getMe
          if u.publishes then doM fun s => s.publish s.cur.core { word := s.cur.word, pc := t.pc, target := some u.pc } else pure ()
          modMe fun u => { u with qinh := false }
          finM) s

/-- QUEUE_ENTRY_ARRIVAL (R373): the oldest entry on its way enters an input port. -/
def execQueueEntryArrival (core port : Nat) (s : State) : Result :=
  .next (s.modCore core fun x =>
    let p := look {} x.ports port
    match p.fly with
    | e :: r => { x with ports := put x.ports port { here := p.here ++ [e], fly := r } }
    | [] => x)

end Sys2Proof.Machine
end

