-- ==== Sys2Proof/Machine/Record.lean ====
section
/-! DEFINITION. Task records (R354 to R356), cluster queues (R357 to R361), allocation and the start of a thread (R362). -/

namespace Sys2Proof.Machine

/-! ### Records -/

/-- The fields of RES: tiles, accumulators, banks, sluice, pair, priority (R355). -/
def resTiles (r : Nat) : Nat := r % 16
/-- ACCS. -/
def resAccs (r : Nat) : Nat := r / 16 % 8
/-- BANKS. -/
def resBanks (r : Nat) : Nat := r / 256 % 256
/-- SLUICE. -/
def resSluice (r : Nat) : Bool := Nat.testBit r 16
/-- PAIR. -/
def resPair (r : Nat) : Bool := Nat.testBit r 17
/-- PRIO. -/
def resPrio (r : Nat) : Nat := r / 2 ^ 18 % 4

/-- RES is valid (R355). -/
def resOk (r : Nat) : Bool :=
  decide (r / 2 ^ 20 = 0) && !Nat.testBit r 7 && decide (resBanks r ≤ 128) && decide (resAccs r ≤ 4) && decide (resTiles r ≤ 8)
    && !(resSluice r && resPair r)

/-- ENTRY, ARGn, REPLY, RES, TARGET and START (R354). -/
def recEntry (l : List Byte) : Nat := fieldAt l 0 8
/-- ARGn. -/
def recArg (l : List Byte) (n : Nat) : W64 := w64 (fieldAt l (8 + 8 * n) 8)
/-- REPLY. -/
def recReply (l : List Byte) : W64 := w64 (fieldAt l 40 8)
/-- RES. -/
def recRes (l : List Byte) : Nat := fieldAt l 48 4
/-- TARGET. -/
def recTarget (l : List Byte) : Nat := fieldAt l 52 4
/-- START. -/
def recStart (l : List Byte) : Nat := fieldAt l 56 8
/-- CORE of TARGET. -/
def recCore (l : List Byte) : Nat := recTarget l % 4096
/-- CLUSTER of TARGET. -/
def recCluster (l : List Byte) : Bool := Nat.testBit (recTarget l) 12
/-- SIB of TARGET. -/
def recSib (l : List Byte) : Bool := Nat.testBit (recTarget l) 13

/-- A reply target is zero, or accepted by R356. -/
def replyOk (r : W64) : Bool := r == 0 || (targetOk r && (!bitAt r 63 || fieldN r 0 4 == 0))

/-- A record is valid (R356). -/
def recordOk (l : List Byte) : Bool :=
  decide (recEntry l ≠ 0) && decide (recEntry l % 4 = 0) && decide (recEntry l < 2 ^ 57)
    && resOk (recRes l) && replyOk (recReply l)
    && decide (recTarget l / 2 ^ 14 = 0) && coreExists (recCore l) && (!recCluster l || recCore l % 16 == 0)
    && (!recSib l || (recRes l == 0 && recReply l == 0 && recStart l == 0 && recCore l == 0 && !recCluster l))

/-! ### Cluster queues (R357 to R360) -/

/-- The priority without aging, and the effective priority (R360). -/
def QRec.prio (r : QRec) : Nat := resPrio (recRes r.bytes)
/-- Effective priority of a record in hub `h` at the present tick (R360). -/
def State.effPrio (s : State) (h : Nat) (r : QRec) : Nat :=
  let age := (s.hub h).age
  if age = 0 then r.prio
  else satAt 3 (r.prio + (s.time - max r.arrival (recStart r.bytes)) / (age * 65536))
/-- A record is pressing (R361). -/
def State.pressing (s : State) (h : Nat) (r : QRec) : Bool := s.effPrio h r == 3 && decide (r.prio < 3)

/-- The overflow ring: its base, and whether its home is there (R357). -/
def State.ringBase (s : State) (h : Nat) : Nat := columnAddr (h * 16) ((s.hub h).offset * 65536)
/-- Entries that the ring can hold. -/
def State.ringCap (s : State) (h : Nat) : Nat := if s.coreHome (h * 16) then (s.hub h).size * 512 else 0

/-- A ring entry's 128 bytes (R357). -/
def QRec.ringBytes (r : QRec) : List Byte :=
  r.bytes ++ natLe 8 r.arrival ++ natLe 8 r.root.toNat ++ natLe 2 r.asp.toNat ++ natLe 46 0
/-- A record from a ring entry, with the poison marks of the entry's doublewords. -/
def QRec.ofRing (l : List Byte) (bad : Nat → Bool) : QRec :=
  { bytes := l.take 64, arrival := fieldAt l 64 8, root := w64 (fieldAt l 72 8), asp := BitVec.ofNat 16 (fieldAt l 80 2),
    poison := ((upto 0 8).filter bad) ++ (if bad 8 || bad 9 || bad 10 then [8] else []) }

/-- Doublewords of `n` from `pa` on that are poisoned, by their place. -/
def State.badDwords (s : State) (pa n : Nat) : List Nat := (upto 0 n).filter fun i => s.poisoned (pa + 8 * i) 8

/-- Of two records, whether the second is to be spilled rather than the first: lower effective priority, or newer (R357). -/
def State.spillsBefore (s : State) (h : Nat) (a b : QRec) : Bool :=
  decide (s.effPrio h b < s.effPrio h a) || (s.effPrio h b == s.effPrio h a && decide (a.arrival ≤ b.arrival))

/-- The record to spill of a bank with an arrival at its end. -/
def State.spillPick (s : State) (h : Nat) (l : List QRec) : Option QRec :=
  l.foldl (fun p r => match p with
    | none => some r
    | some a => if s.spillsBefore h a r then some r else some a) none

/-- A hub accepts a record into its bank, or spills one to the ring; none when both are full (R357). -/
def State.hubAccept (s : State) (h : Nat) (r : QRec) : Option State :=
  let x := s.hub h
  if x.bank.length < 256 then some (s.modHub h fun x => { x with bank := x.bank ++ [r] })
  else if x.ringCount < s.ringCap h then
    match s.spillPick h (x.bank ++ [r]) with
    | some v =>
      let a := s.ringBase h + (x.ringHead + x.ringCount) % s.ringCap h * 128
      let s := s.devWrite 4096 a v.ringBytes
      let s := v.poison.foldl (fun s i => s.addPoison (a + 8 * i) 8) s
      some (s.modHub h fun x => { x with bank := (x.bank ++ [r]).erase v, ringCount := x.ringCount + 1 })
    | none => none
  else none

/-- RING_REFILL (R357): the ring's oldest entry moves back into the bank.  DESIGN CHOICE: an entry that a store has made an invalid
record is dropped, and counted in DROPS; the manual gives no case for it (log entry 68).  Poison marks go with the record (R400). -/
def execRingRefill (cluster : Nat) (s : State) : Result :=
  let x := s.hub cluster
  let a := s.ringBase cluster + x.ringHead * 128
  if x.bank.length < 256 ∧ 0 < x.ringCount ∧ 0 < s.ringCap cluster ∧ s.homeOpen 4096 a then
    let s := s.correct a 128
    let r := QRec.ofRing (readBytes s.mem a 128) fun i => s.poisoned (a + 8 * i) 8
    let good := recordOk r.bytes && !recSib r.bytes
    .next (s.modHub cluster fun x => { x with
      bank := if good then x.bank ++ [r] else x.bank, drops := if good then x.drops else satAt 0xFFFF (x.drops + 1),
      ringHead := (x.ringHead + 1) % s.ringCap cluster, ringCount := x.ringCount - 1 })
  else .next s

/-- A record is eligible on a core (R360). -/
def State.eligible (s : State) (c : Nat) (r : QRec) : Bool :=
  decide (recStart r.bytes ≤ s.time) && (if recCluster r.bytes then recCore r.bytes / 16 == c / 16 else recCore r.bytes == c)

/-! ### Allocation (R361, R362) -/

/-- Numbers below `n` that no live task of a core holds. -/
def Core.freeOf (x : Core) (n : Nat) (f : Task → List Nat) : List Nat :=
  (upto 0 n).filter fun i => !((upto 0 16).any fun h => let t := look {} x.tasks h; t.live && (f t).contains i)
/-- Slots 0 to 14 that are free and enabled (R198). -/
def Core.freeSlots (x : Core) : List Nat := (upto 0 15).filter fun k => bitAt x.sloten k && !(look {} x.slots k).live && (match x.dump with | some d => d.slot != k | none => true)
/-- Task handles that are free. -/
def Core.freeTasks (x : Core) : List Nat := (upto 0 16).filter fun h => !(look {} x.tasks h).live
/-- Slot 15 runs the standard dispatcher with every mailbox empty and no command held (R361). -/
def Core.dispatcherIdle (x : Core) : Bool :=
  !(look {} x.slots 15).live && (match x.dump with | some d => d.slot != 15 | none => true)
    && ((upto 0 8).all fun m => !(look {} x.mail m).full) && x.dispCmd.isNone

/-- A core can satisfy a RES whole (R361); `n` is the number of slots 0 to 14 that it takes. -/
def Core.canTake (x : Core) (res n : Nat) : Bool :=
  decide (resTiles res ≤ (x.freeOf 8 Task.tiles).length) && decide (resAccs res ≤ (x.freeOf 4 Task.accs).length)
    && decide (resBanks res ≤ (x.freeOf 128 Task.banks).length)
    && !x.freeTasks.isEmpty && decide (n ≤ x.freeSlots.length) && (!resSluice res || x.dispatcherIdle)

/-- Slots 0 to 14 that a record's first thread takes. -/
def slotsFor (res : Nat) : Nat := if resSluice res then 0 else if resPair res then 2 else 1

/-- Removes keys. -/
def delAll {α : Type} (m : Map α) (l : List Nat) : Map α := m.filter fun p => !l.contains p.1

/-- An allocated bank: zero, full, present, with its format reset (R93, R138); waits on its words are performed (R158). -/
def State.clearBank (s : State) (c b : Nat) : State :=
  let lo := scratchAddr c (b * 4096)
  ({ s with
    mem := s.mem.filter fun p => !(decide (lo ≤ p.1) && decide (p.1 < lo + 4096)),
    empty := s.empty.filter fun w => !(decide (lo ≤ 4 * w) && decide (4 * w < lo + 4096)),
    absent := s.absent.filter fun l => !(decide (lo ≤ 64 * l.1) && decide (64 * l.1 < lo + 4096)),
    poison := s.poison.filter fun g => !(decide (lo ≤ 8 * g) && decide (8 * g < lo + 4096)),
    latent := s.latent.filter fun g => !(decide (lo ≤ 8 * g.1) && decide (8 * g.1 < lo + 4096)) }.modCore c
      fun x => { x with bfmt := del x.bfmt b }).wake lo 4096

/-- Allocated tiles, accumulators and pattern slots: zero, unshaped, empty (R253, R277). -/
def Core.clearTiles (x : Core) (tiles accs : List Nat) : Core :=
  { x with
    tile := x.tile.filter fun p => !tiles.contains (p.1 / 8192),
    tshape := delAll x.tshape tiles, tscale := delAll x.tscale tiles,
    accv := x.accv.filter fun p => !accs.contains (p.1 / 8192),
    engErr := x.engErr.filter fun e => !tiles.contains (e.1 / 4096) && !accs.contains (e.1 / 4096 - 8),
    ashape := delAll x.ashape accs, pslots := delAll x.pslots accs }

/-- Takes the resources of RES in one step for a task handle (R253, R362). -/
def State.allocate (s : State) (c h res : Nat) (reply root : W64) (asp : W16) : State :=
  let x := s.core c
  let banks := (x.freeOf 128 Task.banks).take (resBanks res)
  let tiles := (x.freeOf 8 Task.tiles).take (resTiles res)
  let accs := (x.freeOf 4 Task.accs).take (resAccs res)
  let s := banks.foldl (fun s b => s.clearBank c b) s
  let t : Task := { live := true, banks := banks, tiles := tiles, accs := accs, sluice := resSluice res, pair := resPair res,
                    res := w32 res, reply := reply, ptroot := root, aspace := asp }
  s.modCore c fun x => let x := x.clearTiles tiles accs
    { x with tasks := put x.tasks h t }

/-- A new thread in a slot: registers zero and full, all lanes active, FSTAT at its reset value, control registers at their
reset values, EVEC from DEVEC (R200, R362); a task marked pre-empted pre-empts it (R386); it halts where its slot's HALTREQ
bit is set (R410). -/
def State.startThread (s : State) (c k h : Nat) (f : Slot → Slot) : State :=
  let old := s.slot c k
  let t := s.taskOf c h
  let n := { s with nextTid := s.nextTid + 1 }
  let fresh : Slot := f { live := true, tid := s.nextTid, task := h, evec := (s.core c).devec, ptroot := t.ptroot, aspace := t.aspace,
                          retired := old.retired, lastCyc := old.lastCyc }
  let stop := bitAt (s.core c).dbg.haltreq k
  let n := n.setSlot c k { fresh with halted := stop }
  let n := if stop then n.modCore c fun x => { x with dbg := { x.dbg with slot := k, why := 0 } } else n
  match t.preempted with
  | some code =>
    let l := n.threadsOf c h
    n.modSlot c k fun x => { x with pendPre := some ⟨0x10, 0, w64 ((l.filter fun j => decide (j < k)).length + l.length * 256 + code.toNat * 65536)⟩ }
  | none => n

/-- s1 to s4 take the arguments (R199). -/
def Slot.withArgs (t : Slot) (a : List W64) : Slot :=
  (upto 0 4).foldl (fun t i => t.putS (i + 1) (a.getD i 0)) t

/-- s1 to s4 take the poison marks of the arguments (R400). -/
def Slot.withMarks (t : Slot) (bad : List Nat) : Slot :=
  { t with sPoison := (upto 1 4).foldl (fun m i => setBit m i (bad.contains i)) t.sPoison }

/-- Starts the first thread of a record, or a pair's two threads (R362), at its ENTRY with bits [1:0] zero (R17). -/
def State.startFirst (s : State) (c h : Nat) (l : List Byte) (bad : List Nat) : State :=
  let x := s.core c
  let res := recRes l
  let args := (upto 0 4).map (recArg l)
  let go (t : Slot) : Slot := { (t.withArgs args).withMarks bad with pc := w64 (recEntry l) &&& ~~~ (3 : W64) }
  if resSluice res then s.startThread c 15 h go
  else
    let k := x.freeSlots.getD 0 0
    if resPair res then
      let j := x.freeSlots.getD 1 0
      (s.startThread c k h fun t => { go t with role := .leading j }).startThread c j h fun t => { go t with role := .trailing k }
    else s.startThread c k h go

/-- The record that a core takes next: of the eligible ones in its hub's bank, by effective priority and then age, the first
it can satisfy, none that arrived after an eligible pressing one (R360, R361). -/
def State.nextRecord (s : State) (c : Nat) : Option QRec :=
  let h := c / 16
  let el := (s.hub h).bank.filter fun r => s.eligible c r
  let el := match (el.filter fun r => s.pressing h r).map QRec.arrival with
    | [] => el
    | a :: l => el.filter fun r => decide (r.arrival ≤ leastOr a (a :: l))
  let ok := el.filter fun r => (s.core c).canTake (recRes r.bytes) (slotsFor (recRes r.bytes))
  ok.foldl (fun b r => match b with
    | none => some r
    | some a => if decide (s.effPrio h a < s.effPrio h r) || (s.effPrio h a == s.effPrio h r && decide (r.arrival < a.arrival)) then some r else some a) none

/-- A core takes part in dispatch: served, in the map, not mapped out, not frozen (R405, R412, R424). -/
def State.coreActive (s : State) (c : Nat) : Bool := s.coreHome c && !(s.core c).dbg.freeze

/-- DISPATCH (R360 to R362).  DEDUCED: a record whose poison reaches more than its arguments starts a thread that consumes it at once and
dies (R400, R401; log entry 68). -/
def execDispatch (core : Nat) (s : State) : Result :=
  if !s.coreActive core then .next s else
  match s.nextRecord core with
  | none => .next s
  | some r =>
    match (s.core core).freeTasks with
    | [] => .next s
    | h :: _ =>
      let s := s.modHub (core / 16) fun x => { x with bank := x.bank.erase r }
      let s := (s.allocate core h (recRes r.bytes) (recReply r.bytes) r.root r.asp).startFirst core h r.bytes r.poison
      .next (if r.poison.any fun i => i == 0 || decide (5 ≤ i) then (match (s.threadsOf core h).head? with
        | some k => s.kill core k
        | none => s) else s)

end Sys2Proof.Machine
end

