-- ==== Sys2Proof/Machine/Task.lean ====
section
/-! DEFINITION. Task instructions (major 0x17, R363 to R371): placing records, replies, dependence counters, migration. -/

namespace Sys2Proof.Machine

/-! ### SPAWN and CALLAT (R364 to R366) -/

/-- QUEUE with a code (R375). -/
def queueTrap {α : Type} (code : Nat) : M α := trapM 0x17 0 (w64 code)

/-- The checks on a record that an instruction places (R364, R366, R369). -/
def checkRecord (l : List Byte) (sibOk : Bool) : M Unit := do
  if recordOk l then pure () else queueTrap 5
  if recSib l && !sibOk then queueTrap 8 else pure ()
  let out ← askM fun s => !recSib l && s.partOf (recCore l) != s.partOf s.cur.core
  if out then queueTrap 6 else pure ()

/-- A record's bytes as the operands that a pair's comparator sees. -/
def recordWords (l : List Byte) : List W64 := (upto 0 8).map fun i => w64 (fieldAt l (8 * i) 8)

/-- Sends a record to its hub; the thread waits until the hub accepts it (R364). -/
def State.sendRecord (s : State) (l : List Byte) (root : W64) (asp : W16) (who : Option (Nat × Nat × Nat)) (src : Nat) : State :=
  s.send (.record (recCore l / 16) { bytes := l, arrival := 0, root := root, asp := asp } who src)

/-- The record of a block whose count is zero, with the root of its maker, as SPAWN sends it, but from the home core `c` (R370); its poison
marks go with it (R400).  DESIGN CHOICE: where a store has made it a record that SPAWN would not place, the home drops it, and TDROP
counts it; the manual gives no case for it (log entry 68). -/
def State.placeBlock (s : State) (pa c : Nat) (root : W64) (asp : W16) : State :=
  let l := readBytes s.mem pa 64
  if recordOk l && !recSib l && s.partOf (recCore l) == s.partOf c then
    s.send (.record (recCore l / 16) { bytes := l, arrival := 0, root := root, asp := asp, poison := s.badDwords pa 8 ++ (s.badDwords (pa + 80) 2).map fun _ => 8 } none c)
  else s.modCore c fun x => { x with tdrop := x.tdrop + 1 }

/-- Places a checked non-SIB record (R364). -/
def placeRecord (l : List Byte) : M Unit := do
  let id ← askM State.nextId
  let t ← getMe
  doM fun s => s.sendRecord l t.ptroot t.aspace (some s.whoAmI) s.cur.core
  busyM 3 (.place id)

/-- A SIB record starts a further thread of the task on this core (R365). -/
def startSib (l : List Byte) : M Unit := do
  let x ← getCore
  let t ← getMe
  match x.freeSlots with
  | [] => parkReg
  | k :: _ => doM fun s => s.startThread s.cur.core k t.task fun u =>
      { u.withArgs ((upto 0 4).map (recArg l)) with pc := w64 (recEntry l) &&& ~~~ (3 : W64), ptroot := t.ptroot, aspace := t.aspace }

/-- SPAWN (R364, R365). -/
def execSpawn (a : BitVec 6) (s : State) : Result :=
  run (do let va ← readS a
          let l ← readNow va 64 64 mgmtZero
          checkRecord l true
          release 4
          let go ← output 62 va 64 (recordWords l)
          if !go then pure () else if recSib l then startSib l else placeRecord l) s

/-- The register target of s[d] of the running thread (R366). -/
def State.myTarget (s : State) (d : Nat) : W64 := w64 (d * 2 ^ 22 + s.me.task * 2 ^ 16 + s.cur.slot * 2 ^ 12 + s.cur.core)

/-- CALLAT (R366): the placed copy replies to s[d], which is empty from the release on. -/
def execCallat (d a : BitVec 6) (s : State) : Result :=
  run (do let va ← readS a
          freeS d.toNat
          let l ← readNow va 64 64 mgmtZero
          checkRecord l false
          release 4
          let go ← output 63 va 64 (w64 d.toNat :: recordWords l)
          modMe fun t => if d = 0 ∨ t.isPort d.toNat then t else { t with sFull := setBit t.sFull d.toNat false }
          let target ← askM fun s => if d = 0 then 0 else s.myTarget d.toNat
          if go then placeRecord (l.take 40 ++ natLe 8 target.toNat ++ l.drop 48) else pure ()) s

/-- RECORD_ARRIVAL (R357, R364, R370, R403): a record reaches its hub in pair order; a hub that is full accepts it later.  A cluster
that is not yet served refuses it, which HOSTERR counts (R424). -/
def execRecordArrival (n : Nat) (s : State) : Result :=
  match find s.msgs n with
  | some (.record h r who src) =>
    let done (s : State) : State :=
      match who with
      | some (c, k, tid) => if (s.slot c k).tid = tid ∧ (s.slot c k).wait = .busy 3 (.place n) then s.complete c k fun t => t else s
      | none => s
    if s.msgs.any fun m => decide (m.1 < n) && (match m.2 with | .record h' _ _ q => h' == h && q == src | _ => false) then .next s
    else if !s.served (h / 64) then .next (done { s with msgs := del s.msgs n, hosterr := s.hosterr + 1 })
    else
      let x := s.crossLink (if dieOf src = h / 64 then none else some (dieLink (dieOf src) (h / 64)))
      match x.2.hubAccept h { r with arrival := s.time, poison := if x.1 then upto 0 9 else r.poison } with
      | none => .next s
      | some s =>
        .next (done { s with msgs := del s.msgs n })
  | _ => .next s

/-! ### Replies and the end of a thread (R367, R368) -/

/-- The status that a task's reply carries: KILLED, or the cause that ended it (R367). -/
def Task.status (t : Task) : Nat := if t.killed then 0x13 else t.endStatus

/-- Drops a reply whose address faults (R367). -/
def State.dropReply (s : State) (c : Nat) : State := s.modCore c fun x => { x with filldrop := x.filldrop + 1 }

/-- The task's reply to a memory target: the status at a + 8, then the value at a, sent in that order (R367). -/
def State.replyMem (s : State) (c h tid : Nat) (privS : Bool) (a : W64) (l : Loc) (v : W64) (st : Nat) : State :=
  let f (id off : Nat) (op : FOp) : Flight :=
    { id := id, core := c, slot := 16, tid := tid, task := h, va := a + w64 off, pa := l.pa + off, size := 8, op := op,
      topinf := (s.core c).topinf, privS := privS, seq := id, polder := l.polder, page := l.page }
  { s with flights := s.flights ++ [f s.nextId 8 (.st (w64 st)), f (s.nextId + 1) 0 (.stff v)], nextId := s.nextId + 2 }

/-- Sends a task's reply once (R367): the new state, or the walk that it needs.  `known` tells a page whose walk has ended in a
fault. -/
def State.reply (s : State) (x : Ctx) (tid : Nat) (v : W64) (st : Nat) (known : Nat → Bool) : Except Want State :=
  let t := s.taskOf x.core x.task
  let done := s.modTask x.core x.task fun t => { t with replied := true }
  if t.replied || t.reply == 0 then .ok done
  else if !bitAt t.reply 63 then
    .ok (done.sendFill t.reply (if st = 0x13 then w64 0x8000000000000013 else v) (s.core x.core).topinf x.core)
  else
    let a := w64 (fieldN t.reply 0 57)
    match s.resolve x a .store with
    | .ok l => if hasFe l.pa then .ok (done.replyMem x.core x.task tid x.privS a l v st) else .ok (done.dropReply x.core)
    | .error (.walk p) => if known p.page then .ok (done.dropReply x.core) else .error p
    | .error _ => .ok (done.dropReply x.core)

/-- The running thread quits (R368). -/
def quitMe : M Unit := do
  let go ← output 64 0 0 []
  if go then do
    doM fun s => s.freeSlot s.cur.core s.cur.slot
    finM
  else parkReg

/-- RETV (R368): the reply when none has been sent, a release at .dev; then QUIT. -/
def execRetv (a : BitVec 6) (s : State) : Result :=
  run (do let v ← readS a
          release 4
          let go ← output 65 0 8 [v]
          let t ← getMe
          if go then fun s =>
            match s.reply s.myCtx t.tid v (s.taskOf s.cur.core t.task).status (fun p => t.walkRes.any fun w => w.1 == p && w.2.1 == t.aspace.toNat) with
            | .ok s => .error (.fin (s.freeSlot s.cur.core s.cur.slot))
            | .error p => .error (.miss t.aspace.toNat t.ptroot p)
          else parkReg) s

/-- QUIT (R368): the slot is free at once. -/
def execQuit (s : State) : Result := run quitMe s

/-! ### Dependence counters (R369, R370) -/

/-- The block's 128 bytes lie in present lines of a scratchpad or column, after the thread's own accesses to that home. -/
def blockReady (l : Loc) (va : W64) : M Unit := fun s =>
  if !hasFe l.pa then .error (.trap 5 va (w64 0x200))
  else if s.pendingAt s.me.tid l.pa then .error (.park 3)
  else if !(s.present l.pa && s.present (l.pa + 64)) then .error (.park 5)
  else if !s.homeTakes s.cur.core l.pa s.me.queued then .error (.arrive l.pa 3)
  else
    let s := ((s.noteSend va l.pa 128 (.atom 0 0 0 0)).takeAt s.cur.core l.pa (s.me.queued.getD 0)).correct l.pa 64
    if s.poisoned l.pa 64 then dieM s else .ok ((), s)

/-- Bytes 64 to 127 of a pending task's block (R369). -/
def pendBytes (count : Nat) (pending : Bool) (root : W64) (asp : W16) : List Byte :=
  natLe 8 count ++ natLe 8 (if pending then 1 else 0) ++ natLe 8 root.toNat ++ natLe 2 asp.toNat ++ natLe 38 0

/-- TMAKE's step at the block's home: the counter is written, and a count of 0 places the record at once (R369).  DESIGN CHOICE: its
write counts as a remote store of R101, and is discarded under another TOPINF; TDEC's decrement, a message like a fill that the home
itself performs, is not; R101 names neither (log entry 59). -/
def State.makeTask (s : State) (src pa count : Nat) (ti : Bool) (root : W64) (asp : W16) : State :=
  if s.discards src ti pa then s.discardWrite src pa
  else
    let l := readBytes s.mem pa 64
    let s := s.storeAt (pa + 64) (pendBytes count (count != 0) root asp)
    (if count = 0 then s.sendRecord l root asp none src else s).wake (pa + 64) 64

/-- TMAKE (R369). -/
def execTmake (d a b : BitVec 6) (s : State) : Result :=
  run (do let va ← readS a
          let n ← readS b
          freeS d.toNat
          let l ← resolveM va 128 .atomic 0
          afterAcquires
          blockReady l va
          let bytes ← askM fun s => readBytes s.mem l.pa 64
          checkRecord bytes false
          release 4
          let go ← output 66 va 128 (n :: recordWords bytes)
          if go then doM fun s => s.makeTask s.cur.core l.pa (fieldN n 0 32) s.myCore.topinf s.me.ptroot s.me.aspace else pure ()
          let h ← input va (pure (w64 l.pa))
          writeS d h) s

/-- TDEC (R370): posted, a release at .dev. -/
def execTdec (a : BitVec 6) (s : State) : Result :=
  run (do let h ← readS a
          release 4
          outputPost 67 h 8 [] (.tdec h) fun s => s.send (.tdec h s.cur.core)) s

/-- Counts a dropped decrement at a core (R370). -/
def State.dropTdec (s : State) (c : Nat) : State := s.modCore c fun x => { x with tdrop := x.tdrop + 1 }

/-- TDEC_ARRIVAL (R370): in one step at the block's home; decrements of one core to one home keep their order.  DESIGN CHOICE: one whose
flit lost two rails (R403) is dropped, and TDROP counts it (log entry 68). -/
def execTdecArrival (n : Nat) (s : State) : Result :=
  match find s.msgs n with
  | some (.tdec h src) =>
    let pa := h.toNat
    let first := !(s.msgs.any fun m => decide (m.1 < n) && (match m.2 with | .tdec g q => q == src && s.homeOf g.toNat == s.homeOf pa | _ => false))
    let open_ := match s.homeOf pa with | some c => !hasFe pa || s.takesArrival src c (some n) | none => true
    if first && !open_ then .next (match s.homeOf pa with | some c => s.queueArrival c n | none => s)
    else if !first || !(s.present pa && s.present (pa + 64)) then .next s
    else
      let s := { s with msgs := del s.msgs n }
      match s.homeOf pa with
      | some c =>
        if !hasFe pa then .next (s.dropTdec src) else
        let x := (s.takeArrival src c n).crossLink (if dieOf src = dieOf c then none else some (dieLink (dieOf src) (dieOf c)))
        let s := x.2.correct pa 128
        if x.1 ∨ pa % 128 ≠ 0 ∨ ¬ Nat.testBit (s.loadN (pa + 72) 8) 0 then .next (s.dropTdec c)
        else
          let count := (s.loadN (pa + 64) 8 + 2 ^ 64 - 1) % 2 ^ 64
          let root := w64 (s.loadN (pa + 80) 8)
          let asp := BitVec.ofNat 16 (s.loadN (pa + 88) 2)
          let s := s.storeAt (pa + 64) (natLe 8 count)
          .next (if count = 0 then ((s.storeAt (pa + 72) (natLe 8 0)).placeBlock pa c root asp).wake (pa + 64) 16 else s.wake (pa + 64) 8)
      | none => .next (s.dropTdec src)
  | _ => .next s

/-! ### Migration (R371) -/

/-- The thread has an access or an engine command outstanding, or a sealed batch unfinished (R371 step 5). -/
def State.migrBusy (s : State) : Bool :=
  let t := s.me
  let x := s.myCore
  s.flights.any (fun f => f.tid == t.tid) || t.sAwait != 0 || t.vAwait != 0 || x.mx.any (fun q => q.tid == t.tid)
    || x.pg.any (fun q => q.tid == t.tid) || x.slcmds.any (fun q => q.tid == t.tid) || t.bat.done != t.bat.openN

/-- The package of a thread (R371): its registers and masks, the PC of its next instruction, and the listed control
registers; its vector registers arrive zero and full. -/
def Slot.package (t : Slot) : Slot :=
  { sr := t.sr, sFull := t.sFull, sPoison := t.sPoison, rErr := t.rErr.filter Prod.snd,
    afB := t.afB, afS := t.afS, kr := t.kr, pc := t.pc + 4, fstat := t.fstat,
    dspill := t.dspill, chcfg := t.chcfg, ptroot := t.ptroot, aspace := t.aspace,
    bat := { openN := t.bat.openN, done := t.bat.openN }, depth := t.depth, act := t.act, hlp := t.hlp, dstk := t.dstk }

/-- The package enters a buffer of the target and the origin slot is free; a last thread's task ends without a reply, and
hands its REPLY on when none has been sent (R371). -/
def State.migrate (s : State) (c : Nat) : State :=
  let t := s.me
  let task := s.taskOf s.cur.core t.task
  let last := s.lastOf s.cur.core s.cur.slot
  let s := s.modCore c fun x => { x with migbuf := x.migbuf ++ [⟨t.package, if last ∧ ¬ task.replied then task.reply else 0⟩] }
  let s := if last then s.modTask s.cur.core t.task fun x => { x with replied := true } else s
  s.freeSlot s.cur.core s.cur.slot

/-- MIGR (R371). -/
def execMigr (a : BitVec 6) (s : State) : Result :=
  run (do let va ← readS a
          let l ← resolveM va 1 .load 0
          let t ← getMe
          let home ← askM fun s => (s.homeOf l.pa).getD homeMgmt
          if 4096 ≤ home then resource 30 else pure ()
          let out ← askM fun s => s.partOf home != s.partOf s.cur.core
          if out then resource 31 else pure ()
          if (upto 0 4).any fun n => portOn t.qcfg n then queueTrap 9 else pure ()
          let busy ← askM State.migrBusy
          if busy then parkReg else pure ()
          if t.chState ≠ 0 then do
            doM fun s => (s.leaveChannel s.cur.core s.cur.slot).tryAgain 3
            finM
          else pure ()
          release 4
          let go ← output 68 va 0 []
          let full ← askM fun s => decide (4 ≤ (s.core home).migbuf.length)
          if full then parkM 10 else pure ()
          if go then do
            doM fun s => s.migrate home
            finM
          else parkReg) s

/-- MIGRATION_ARRIVAL (R371): the oldest package of core `n` starts as a new task with an empty allocation. -/
def execMigrationArrival (n : Nat) (s : State) : Result :=
  let x := s.core n
  match x.migbuf, x.freeSlots, x.freeTasks with
  | p :: r, k :: _, h :: _ =>
    let task : Task := { live := true, reply := p.reply, ptroot := p.thread.ptroot, aspace := p.thread.aspace }
    let s := s.modCore n fun x => { x with migbuf := r, tasks := put x.tasks h task }
    .next (s.startThread n k h fun t => { p.thread with
      live := true, tid := t.tid, task := h, evec := t.evec, retired := t.retired, lastCyc := t.lastCyc })
  | _, _, _ => .next s

end Sys2Proof.Machine
end

