-- ==== Sys2Proof/Machine/Batch.lean ====
section
/-! DEFINITION. Batches and mailboxes (R110, R111, R126, R127, R170 to R173). -/

namespace Sys2Proof.Machine

/-! ### Batches -/

/-- Sealed batches that are not finished (R171). -/
def Batches.pending (b : Batches) : Nat := (b.openN - b.done).toNat

/-- BSEAL (R170). -/
def execBseal (s : State) : Result :=
  run (do let t ← getMe
          if 64 ≤ t.bat.pending then parkM 8
          else modMe fun t => { t with bat := Batches.advance { t.bat with openN := t.bat.openN + 1 } 65 }) s

/-- BWAIT (R171). -/
def execBwait (a : BitVec 6) (s : State) : Result :=
  run (do let n ← readS a
          let t ← getMe
          if n.toNat < 64 ∧ n.toNat < t.bat.pending then parkM 8 else pure ()) s

/-! ### Mailboxes -/

/-- Reads s[a] to s[a + 7]. -/
def readEight (a : BitVec 6) : M (List W64) := (upto 0 8).mapM fun i => readS (a + BitVec.ofNat 6 i)

/-- The open request ends, and leaves its batch (R111). -/
def State.endRequest (s : State) (c : Nat) : State :=
  let q := (s.core c).slreq
  if q.open_ then
    (s.modBat c q.slot q.tid fun b => b.sub q.batch.toNat).modCore c fun x => { x with slreq := { x.slreq with open_ := false } }
  else s

/-- The threads that wait to send to mailbox `m`, oldest first. -/
def Core.senders (x : Core) (m : Nat) : List (Nat × Nat) := (x.mailWait.filter fun w => w.1 == m).map Prod.snd

/-- A mail enters a mailbox with its stamp, and its request its batch (R110, R172). -/
def State.putMail (s : State) (c m k : Nat) (words : List W64) : State :=
  let t := s.slot c k
  let mail : Mailbox := { full := true, words := words, slot := k, tid := t.tid, privS := t.privS, batch := t.bat.openN }
  (s.modCore c fun x => { x with mail := put x.mail m mail, mailWait := x.mailWait.filter fun w => w.2.2 != t.tid }).modBat c k t.tid
    fun b => b.add t.bat.openN.toNat

/-- The running thread's turn at mailbox `n` (R172): senders to one mailbox proceed in the order in which they parked. -/
def mailTurn (n : Nat) : M Unit := fun s =>
  let q := s.myCore.senders n
  if !(look {} s.myCore.mail n).full && (match q with | [] => true | w :: _ => w.2 == s.me.tid) then
    .ok ((), s.leaveMail s.cur.core s.me.tid)
  else if q.any fun w => w.2 == s.me.tid then .error (.park 9)
  else .error (.retry 9 fun s => s.modCore s.cur.core fun x => { x with mailWait := x.mailWait ++ [(n, (s.cur.slot, s.me.tid))] })

/-- MBSEND (R172): a release at .dev.  Of a pair, the leading thread's words wait in the comparator, and the trailing thread waits for
the mailbox and gives them their effect (R397). -/
def execMbsend (m : BitVec 3) (a : BitVec 6) (s : State) : Result :=
  run (do let l ← readEight a
          let n := m.toNat
          let t ← getMe
          let send : M Unit := doM fun s => s.putMail s.cur.core n s.cur.slot l
          match t.role with
          | .single => do
            release 4
            mailTurn n
            send
          | .leading _ => outputLater 70 (w64 n) 64 l (.mail n l) send
          | .trailing j => do
            asLeading j (release 4)
            mailTurn n
            outputLater 70 (w64 n) 64 l (.mail n l) send) s

/-- A mailbox is emptied, and its request becomes the open one (R111, R173). -/
def State.takeMail (s : State) (c m : Nat) : State :=
  let s := s.endRequest c
  s.modCore c fun x =>
    let b := look {} x.mail m
    { x with mail := del x.mail m, slreq := { slot := b.slot, tid := b.tid, open_ := true, batch := b.batch, privS := b.privS } }

/-- Writes s[d] to s[d + 7]. -/
def writeEight (d : BitVec 6) (l : List W64) : M Unit := (upto 0 8).forM fun i => writeS (d + BitVec.ofNat 6 i) (l.getD i 0)

/-- Stops with ILLEGAL unless slot 15 issues (R48). -/
def needSlot15 : M Unit := fun s => if s.cur.slot = 15 then .ok ((), s) else illegalM s

/-- MBTAKE (R173): a word with one wrong bit is corrected, one with more leaves its mark on its register (R399, R400). -/
def execMbtake (d : BitVec 6) (m : BitVec 3) (s : State) : Result :=
  run (do needSlot15
          let x ← getCore
          let b := look {} x.mail m.toNat
          if !b.full then parkM 9 else pure ()
          writeEight d b.words
          modMe fun t => (b.err.filter Prod.snd).foldl (fun t e => if d.toNat + e.1 = 0 ∨ t.isPort (d.toNat + e.1) then t
            else { t with sPoison := setBit t.sPoison ((d.toNat + e.1) % 64) true }) t
          doM fun s => { s.corrected s.cur.core (b.err.filter fun e => !e.2).length with relUeev := s.relUeev || b.err.any Prod.snd }
          doM fun s => s.takeMail s.cur.core m.toNat) s

/-- A write of SLREQ (R111): SLOT is set, OPEN clears, the open request ends. -/
def State.writeSlreq (s : State) (c : Nat) (v : W64) : State :=
  (s.endRequest c).modCore c fun x => { x with slreq := { x.slreq with slot := fieldN v 0 4, open_ := false } }

/-- SLREQ as read (R111).  DESIGN CHOICE: with OPEN = 0 no request is stamped, and PRIVS reads 0. -/
def State.slreqWord (s : State) (c : Nat) : W64 :=
  let q := (s.core c).slreq
  let batch := if q.open_ then q.batch else (s.slot c q.slot).bat.openN
  w64 ((if q.open_ ∧ q.privS then 2 ^ 32 else 0) + batch.toNat * 2 ^ 16 + (if q.open_ then 16 else 0) + q.slot)

end Sys2Proof.Machine
end

