-- ==== Sys2Proof/Machine/Clock.lean ====
section
/-! DEFINITION. Reference time, the clocks of the dies, the governor, and the counters that follow cycles (R217 to R219, R408,
R421 to R423, R426). -/

namespace Sys2Proof.Machine

/-! ### Run states and counters of cycles (R327, R328, R408) -/

/-- A publisher that may not issue: a hold stands, or a cross-die FIFO relocks (R344, R345). -/
def State.heldBack (s : State) (c k : Nat) : Bool :=
  let t := s.slot c k
  let ch := (s.core c).chan
  t.publishes && (!ch.holds.isEmpty || !ch.relock.isEmpty)

/-- The run state of a slot (R328).  A thread parked on its own access shows presence while the access's line is absent (R139,
R453, R165). -/
def State.runState (s : State) (c k : Nat) : Nat :=
  let t := s.slot c k
  let x := s.core c
  if t.wait = .dumping then 11
  else if !t.live then 0
  else if t.halted || x.dbg.freeze then 12
  else match t.wait with
    | .dumping => 11
    | .park n _ => n
    | .busy n (.access id) =>
      if s.flights.any fun f => f.id == id && f.pending && !s.present f.pa && (match f.op with
          | .ldSync .. => true
          | .stfe _ => true
          | .barwait _ => true
          | _ => false) then 5 else n
    | .busy n _ => n
    | .run =>
      if t.entering then 11 else
      if (t.inStream && t.chBuf.isEmpty) || s.heldBack c k then 7
      else if x.last = k ∧ x.lastCyc = some (s.cyc (dieOf c)) then 1 else 2

/-- Slots that PMSEL selects, as numbers. -/
def selSlots (q : W64) : List Nat := (upto 0 16).filter fun k => bitAt q (16 + k)

/-- How often a counter's event holds in each cycle of an interval without issues (R408): cycles, no slot ready, parked
slots by reason, slots ready and not issued, slots in trap, cycles at another frequency. -/
def State.perCycle (s : State) (c ev : Nat) (q : W64) : Nat :=
  let n (code : Nat) : Nat := ((selSlots q).filter fun k => s.runState c k == code).length
  if ev = 0 then 1
  else if ev = 2 then b2n ((upto 0 16).all fun k => s.runState c k != 1 && s.runState c k != 2)
  else if 11 ≤ ev ∧ ev ≤ 18 then n (ev - 8)
  else if ev = 19 then n 2
  else if ev = 20 then n 11
  else if ev = 28 then b2n ((upto 0 16).any fun k => s.heldBack c k)
  else if ev = 31 then b2n ((s.die (dieOf c)).freq != 3)
  else 0

/-- How often an event counts in the cycle in which slot `k` issued, when it does by the state that the slot has gone over into: a slot
that issues is neither parked nor ready and not issued nor held, and a core that issues has a slot ready (R328, R408). -/
def State.issueCycle (s : State) (c k ev : Nat) (q : W64) : Nat :=
  if ev = 2 then s.perCycle c 2 q
  else if 11 ≤ ev ∧ ev ≤ 20 then
    b2n ((selSlots q).contains k && s.runState c k == (if ev = 19 then 2 else if ev = 20 then 11 else ev - 8))
  else if ev = 28 then b2n (s.heldBack c k)
  else 0

/-- Counts of an event over the cycles from `x.pmAt` to `now`: those without an issue, and that of the core's last issue (R408). -/
def State.countOver (s : State) (c now ev : Nat) (q : W64) : Nat :=
  let x := s.core c
  let total := (now - x.pmAt) * s.perCycle c ev q
  match x.lastCyc with
  | some j => if x.pmAt ≤ j ∧ j < now then total - s.issueCycle c x.last ev q else total
  | none => total

/-- The events whose rate the manual does not give: array busy cycles and bank conflict cycles. -/
def timingEvent (ev : Nat) : Bool := ev == 5 || ev == 8

/-- Brings a core's counters up to the present cycle (R408). -/
def State.countCycles (s : State) (c : Nat) : State :=
  let x := s.core c
  let now := s.cyc (dieOf c)
  let n := now - x.pmAt
  if x.pmsel.isEmpty || n = 0 then s else
  let on := (upto 0 8).filter fun i => bitAt (look 0 x.pmsel i) 8
  let pmc := on.foldl (fun m i =>
    let q := look 0 x.pmsel i
    let ev := fieldN q 0 5
    let by_ := if timingEvent ev then Config.freeNat (s.free + i) % (n + 1) else s.countOver c now ev q
    put m i (look 0 m i + w64 by_)) x.pmc
  let pmet := on.foldl (fun m i => put m i (look 0 m i + w64 n)) x.pmet
  { s.setCore c { x with pmc := pmc, pmet := pmet, pmAt := now } with free := s.free + 8 }

/-- Every core whose counters are selected. -/
def State.countAll (s : State) : State := (keys (s.cores.filter fun p => !p.2.pmsel.isEmpty)).foldl State.countCycles s

/-! ### Reference time (R421) -/

/-- Ticks of the oscillator until TIME reaches the next sampling pulse, and TIME at that pulse; none while sampling is off (R406,
R421). -/
def State.toPulse (s : State) : Option (Nat × Nat) :=
  if s.smpInterval = 0 then none else
  let i := s.smpInterval.toNat
  let at_ := (s.time / i + 1) * i
  let need : Int := (at_ - s.time : Nat) * 2 ^ 32 - s.tfrac
  let r : Int := 2 ^ 32 + s.tfreq.toInt
  some (((need + r - 1) / r).toNat, at_)

/-- How many of `n` ticks of the oscillator pass at once: none while an added tick of TIME is owed; not past a sampling pulse, nor past
the 1024th tick of a slew (R406, R421). -/
def State.stride (s : State) (n : Nat) : Nat :=
  if 2 ^ 32 ≤ s.tfrac then 0 else
  let n := if s.tadj = 0 then n else Nat.min n (1024 - s.tslew)
  match s.toPulse with
  | some (k, _) => Nat.min n k
  | none => n

/-- The encoder writes its oldest records to the ring while the ring has a home that takes them (R412, R413). -/
def State.drainTrace (s : State) (c fuel : Nat) : State :=
  match fuel with
  | 0 => s
  | n + 1 =>
    let d := (s.core c).dbg
    let size := fieldN d.btbase 4 8 * 4096
    let a := fieldN d.btbase 12 40 * 4096 + d.btoff
    match d.btfifo with
    | [] => s
    | r :: l =>
      if size = 0 || (s.homeOf a).isNone || !s.homeOpen c a then s else
      State.drainTrace ((s.devWrite c a (natLe 8 r.toNat)).modCore c fun x => { x with dbg := { x.dbg with
        btfifo := l, btoff := (d.btoff + 8) % size, btWrapped := x.dbg.btWrapped || decide (size ≤ d.btoff + 8) } }) c n

/-- TIME runs on for up to `n` ticks of its oscillator (R421): each adds one tick, and TFREQ's share of one; TIME stays while a tick
is withheld, and stops at a sampling pulse, what is left over following it.  The trace encoders write their records (R413). -/
def State.advance (s : State) (n : Nat) : State :=
  let n := s.stride n
  let sum := s.tfrac + n * (2 ^ 32 + s.tfreq.toInt)
  let go := (sum / 2 ^ 32).toNat
  let go := match s.toPulse with | some (_, at_) => Nat.min go (at_ - s.time) | none => go
  let s := { s with time := s.time + go, tfrac := sum - go * 2 ^ 32, tslew := if s.tadj = 0 then 0 else s.tslew + n }
  ((keys (s.cores.filter fun p => !p.2.dbg.btfifo.isEmpty)).foldl (fun s c => s.drainTrace c 16) s).countAll

/-- A tick of a slew is due (R421). -/
def State.slewDue (s : State) : Bool := s.tadj != 0 && decide (1024 ≤ s.tslew)

/-- TIME_SLEW (R421): after 1024 ticks, one tick is added, or the next one withheld, while an offset remains. -/
def State.slew (s : State) : State :=
  if !s.slewDue then s
  else if s.tadj.slt 0 then { s with tfrac := s.tfrac - 2 ^ 32, tadj := s.tadj + 1, tslew := s.tslew - 1024 }
  else { s with tfrac := s.tfrac + 2 ^ 32, tadj := s.tadj - 1, tslew := s.tslew - 1024 }

/-- Writes the oldest STEPLOG entry of a die and advances STEPHEAD (R218). -/
def Die.log (x : Die) (time freq cyc : Nat) : Die :=
  let n := (x.newest + 1) % 8
  { x with steplog := put (put x.steplog (2 * n) (w64 time)) (2 * n + 1) (w64 (freq * 2 ^ 61 + cyc % 2 ^ 56)),
           newest := n, stepCount := (x.stepCount + 1) % 2 ^ 32 }

/-- `⌈a / b⌉`. -/
def ceilDiv (a b : Nat) : Nat := (a + b - 1) / b

/-- A forward step of TIME by `d` ticks on one die: its next cycle starts as long after the step as it would have started
without it (R219).  The entry of a die that stands in a frequency step names the tick at which its new clock starts, and is written
then (log entry 39). -/
def Die.jump (x : Die) (now cyc d : Nat) : Die :=
  match x.stepping with
  | some _ => { x with owed := x.owed + 1 }
  | none =>
    let next := if now < x.eTime then x.eTime else x.eTime + ceilDiv ((cyc - x.eCyc) * 1000) (clockMhz x.freq)
    let t := next + d
    { x.log t x.freq cyc with eTime := t, eCyc := cyc }

/-- A write of TADJ (R421). -/
def State.writeTadj (s : State) (v : W64) : State :=
  let d : W32 := v.setWidth 32
  if 2 ^ 20 < d.toInt then
    let n := d.toNat
    let s := (upto 0 4).foldl (fun s i => let c := s.cyc i; s.modDie i fun x => x.jump s.time c n) s
    { s with time := s.time + n, tadj := 0, tslew := 0 }
  else { s with tadj := d, tslew := 0 }

/-- A write of TFREQ saturates at ±2^22 (R421). -/
def State.writeTfreq (s : State) (v : W64) : State :=
  let f : Int := (v.setWidth 32 : W32).toInt
  { s with tfreq := BitVec.ofInt 32 (if 2 ^ 22 < f then 2 ^ 22 else if f < -(2 ^ 22) then -(2 ^ 22) else f) }

/-! ### Frequency steps (R422) and the governor (R426) -/

/-- The highest clock that the governor gives a die: its cap, 1.8 GHz only 10 °C below the throttle point, and 0.6 GHz while TRIP is set
or a die stands at 110 °C or more (R426). -/
def State.clockLimit (s : State) (d : Nat) : Nat :=
  let x := s.die d
  let m := satAt x.fcap (if x.temp ≤ 90 then 4 else 3)
  if s.pwrTrip || (upto 0 4).any (fun e => decide (110 ≤ (s.die e).temp)) then 0 else if x.throttled then satAt x.freq m else m

/-- A request for a die's clock: it replaces one that waits (R422). -/
def State.requestClock (s : State) (d f : Nat) : State := s.modDie d fun x => { x with request := some f }

/-- The clock that a die runs or is stepping to. -/
def Die.target (x : Die) : Nat := match x.stepping with | some (f, _) => f | none => x.freq

/-- A write of FCAPd (R422, R427). -/
def State.writeFcap (s : State) (d : Nat) (v : W64) : State :=
  let cap := fieldN v 0 3
  if 5 ≤ cap then s else
  let s := s.modDie d fun x => { x with fcap := cap, request := x.request.map (satAt cap) }
  if 2 ≤ s.level ∧ cap < (s.die d).target then s.requestClock d cap else s

/-- Cross-die channels of a die hold until their FIFOs relock (R345). -/
def State.relockDie (s : State) (d : Nat) : State :=
  (keys s.cores).foldl (fun s c =>
    s.modCore c fun x => { x with chan := { x.chan with
      relock := x.chan.relock ++ ((x.chan.subs.filter fun y =>
        dieOf y.1 != dieOf c && (dieOf y.1 == d || dieOf c == d) && !x.chan.relock.contains (y.1, y.2.1)).map fun y => (y.1, y.2.1)) } }) s

/-- FREQUENCY_STEP (R422): the die completes the cycle in progress and stops issuing.  A waiting request is served; without
one, the governor asks for a clock of its own choice. -/
def execFrequencyStep (die : Nat) (s : State) : Result :=
  let x := s.die die
  let want := (x.request.getD (Config.freeNat s.free % 5))
  let f := satAt (s.clockLimit die) want
  let s := if x.request.isNone then s.bump else s
  if s.level < 2 ∨ 4 ≤ die ∨ x.stepping.isSome ∨ s.time < x.eTime then .next s
  else if f = x.freq then .next (s.modDie die fun x => { x with request := none })
  else
    let n := s.cyc die
    .next ((s.modDie die fun x => { x with request := none, stepping := some (f, n) }).relockDie die)

/-- The management controller refreshes PWRSTAT.WATTS (R426, R427): a free value of at most 1600. -/
def State.readPower (s : State) : State := { s with watts := BitVec.ofNat 16 (Config.freeNat s.free % 1601) }.bump

/-- The new clock of a stopped die starts at a tick: the entries of forward steps of TIME during the stop, and the entry of the step
(R219, R422). -/
def Die.startClock (x : Die) (time f n : Nat) : Die :=
  let y := (upto 0 x.owed).foldl (fun y _ => y.log time x.freq n) x
  { y.log time f n with freq := f, eTime := time, eCyc := n, stepping := none, owed := 0 }

/-- NEW_CLOCK_START (R422): the new clock starts at this tick, and the die writes its STEPLOG entry. -/
def execNewClockStart (die : Nat) (s : State) : Result :=
  match (s.die die).stepping with
  | some (f, n) => .next (s.modDie die fun x => x.startClock s.time f n).readPower
  | none => .next s

/-- PWRSTAT.THROT: a die is throttled (R426). -/
def State.setThrot (s : State) : State := { s with pwrThrot := (upto 0 4).any fun d => (s.die d).throttled }

/-- The governor steps a throttled die down one clock (R426). -/
def State.stepDown (s : State) (d : Nat) : State :=
  let f := (s.die d).target
  let s := s.modDie d fun x => { x with throtAt := s.time }
  if 0 < f ∧ 2 ≤ s.level then s.requestClock d (f - 1) else s

/-- A die's temperature is read (R426): at 100 °C the governor starts to step it down; at 110 °C every die is held at 0.6 GHz, and
TRIP is set. -/
def State.readTemp (s : State) (d temp : Nat) : State :=
  if 4 ≤ d then s else
  let s := (s.modDie d fun x => { x with temp := temp }).readPower
  let s := if 100 ≤ temp ∧ ¬ (s.die d).throttled then (s.modDie d fun x => { x with throttled := true }).setThrot.stepDown d else s
  if 110 ≤ temp then (upto 0 4).foldl (fun s d => if 2 ≤ s.level then s.requestClock d 0 else s) { s with pwrTrip := true } else s

/-- THERMAL_THROTTLE (R426). -/
def execThermalThrottle (die : Nat) (temp : BitVec 8) (s : State) : Result := .next (s.readTemp die temp.toNat)

/-- THROTTLE_STEP (R426): 10 µs after the last step, one more clock down, until the die is below 95 °C. -/
def execThrottleStep (die : Nat) (s : State) : Result :=
  let x := s.die die
  if !x.throttled || decide (s.time < x.throtAt + 10000) then .next s
  else if x.temp < 95 then .next (s.modDie die fun x => { x with throttled := false }).setThrot
  else .next (s.stepDown die)

/-- THERMAL_TRIP (R426). -/
def execThermalTrip (die : Nat) (temp : BitVec 8) (s : State) : Result := .next (s.readTemp die temp.toNat)

/-- TIME_SLEW (R421). -/
def execTimeSlew (s : State) : Result := .next s.slew

end Sys2Proof.Machine
end

