-- ==== Sys2Proof/Machine/Boundary.lean ====
section
/-! DEFINITION. Instruction boundaries: waits that are withdrawn (R161), asynchronous traps (R380), halts (R410 to R412) and
requested dumps (R414). -/

namespace Sys2Proof.Machine

/-! ### Withdrawal (R161) -/

/-- The load-value queue without the inputs of the instruction under way that the trailing thread has not taken, and without the places
that it reserved (R161, R397). -/
def Slot.lvqAgain (t : Slot) : List LvEnt :=
  t.lvq.filter fun e => !(e.flight.isNone && e.at_.isNone && (e.vals.isNone || t.ins.any fun i => i.1 == e.key && e.vals == some [i.2]))

/-- The thread goes back to the instruction that it waited in. -/
def Slot.again (t : Slot) : Slot := { t with lvq := t.lvqAgain, ins := [], wait := .run, pops := [], walkRes := [], missed := none, queued := none }

/-- Drops the access that a thread waits for: from its home's wait lists, from the comparator that holds it, and the place
that it reserved in the load-value queue (R161, R397). -/
def State.dropWait (s : State) (c k id : Nat) : State :=
  (s.withdrawWait id).modSlot c k fun t => { t with
    cmp := t.cmp.filter fun e => e.access != some id,
    lvq := t.lvq.filter fun e => !(e.flight == some id && e.vals.isNone) }

/-- Withdraws what a thread waits for (R161): its instruction re-executes, or has been performed and stands. -/
def State.abandon (s : State) (c k : Nat) : State :=
  let t := s.slot c k
  let back (s : State) : State := s.modSlot c k Slot.again
  match t.wait with
  | .run => s
  | .dumping => s
  | .park _ _ => back (s.leaveMail c t.tid)
  | .busy _ b =>
    match b with
    | .divide .. => back s
    | .vdivide _ _ _ => back s
    | .yield _ _ => back s
    | .sleep _ => back s
    | .access id =>
      (match s.flights.find? fun f => f.id == id with
       | some f =>
         (match f.stage with
          | .returning v fl p => if s.destReady c k f.op.dest then s.valueReturn f v fl p else s.complete c k fun t => t
          | _ => back (s.dropWait c k id))
       | none => back (s.dropWait c k id))
    | .place _ => back (s.dropBusy c k)
    | .chsub _ =>
      back ((s.modCore t.chChan fun x => { x with chan := { x.chan with
        joining := x.chan.joining.filter fun y => !(y == (c, k, t.tid)) } }).modSlot c k fun t => { t with chState := 0 })
    | .chresub _ =>
      back ((s.modCore t.chChan fun x => { x with chan := { x.chan with
        rejoin := x.chan.rejoin.filter fun y => !(y.1 == c && y.2.1 == k) } }).modSlot c k
          fun t => { t with chState := 4, chTag := 0, chReports := t.chReports.filter fun r => r != 5 })
    | .pattern _ => back (s.dropBusy c k)
    | .rgopen _ => back (s.dropBusy c k)
    | .hmap _ _ => back s
    | .pdirbase _ => back s
    | .rstpost _ => back s
    | .pmrd _ => back s
    | .shared => back (s.dropBusy c k)

/-! ### Asynchronous traps (R380, R398) -/

/-- The lowest pending cause of a thread that it takes at this boundary, with EADDR and ESTAT, and what delivery removes. -/
def State.pendingTrap (s : State) (c k : Nat) : Option (Post × (State → State)) :=
  let t := s.slot c k
  if !t.live || t.halted || t.wait == .dumping || (s.core c).dbg.freeze then none else
  let atU := !t.privS && !t.qinh
  match (if atU then s.fmtFor c k else none) with
  | some r =>
    let lost := (s.taskOf c t.task).fmtLost
    some (⟨0x0A, r.1, r.2.1 + w64 (satAt 15 lost * 2 ^ 20)⟩,
      fun s => s.modTask c t.task fun x => { x with fmtq := x.fmtq.erase r, fmtLost := 0 })
  | none =>
    match (if atU then t.pendCopy else []) with
    | p :: r => some (p, fun s => s.modSlot c k fun t => { t with pendCopy := r })
    | [] =>
      match (if atU then t.pendPre else none) with
      | some p => some (p, fun s => s.modSlot c k fun t => { t with pendPre := none })
      | none =>
        match t.mismatch with
        | some p => some (p, fun s => s.modSlot c k fun t => { t with mismatch := none })
        | none =>
          match (if atU then t.pendMerge else []) with
          | p :: r => some (p, fun s => s.modSlot c k fun t => { t with pendMerge := r })
          | [] => none

/-- The address of the instruction that a thread would issue next: its head bundle's for an attached subscriber (R349). -/
def Slot.nextPc (t : Slot) : W64 :=
  if t.inStream then (match t.chBuf with | b :: _ => b.pc | [] => t.pc) else t.pc

/-- ASYNC_TRAP_DELIVERY (R380): the lowest pending cause, one per boundary; a parked thread's wait is withdrawn. -/
def execAsyncTrapDelivery (core slot : Nat) (s : State) : Result :=
  match s.pendingTrap core slot with
  | none => .next s
  | some (p, f) =>
    let s := (f s).abandon core slot
    .next (s.trapEntry core slot p.cause (s.slot core slot).nextPc p.addr p.stat)

/-- WAIT_WITHDRAWAL (R161): the withdrawal of a waiting thread that is to trap reaches the home of its access. -/
def execWaitWithdrawal (num : Nat) (s : State) : Result :=
  match s.flights.find? fun f => f.id == num with
  | some f =>
    let t := s.slot f.core f.slot
    let waits : Bool := match t.wait with | .busy _ (.access id) => id == num | _ => false
    .next (if t.tid = f.tid ∧ waits ∧ (s.pendingTrap f.core f.slot).isSome then s.abandon f.core f.slot else s)
  | none => .next s

/-- FMTMISMATCH_RECORD (R380): a record joins its task's queue of four, or is lost and counted. -/
def execFmtmismatchRecord (n : Nat) (s : State) : Result :=
  match find s.msgs n with
  | some (.fmt c h a st slot) =>
    let s := { s with msgs := del s.msgs n }
    .next (if (s.taskOf c h).live then s.modTask c h fun t =>
      if t.fmtq.length < 4 then { t with fmtq := t.fmtq ++ [(a, st, slot)] } else { t with fmtLost := t.fmtLost + 1 } else s)
  | _ => .next s

/-- Pre-empts a task: every thread has PREEMPT pending with its ordinal and the thread count (R386, R387). -/
def State.preemptTask (s : State) (c h code : Nat) : State :=
  if !(s.taskOf c h).live then s else
  let l := s.threadsOf c h
  let s := s.modTask c h fun t => { t with preempted := some (w64 code), preemptN := l.length }
  l.foldl (fun s k => s.modSlot c k fun t =>
    { t with pendPre := some ⟨0x10, 0, w64 ((l.takeWhile fun j => j != k).length + l.length * 256 + code * 65536)⟩ }) s

/-- PREEMPT (R386): a post reaches its core. -/
def execPreempt (n : Nat) (s : State) : Result :=
  match find s.msgs n with
  | some (.preempt v) =>
    let s := { s with msgs := del s.msgs n }
    .next (if coreExists (fieldN v 0 12) then s.preemptTask (fieldN v 0 12) (fieldN v 16 4) (fieldN v 20 8) else s)
  | _ => .next s

/-! ### Halts (R410 to R412) -/

/-- A slot halts at its boundary: its wait is withdrawn (R411). -/
def State.haltNow (s : State) (c k why : Nat) : State := (s.abandon c k).halt c k why

/-- Sets a slot's HALTREQ bit (R410): a thread in it halts. -/
def State.setHaltreq (s : State) (c k : Nat) : State :=
  let s := s.modCore c fun x => { x with dbg := { x.dbg with haltreq := setBit x.dbg.haltreq k true } }
  if (s.slot c k).live && !(s.slot c k).halted then s.haltNow c k 0 else s

/-- Clears a slot's HALTREQ bit: the debug module resumes it (R410). -/
def State.clearHaltreq (s : State) (c k : Nat) : State :=
  (s.modCore c fun x => { x with dbg := { x.dbg with haltreq := setBit x.dbg.haltreq k false } }).modSlot c k
    fun t => { t with halted := false }

/-- A core freezes: every slot halts, with its wait withdrawn (R412). -/
def State.freeze (s : State) (c : Nat) : State :=
  (upto 0 16).foldl (fun s k => if (s.slot c k).live then s.abandon c k else s)
    (s.modCore c fun x => { x with dbg := { x.dbg with freeze := true } })

/-- A write of DBGCTL (R410). -/
def State.writeDbgctl (s : State) (c : Nat) (v : W64) : State :=
  let old := (s.core c).dbg
  let s := s.modCore c fun x => { x with dbg := { x.dbg with swbp := bitAt v 33, step := BitVec.ofNat 16 (fieldN v 16 16) } }
  let s := (upto 0 16).foldl (fun s k =>
    if bitAt v k && !bitAt old.haltreq k then s.setHaltreq c k
    else if !bitAt v k && bitAt old.haltreq k then s.clearHaltreq c k else s) s
  if bitAt v 32 && !old.freeze then s.freeze c
  else s.modCore c fun x => { x with dbg := { x.dbg with freeze := bitAt v 32 } }

/-- DBGSTAT (R410). -/
def State.dbgstat (s : State) (c : Nat) : W64 :=
  let d := (s.core c).dbg
  let h := (upto 0 16).foldl (fun a k => if s.runState c k = 12 then a + 2 ^ k else a) 0
  w64 (h + b2n d.freeze * 2 ^ 16 + d.why * 2 ^ 17 + d.slot * 2 ^ 21)

/-! ### Requested dumps (R414) -/

/-- A write of DUMPREQ (R414): a dump of the named slot starts, or the trigger is dropped. -/
def State.writeDumpreq (s : State) (c : Nat) (v : W64) : State :=
  let k := fieldN v 0 4
  let s := s.modCore c fun x => { x with dumpreq := keep v 0x1F }
  if !bitAt v 4 then s
  else if !(s.slot c k).live || (s.slot c k).wait == .dumping || (s.core c).dump.isSome then
    s.modCore c fun x => { x with dumpDropped := satAt 255 (x.dumpDropped + 1) }
  else
    let t := s.slot c k
    ((s.abandon c k).startDump c k false [t.ecause, t.epc, t.eaddr, t.estat, w64 (t.esA.toNat + t.esH.toNat * 2 ^ 16)]).modSlot c k fun t => { t with wait := .dumping }

end Sys2Proof.Machine
end

