-- ==== Sys2Proof/Machine/Creg.lean ====
section
/-! DEFINITION. The control registers (R215 to R219, R238 and the tables of every chapter): what each number reads and writes. -/

namespace Sys2Proof.Machine

/-! ### Who may touch a number (R215) -/

/-- A number that traps with PRIV at U. -/
def cregPriv (n : Nat) : Bool := n == 0x004 || decide (0x300 ≤ n)
/-- A number whose writes have no effect at U. -/
def cregRoAtU (n : Nat) : Bool :=
  inRange n 0x000 0x003 || n == 0x008 || n == 0x00A || n == 0x00B || inRange n 0x010 0x01F || inRange n 0x020 0x021
    || inRange n 0x1C0 0x1CC || inRange n 0x1DD 0x1DE || inRange n 0x1E0 0x1E7 || inRange n 0x200 0x23F || n == 0x241
    || inRange n 0x280 0x283 || inRange n 0x290 0x29F || inRange n 0x2A0 0x2B7 || n == 0x2B9
/-- A number that a slot or a task owns; every other one belongs to a core, a die, a cluster hub, a partition or the module
(R215, R419). -/
def cregOwn (n : Nat) : Bool :=
  inRange n 0x000 0x021 || inRange n 0x100 0x17F || inRange n 0x1A0 0x1AF || inRange n 0x1C0 0x1E7 || inRange n 0x2B8 0x2C4
    || inRange n 0x300 0x301 || inRange n 0x310 0x311 || inRange n 0x338 0x339

/-! ### Reads -/

/-- The lock bit of a physical accumulator (R210, R259). -/
def Core.accLocked (x : Core) (acc : Nat) : Bool := x.mx.any fun q => q.writes.contains (8 + acc)

/-- CHSTATE (R339). -/
def State.chstate (s : State) (c k : Nat) : W64 :=
  let t := s.slot c k
  let ch := (s.core c).chan
  let pub := t.chState == 1
  w64 (t.chState + b2n t.chTmo * 8 + t.chChan * 2 ^ 14 + t.chTag * 2 ^ 26
    + (if pub then ch.dep * 2 ^ 40 + (ch.subs.length - ch.dep) * 2 ^ 52 else 0))

/-- A register of a pattern slot by its offset (R287). -/
def PSlot.reg (p : PSlot) (o : Nat) : W64 :=
  match o with
  | 0 => w64 (b2n p.mode + b2n p.done * 2 + b2n p.inv * 2 ^ 8 + b2n p.tab * 2 ^ 9 + b2n p.tv * 2 ^ 10 + p.code.length * 2 ^ 16 + p.last * 2 ^ 24)
  | 1 => w64 (p.r + p.c * 2 ^ 16 + p.ir * 2 ^ 32 + p.ic * 2 ^ 48)
  | 2 => w64 (p.row + p.col * 2 ^ 16 + p.rank * 2 ^ 32)
  | 3 => w64 (p.t + p.tc0 * 2 ^ 32 + p.tw * 2 ^ 48)
  | _ => p.addr &&& ~~~ (3 : W64)

/-- A register that the slot or its task owns (R216, R334, R374, R377, R209, R254, R272, R287). -/
def State.ownReg (s : State) (c k n : Nat) : W64 :=
  let t := s.slot c k
  let x := s.core c
  let task := s.taskOf c t.task
  let tile (i : Nat) : Nat := task.tiles.getD i 0
  let acc (i : Nat) : Nat := task.accs.getD i 0
  if n = 0x000 then t.epc else if n = 0x001 then t.ecause else if n = 0x002 then t.eaddr else if n = 0x003 then t.estat
  else if n = 0x004 then t.evec else if n = 0x005 then t.dspill else if n = 0x006 then s.fstatOf c k else if n = 0x007 then t.chcfg
  else if n = 0x008 then w64 (c + t.leadSlot k * 2 ^ 12 + t.task * 2 ^ 16 + s.partOf c * 2 ^ 20)
  else if n = 0x009 then s.chstate c k
  else if n = 0x00A then w64 t.depth
  else if n = 0x00B then w64 (t.act.toNat + t.hlp.toNat * 2 ^ 16)
  else if n = 0x00C then t.qcval else if n = 0x00D then t.qrpc
  else if n = 0x00E then w64 (t.qport.toNat + b2n t.qinh * 4)
  else if n ≤ 0x01F then (match t.dstk[n - 0x010]? with | some e => e.word | none => 0)
  else if n = 0x020 then w64 (t.esA.toNat + t.esH.toNat * 2 ^ 16)
  else if n = 0x021 then s.epend c k
  else if n ≤ 0x17F then (match task.banks[n - 0x100]? with | some b => look 0 x.bfmt b | none => 0)
  else if n ≤ 0x1AF then bstatWord (s.slot c (n - 0x1A0)).bat
  else if n ≤ 0x1C7 then look 0 x.tshape (tile (n - 0x1C0))
  else if n ≤ 0x1CB then look 0 x.ashape (acc (n - 0x1C8))
  else if n = 0x1CC then w64 (bitsToNat (fun i => (match task.accs[i]? with | some a => x.accLocked a | none => false)) 4)
  else if n ≤ 0x1D7 then look 0 t.tsh (n - 0x1D0)
  else if n ≤ 0x1DB then look 0 t.ash (n - 0x1D8)
  else if n = 0x1DC then t.mxcfg else if n = 0x1DD then t.mxrprog else if n = 0x1DE then t.mxrinit
  else if n ≤ 0x1E7 then w64 (look 0 x.tscale (tile (n - 0x1E0))).toNat
  else if n = 0x2B8 then t.pmrsel
  else if n = 0x2C0 then t.qcfg
  else if n ≤ 0x2C4 then look 0 t.qhdl (n - 0x2C1)
  else if n = 0x300 then t.ptroot else if n = 0x301 then w64 t.aspace.toNat
  else if n = 0x310 then t.sptagsel
  else if n = 0x338 then t.accidx else t.accput

/-- A register of a core (R113, R203, R313, R358, R386, R396, R404 to R414). -/
def State.coreReg (s : State) (c n : Nat) : W64 :=
  let x := s.core c
  let d := x.dbg
  if n ≤ 0x187 then look 0 x.slsh (n - 0x180)
  else if n ≤ 0x18F then (match x.slcmds.find? fun q => !q.stopped with | some q => look 0 q.desc (n - 0x188) | none => 0)
  else if n = 0x190 then s.slreqWord c else if n = 0x191 then s.slsts c
  else if n ≤ 0x23F then (look {} x.pslots ((n - 0x200) / 16)).reg (n % 16)
  else if n = 0x240 then x.srcfg else if n = 0x241 then x.srgrp else if n = 0x242 then x.srbase
  else if n ≤ 0x2A7 then look 0 x.pmc (n - 0x2A0)
  else if n ≤ 0x2AF then look 0 x.pmsel (n - 0x2A8)
  else if n ≤ 0x2B7 then look 0 x.pmet (n - 0x2B0)
  else if n = 0x302 then w64 x.colwin
  else if n = 0x313 then x.gown else if n = 0x314 then w64 x.filldrop.toNat else if n = 0x315 then w64 x.sloten.toNat
  else if n = 0x322 then w64 x.tdrop.toNat else if n = 0x325 then x.devec
  else if n = 0x330 then x.prpost else if n = 0x331 then x.rstpost
  else if n = 0x332 then (match x.dropq with | (q, _) :: _ => q ||| w64 (2 ^ 62) | [] => 0)
  else if n = 0x333 then x.dropv
  else if n = 0x340 then w64 (d.haltreq.toNat + d.step.toNat * 2 ^ 16 + b2n d.freeze * 2 ^ 32 + b2n d.swbp * 2 ^ 33)
  else if n = 0x341 then s.dbgstat c
  else if n ≤ 0x345 then look 0 d.bp (n - 0x342)
  else if n = 0x346 then look 0 d.wp 0 else if n = 0x347 then look 0 d.wpc 0
  else if n = 0x348 then look 0 d.wp 1 else if n = 0x349 then look 0 d.wpc 1
  else if n = 0x34A then d.btbase else if n = 0x34B then w64 (d.btoff + b2n d.btWrapped * 2 ^ 63)
  else if n = 0x360 then x.dumpcfg else if n = 0x361 then x.dumpreq
  else w64 (b2n x.dump.isSome + x.dumpDropped * 2 ^ 8 + x.dumpDone % 2 ^ 16 * 2 ^ 16)

/-- A register of a die, a cluster hub, a partition or the module as core `c` reaches it (R80, R143, R217, R218, R358, R404 to
R409, R427). -/
def State.moduleReg (s : State) (c n : Nat) : W64 :=
  let x := s.die (dieOf c)
  let h := s.hub (c / 16)
  if n = 0x280 then w64 (s.cyc (dieOf c)) else if n = 0x281 then w64 s.ncyc else if n = 0x282 then w64 s.time
  else if n = 0x283 then w64 (x.newest + x.stepCount * 2 ^ 32)
  else if n ≤ 0x29F then look 0 x.steplog (n - 0x290)
  else if n = 0x312 then look 0 s.pdirbase (s.partOf c)
  else if n = 0x320 then w64 (h.age + h.offset * 2 ^ 24 + h.size * 2 ^ 32)
  else if n = 0x321 then w64 (h.bank.length + h.ringCount * 2 ^ 16 + h.drops * 2 ^ 32)
  else if n = 0x323 then h.lroot else if n = 0x324 then w64 h.laspace.toNat
  else if n = 0x350 then w64 (s.smpInterval.toNat * 2 ^ 32)
  else if n ≤ 0x357 then (s.die (n - 0x354)).smpbuf
  else if n ≤ 0x35B then w64 ((s.die (n - 0x358)).head + (s.die (n - 0x358)).tail * 2 ^ 32)
  else if n = 0x370 then w64 (b2n s.relRepl + b2n s.relUeev * 2 + b2n s.relDegr * 4 + b2n s.relLinkdn * 8
    + satAt 255 s.mapout.length * 2 ^ 8 + satAt 255 s.relRails * 2 ^ 16 + s.relUe * 2 ^ 24 + s.relCe.toNat * 2 ^ 32)
  else if n = 0x371 then s.mapoutReg
  else if n = 0x372 then w64 h.partid
  else if n = 0x373 then w64 s.hmapsel
  else if n = 0x374 then (if s.hmapsel < 80 then look 0 s.hmap s.hmapsel else 0)
  else if n = 0x380 then w64 (s.level + b2n s.fwok * 2 ^ 8 + s.fwver.toNat * 2 ^ 16)
  else if n ≤ 0x384 then w64 (s.die (n - 0x381)).fcap
  else if n = 0x385 then w64 ((upto 0 4).foldl (fun a d => a + (s.die d).temp % 256 * 2 ^ (8 * d)) 0)
  else if n = 0x386 then w64 (s.watts.toNat + b2n s.pwrThrot * 2 ^ 16 + b2n s.pwrTrip * 2 ^ 17)
  else if n = 0x388 then w64 s.tadj.toNat else if n = 0x389 then w64 s.tfreq.toNat
  else if n = 0x38A then s.hostwin
  else if n ≤ 0x397 then
    let p := look {} s.peer (n - 0x390)
    w64 (b2n p.up + b2n p.openHere * 2 + p.rails * 4 + p.remote.toNat * 2 ^ 16)
  else if n ≤ 0x39B then
    let p := look {} s.far (n - 0x398)
    w64 (b2n p.up + p.gib * 2 ^ 16)
  else w64 s.hosterr.toNat

/-- The numbers of `moduleReg`. -/
def cregModule (n : Nat) : Bool :=
  inRange n 0x280 0x29F || n == 0x312 || n == 0x320 || n == 0x321 || n == 0x323 || n == 0x324 || inRange n 0x350 0x35B
    || inRange n 0x370 0x39C

/-- A register that a core, a die, a hub, a partition or the module owns, as core `c` reads it. -/
def State.sharedReg (s : State) (c n : Nat) : W64 := if cregModule n then s.moduleReg c n else s.coreReg c n

/-- A pattern slot's register, read by the task's own slot number (R277, R287). -/
def State.patternReg (s : State) (c k n : Nat) : W64 :=
  match (s.taskOf c (s.slot c k).task).accs[(n - 0x200) / 16]? with
  | some a => (look {} (s.core c).pslots a).reg (n % 16)
  | none => 0

/-- What a thread reads. -/
def State.creg (s : State) (c k n : Nat) : W64 :=
  if cregOwn n then s.ownReg c k n else if inRange n 0x200 0x23F then s.patternReg c k n else s.sharedReg c n

/-! ### Writes -/

/-- QCFG (R207): EN stays clear for a side without a neighbour, and for a port that another slot holds; the two threads of a
pair hold a port together. -/
def State.writeQcfg (s : State) (c k : Nat) (v : W64) : State :=
  let t := s.slot c k
  let held (n : Nat) : Bool := (upto 0 16).any fun j => j != k && t.partner != some j && (s.slot c j).live && portOn (s.slot c j).qcfg n
  let w := (upto 0 4).foldl (fun a n =>
    let f := portCfg v n % 64
    let f := if f % 2 = 1 ∧ ((neighbour c (portSide v n)).isNone ∨ held n) then f - 1 else f
    a + f * 2 ^ (16 * n)) 0
  let fresh := t.freshPorts.filter fun n => portOn (w64 w) n
  (s.modCore c fun x => { x with ports := fresh.foldl (fun m n => del m n) x.ports }).modSlot c k fun t =>
    { t with qcfg := w64 w, freshPorts := t.freshPorts.filter fun n => !fresh.contains n }

/-- A write of BSTATn (R127): the W1C fields, and at S OPEN and DONE. -/
def Batches.write (b : Batches) (v : W64) (privS : Bool) : Batches :=
  let b := { b with failed := b.failed && !bitAt v 15, disc := b.disc && !bitAt v 14,
                    flags := b.flags &&& ~~~ BitVec.ofNat 4 (fieldN v 4 4) }
  if privS then { b with openN := BitVec.ofNat 16 (fieldN v 48 16), done := BitVec.ofNat 16 (fieldN v 32 16) } else b

/-- DSDEPTH (R334): the core holds the top min(D, 16) entries. -/
def Slot.setDepth (t : Slot) (d : Nat) : Slot :=
  let n := if d < 16 then d else 16
  { t with depth := d, dstk := (t.dstk ++ List.replicate 16 ({} : DEnt)).take n }

/-- A write of a register that the slot or its task owns; its reserved bits are ignored (R13). -/
def State.writeOwn (s : State) (c k n : Nat) (v : W64) : State :=
  let task := s.taskOf c (s.slot c k).task
  let on (f : Slot → Slot) : State := s.modSlot c k f
  if n = 0x000 then on fun t => { t with epc := v }
  else if n = 0x001 then on fun t => { t with ecause := keep v 0xFF }
  else if n = 0x002 then on fun t => { t with eaddr := v }
  else if n = 0x003 then on fun t => { t with estat := keep v 0x100FFFFFF }
  else if n = 0x004 then on fun t => { t with evec := v &&& ~~~ (3 : W64) }
  else if n = 0x005 then on fun t => { t with dspill := v &&& ~~~ (63 : W64) }
  else if n = 0x006 then s.putFstat c k v
  else if n = 0x007 then on fun t => { t with chcfg := keep v 0xFFFFFFFF }
  else if n = 0x009 then on fun t => { t with chTmo := t.chTmo && !bitAt v 3 }
  else if n = 0x00A then on fun t => t.setDepth (fieldN v 0 16)
  else if n = 0x00B then on fun t => { t with act := v.setWidth 16, hlp := BitVec.ofNat 16 (fieldN v 16 16) }
  else if n = 0x00D then on fun t => { t with qrpc := v &&& ~~~ (3 : W64) }
  else if inRange n 0x010 0x01F then on fun t =>
    { t with dstk := if n - 0x010 < t.dstk.length then t.dstk.set (n - 0x010) (DEnt.ofWord v) else t.dstk }
  else if n = 0x020 then on fun t => { t with esA := v.setWidth 16, esH := BitVec.ofNat 16 (fieldN v 16 16) }
  else if inRange n 0x100 0x17F then
    (match task.banks[n - 0x100]? with
     | some b => s.modCore c fun x => { x with bfmt := put x.bfmt b (keep v 0xFF07) }
     | none => s)
  else if inRange n 0x1A0 0x1AF then
    let p := (s.slot c k).privS
    s.modSlot c (n - 0x1A0) fun t => { t with bat := t.bat.write v p }
  else if inRange n 0x1D0 0x1D7 then on fun t => { t with tsh := put t.tsh (n - 0x1D0) (keep v 0x71FFFF00) }
  else if inRange n 0x1D8 0x1DB then on fun t => { t with ash := put t.ash (n - 0x1D8) (keep v 0xFF7F01) }
  else if n = 0x1DC then on fun t => { t with mxcfg := keep v 0x7FF7F7F0377 }
  else if inRange n 0x1E0 0x1E7 then
    (match task.tiles[n - 0x1E0]? with
     | some i => s.modCore c fun x => { x with
         tscale := put x.tscale i (v.setWidth 8), mx := x.mx.map fun q => if q.ta = i then { q with overtaken := true } else q }
     | none => s)
  else if n = 0x2B8 then on fun t => { t with pmrsel := keep v 0x1F0FFF }
  else if n = 0x2C0 then s.writeQcfg c k v
  else if inRange n 0x2C1 0x2C4 then on fun t => { t with qhdl := put t.qhdl (n - 0x2C1) v }
  else if n = 0x300 then on fun t => { t with ptroot := keep v 0xFFFFFFFFFC000 }
  else if n = 0x301 then on fun t => { t with aspace := v.setWidth 16 }
  else if n = 0x310 then on fun t => { t with sptagsel := keep v 0x7FFC0 }
  else if n = 0x338 then on fun t => { t with accidx := keep v 0x31FFE }
  else s

/-- Reserved bits of the shadow registers (R113). -/
def shadowMask (j : Nat) : Nat :=
  if j = 0 then 0xFFFFFFFF else if j = 1 then 0xFFFF else if j = 4 then 0x3FFFF3F else 2 ^ 64 - 1

/-- A shadow register takes a value.  DEDUCED: SLBAR keeps bits [3:0], which R113 gives as zero without calling them reserved, since
R129 fails the command that latches others (log entry 49). -/
def State.writeShadow (s : State) (c j : Nat) (v : W64) : State :=
  s.modCore c fun x => { x with slsh := put x.slsh j (keep v (shadowMask j)) }

/-- QRING (R358): AGE always; SIZE and OFFSET when the ring fits and is empty. -/
def State.writeQring (s : State) (h : Nat) (v : W64) : State :=
  let size := fieldN v 32 6
  let off := fieldN v 24 6
  s.modHub h fun x =>
    let x := { x with age := fieldN v 0 16 }
    if size = 0 ∨ 64 < off + size ∨ x.ringCount ≠ 0 then x else { x with size := size, offset := off, ringHead := 0 }

/-- PMSEL (R408): counting so far keeps the old selection. -/
def State.writePmsel (s : State) (c i : Nat) (v : W64) : State :=
  let s := s.countCycles c
  s.modCore c fun x => { x with pmsel := put x.pmsel i (keep v 0xFFFF011F), pmAt := s.cyc (dieOf c) }

/-- A write of a core's register. -/
def State.writeCore (s : State) (c n : Nat) (v : W64) : State :=
  let on (f : Core → Core) : State := s.modCore c f
  let dbg (f : Dbg → Dbg) : State := s.modCore c fun x => { x with dbg := f x.dbg }
  if inRange n 0x180 0x187 then s.writeShadow c (n - 0x180) v
  else if n = 0x190 then s.writeSlreq c v
  else if n = 0x240 then on fun x => { x with srcfg := keep v 0xFFFF000000007F01 }
  else if n = 0x241 then on fun x => { x with srgrp := v }
  else if n = 0x242 then on fun x => { x with srbase := v }
  else if inRange n 0x2A0 0x2A7 then on fun x => { x with pmc := put x.pmc (n - 0x2A0) v }
  else if inRange n 0x2A8 0x2AF then s.writePmsel c (n - 0x2A8) v
  else if inRange n 0x2B0 0x2B7 then on fun x => { x with pmet := put x.pmet (n - 0x2B0) v }
  else if n = 0x302 then on fun x => { x with colwin := satAt 64 (fieldN v 0 7) }
  else if n = 0x313 then on fun x => { x with gown := keep v 0x1F }
  else if n = 0x314 then on fun x => { x with filldrop := v.setWidth 32 }
  else if n = 0x322 then on fun x => { x with tdrop := v.setWidth 32 }
  else if n = 0x325 then on fun x => { x with devec := v &&& ~~~ (3 : W64) }
  else if n = 0x330 then { on fun x => { x with prpost := keep v 0xFFF0FFF } with msgs := put s.msgs s.nextId (.preempt (keep v 0xFFF0FFF)), nextId := s.nextId + 1 }
  else if n = 0x340 then s.writeDbgctl c v
  else if inRange n 0x342 0x345 then dbg fun d => { d with bp := put d.bp (n - 0x342) (keep v 0x1FFFFFFFFFFFFFD) }
  else if n = 0x346 then dbg fun d => { d with wp := put d.wp 0 (keep v 0x1FFFFFFFFFFFFFF) }
  else if n = 0x347 then dbg fun d => { d with wpc := put d.wpc 0 (keep v 0x71F) }
  else if n = 0x348 then dbg fun d => { d with wp := put d.wp 1 (keep v 0x1FFFFFFFFFFFFFF) }
  else if n = 0x349 then dbg fun d => { d with wpc := put d.wpc 1 (keep v 0x71F) }
  else if n = 0x34A then dbg fun d => { d with btbase := keep v 0xFFFFFFFFFFFF1 }
  else if n = 0x360 then on fun x => { x with dumpcfg := keep v 0xFFFFFFFFFFF03 }
  else if n = 0x361 then s.writeDumpreq c v
  else s

/-- REPL and DEGR rise when CORESOUT, RAILS or LINKDN is nonzero (R404). -/
def State.degrade (s : State) : State := { s with relRepl := true, relDegr := true }

/-- Whether a core runs a task (R405). -/
def Core.busy (x : Core) : Bool := x.tasks.any fun p => p.2.live

/-- A MOVTC of MAPOUT (R405): an idle core leaves; one that names no core, or a core mapped out already, has no effect. -/
def State.writeMapout (s : State) (v : W64) : State :=
  let c := fieldN v 0 12
  if !bitAt v 12 then { s with mapoutReg := keep v 0x1FFF }
  else if coreExists c && !s.mapout.contains c then { s with mapoutReg := keep v 0x1FFF, mapout := insNat c s.mapout }.degrade
  else s

/-- A peer window has a home while the link has trained and both ends are open (R420). -/
def Peer.settle (p : Peer) : Peer := { p with up := p.trained && p.openHere && p.openThere }

/-- A write of a register of a die, a hub or the module. -/
def State.writeModule (s : State) (c n : Nat) (v : W64) : State :=
  let hub (f : Hub → Hub) : State := s.modHub (c / 16) f
  if n = 0x312 then { s with pdirbase := put s.pdirbase (s.partOf c) (v &&& ~~~ w64 0x1FFFF) }
  else if n = 0x320 then s.writeQring (c / 16) v
  else if n = 0x321 then hub fun h => { h with drops := if fieldN v 32 16 = 0 then h.drops else 0 }
  else if n = 0x323 then hub fun h => { h with lroot := keep v 0xFFFFFFFFFC000 }
  else if n = 0x324 then hub fun h => { h with laspace := v.setWidth 16 }
  else if n = 0x350 then
    let i : W32 := BitVec.ofNat 32 (fieldN v 32 32)
    { s with smpInterval := i, smpSeq := if s.smpInterval = 0 ∧ i ≠ 0 then 0 else s.smpSeq }
  else if inRange n 0x354 0x357 then s.modDie (n - 0x354) fun x => { x with smpbuf := keep v 0xFFFFFFFFFFFFF, head := 0 }
  else if inRange n 0x358 0x35B then s.modDie (n - 0x358) fun x => { x with tail := fieldN v 32 32 }
  else if n = 0x370 then { s with relUeev := s.relUeev && !bitAt v 1 }
  else if n = 0x371 then s.writeMapout v
  else if n = 0x372 then hub fun h => { h with partid := fieldN v 0 4 }
  else if n = 0x373 then { s with hmapsel := fieldN v 0 7 }
  else if n = 0x374 then (if s.hmapsel < 80 then { s with hmap := put s.hmap s.hmapsel v } else s)
  else if inRange n 0x381 0x384 then s.writeFcap (n - 0x381) v
  else if n = 0x386 then { s with pwrTrip := s.pwrTrip && !bitAt v 17 }
  else if n = 0x388 then s.writeTadj v
  else if n = 0x389 then s.writeTfreq v
  else if n = 0x38A then { s with hostwin := keep v 0xFFFFF80000001 }
  else if inRange n 0x390 0x397 then 
    let p := look ({} : Peer) s.peer (n - 0x390)
    { s with peer := put s.peer (n - 0x390) { p with openHere := bitAt v 1 }.settle }
  else if n = 0x39C then { s with hosterr := v.setWidth 32 }
  else s

/-- A write of a register that a core, a die, a hub, a partition or the module owns, from core `c`. -/
def State.writeShared (s : State) (c n : Nat) (v : W64) : State := if cregModule n then s.writeModule c n v else s.writeCore c n v

/-- A read of DROPD removes the head record and latches its value in DROPV (R396). -/
def State.popDrop (s : State) (c : Nat) : State :=
  s.modCore c fun x => match x.dropq with
    | (_, v) :: r => { x with dropq := r, dropv := v }
    | [] => x

/-! ### MOVC and MOVTC (R238) -/

/-- The key of a control register in a pair's load-value queue. -/
def cregKey (n : Nat) : W64 := w64 (2 ^ 60 + 512 + n)

/-- The checks of R238 before an operand is read: privilege, then the allocation. -/
def cregCheck (n : Nat) : M Unit := do
  if cregPriv n then needS else pure ()
  let beyond ← askM fun s =>
    let t := s.taskOf s.cur.core s.me.task
    (inRange n 0x100 0x17F && decide (t.banks.length ≤ n - 0x100))
      || (inRange n 0x1C0 0x1C7 && decide (t.tiles.length ≤ n - 0x1C0)) || (inRange n 0x1C8 0x1CB && decide (t.accs.length ≤ n - 0x1C8))
      || (inRange n 0x1E0 0x1E7 && decide (t.tiles.length ≤ n - 0x1E0)) || (inRange n 0x200 0x23F && decide (t.accs.length ≤ (n - 0x200) / 16))
  if beyond then permNoAddr else pure ()

/-- The line that SPTAGSEL names, through the thread's own-scratchpad window (R141). -/
def sptagLine : M (W64 × Loc) := do
  let t ← getMe
  let l ← resolveM t.sptagsel 1 .load 0
  pure (t.sptagsel, l)

/-- A MOVC of SPTAG is an access of the thread at the line's home (R141). -/
def readSptag (d : Nat) : M Unit := do
  roomFor d
  let (va, l) ← sptagLine
  afterAcquires
  let id ← askM State.nextId
  let go ← loadInput va id d
  if go then sendParked va l 64 (.sptagRead d) 3 else pure ()

/-- A MOVTC of SPTAG (R141). -/
def writeSptag (v : W64) : M Unit := do
  let (va, l) ← sptagLine
  afterAcquires
  let go ← output 40 va 64 [keep v 0xFFFF]
  if go then sendParked va l 64 (.sptagWrite (keep v 0xFFFF)) 3 else pure ()

/-- A MOVC of PMRD waits for the named core's answer (R409). -/
def readPmrd (d : Nat) : M Unit := do
  roomFor d
  let t ← getMe
  match t.role with
  | .trailing _ =>
    let v ← input (cregKey 0x2B9) (pure 0)
    doM fun s => s.putDest s.cur.core s.cur.slot d v false
  | _ => do
    reserveInput (cregKey 0x2B9)
    busyM 3 (.pmrd d)

/-- MOVC (R238). -/
def execMovc (d : BitVec 6) (c : BitVec 14) (s : State) : Result :=
  let n := c.toNat
  run (do cregCheck n
          if n = 0x311 then readSptag d.toNat
          else if n = 0x2B9 then readPmrd d.toNat
          else do
            let v ← input (cregKey n) (fun s =>
              .ok (s.creg s.cur.core s.cur.slot n, if n = 0x332 then s.popDrop s.cur.core else s))
            writeS d v) s

/-- A write of ACCPUT (R395): two elements of an unlocked accumulator, then ELEM advances. -/
def State.putAcc (s : State) (c k acc : Nat) (v : W64) : State :=
  let t := s.slot c k
  let e := fieldN t.accidx 0 13
  (s.modCore c fun x => { x with accv := put (put x.accv (acc * 8192 + e) (v.setWidth 32)) (acc * 8192 + e + 1) (w32 (fieldN v 32 32)),
                                 engErr := del x.engErr (4096 * (8 + acc) + e / 2) }).modSlot c k
    fun t => { t with accput := v, accidx := w64 (fieldN t.accidx 16 2 * 2 ^ 16 + (e + 2) % 8192) }

/-- The MOVTC of ACCPUT. -/
def writeAccput (v : W64) : M Unit := do
  let t ← getMe
  let x ← getCore
  let task ← askM fun s => s.taskOf s.cur.core t.task
  match task.accs[fieldN t.accidx 16 2]? with
  | none => permNoAddr
  | some a => if x.accLocked a then parkM 6 else doM fun s => s.putAcc s.cur.core s.cur.slot a v

/-- What a MOVTC does once its operand is read: registers with a wait or a trap of their own first (R80, R143, R393, R405),
then the shared ones, then the thread's own. -/
def writeCreg (n : Nat) (v : W64) : M Unit := do
  if n = 0x311 then writeSptag v
  else if n = 0x339 then writeAccput v
  else if cregOwn n then doM fun s => s.writeOwn s.cur.core s.cur.slot n v
  else do
    if n = 0x371 then do
      let busy ← askM fun s => bitAt v 12 && !s.mapout.contains (fieldN v 0 12) && (s.core (fieldN v 0 12)).busy
      if busy then resource 34 else pure ()
    else pure ()
    if n = 0x374 ∨ n = 0x312 ∨ n = 0x331 ∨ n = 0x361 then do
      let go ← output 41 (w64 n) 8 [v]
      if !go then pure ()
      else if n = 0x374 then do
        let w ← askM State.hmapsel
        if w < 80 then busyM 3 (.hmap w v) else pure ()
      else if n = 0x312 then busyM 3 (.pdirbase v)
      else if n = 0x331 then busyM 3 (.rstpost v)
      else do
        let mine ← askM fun s => bitAt v 4 && fieldN v 0 4 == s.cur.slot
        if mine then do
          doM fun s => (s.passed s.cur.core s.cur.slot s.cur.word none).writeDumpreq s.cur.core v
          finM
        else doM fun s => s.writeDumpreq s.cur.core v
    else outputPost 41 (w64 n) 8 [v] (.movtc n v) fun s => s.writeShared s.cur.core n v

/-- The check of R113: the shadow set and SLREQ are written by slot 15 alone. -/
def writerCheck (n : Nat) : M Unit := if inRange n 0x180 0x187 || n == 0x190 then needSlot15 else pure ()

/-- MOVTC (R238). -/
def execMovtc (a : BitVec 6) (c : BitVec 14) (s : State) : Result :=
  let n := c.toNat
  run (do cregCheck n
          writerCheck n
          let v ← readS a
          let t ← getMe
          if !t.privS && cregRoAtU n then pure () else writeCreg n v) s

/-! ### Register writes as steps of their own -/

/-- SLREQ_WRITE (R111), of the running core. -/
def execSlreqWrite (v : W64) (s : State) : Result := .next (s.writeSlreq s.cur.core v)
/-- QRING_WRITE (R358), of the running core's hub. -/
def execQringWrite (v : W64) (s : State) : Result := .next (s.writeQring (s.cur.core / 16) v)
/-- QCFG_WRITE (R207), of the running slot. -/
def execQcfgWrite (v : W64) (s : State) : Result := .next (s.writeQcfg s.cur.core s.cur.slot v)
/-- ACCPUT_WRITE (R395), of the running thread. -/
def execAccputWrite (v : W64) (s : State) : Result := run (writeAccput v) s
/-- DROPD_READ (R396), at the running core. -/
def execDropdRead (s : State) : Result := .next (s.popDrop s.cur.core)
/-- PRPOST_WRITE (R386), at the running core. -/
def execPrpostWrite (v : W64) (s : State) : Result := .next (s.writeCore s.cur.core 0x330 v)
/-- MAPOUT_WRITE (R405): a core that runs a task stays. -/
def execMapoutWrite (v : W64) (s : State) : Result :=
  .next (if bitAt v 12 && (s.core (fieldN v 0 12)).busy then s else s.writeMapout v)
/-- TADJ_WRITE (R421). -/
def execTadjWrite (v : W64) (s : State) : Result := .next (s.writeTadj v)
/-- TFREQ_WRITE (R421). -/
def execTfreqWrite (v : W64) (s : State) : Result := .next (s.writeTfreq v)
/-- FCAP_WRITE (R422). -/
def execFcapWrite (d : BitVec 2) (v : W64) (s : State) : Result := .next (s.writeFcap d.toNat v)
/-- SMPBUF_WRITE (R406). -/
def execSmpbufWrite (d : BitVec 2) (v : W64) (s : State) : Result := .next (s.writeModule s.cur.core (0x354 + d.toNat) v)
/-- DUMPREQ_WRITE (R414), at the running core. -/
def execDumpreqWrite (v : W64) (s : State) : Result := .next (s.writeDumpreq s.cur.core v)
/-- PEERSTAT_OPEN_WRITE (R420). -/
def execPeerstatOpenWrite (p : BitVec 3) (v : W64) (s : State) : Result := .next (s.writeModule s.cur.core (0x390 + p.toNat) v)
/-- HOSTWIN_WRITE (R419). -/
def execHostwinWrite (v : W64) (s : State) : Result := .next (s.writeModule s.cur.core 0x38A v)
/-- HALTREQ (R410): a slot's bit is set. -/
def execHaltreq (core slot : Nat) (s : State) : Result := .next (s.setHaltreq core slot)
/-- DBG_RESUME (R410): a slot's bit is cleared. -/
def execDbgResume (core slot : Nat) (s : State) : Result := .next (s.clearHaltreq core slot)
/-- STEP (R410): a slot's STEP bit is set. -/
def execStep (core slot : Nat) (s : State) : Result :=
  .next (s.modCore core fun x => { x with dbg := { x.dbg with step := setBit x.dbg.step slot true } })
/-- FREEZE (R412): the core freezes, or a frozen one goes on. -/
def execFreeze (core : Nat) (s : State) : Result :=
  .next (if (s.core core).dbg.freeze then s.modCore core fun x => { x with dbg := { x.dbg with freeze := false } } else s.freeze core)

/-- HMAP_WRITE (R80): every copy of the map holds the word, and the MOVTC completes. -/
def execHmapWrite (core slot : Nat) (s : State) : Result :=
  match (s.slot core slot).wait with
  | .busy _ (.hmap w v) => .next ({ s with hmap := put s.hmap w v }.complete core slot fun t => t)
  | _ => .next s

/-- PDIRBASE_WRITE (R143): every hub of the partition holds the value. -/
def execPdirbaseWrite (core slot : Nat) (s : State) : Result :=
  match (s.slot core slot).wait with
  | .busy _ (.pdirbase v) => .next ((s.writeModule core 0x312 v).complete core slot fun t => t)
  | _ => .next s

/-- The value that PMRD answers with (R409); register code 3 names none, and a free value stands for it. -/
def State.pmrdValue (s : State) (c k : Nat) : W64 :=
  let q := (s.slot c k).pmrsel
  let o := fieldN q 0 12
  let i := fieldN q 16 3
  if !coreExists o || s.partOf o != s.partOf c then w64 (2 ^ 64 - 1)
  else match fieldN q 19 2 with
    | 0 => look 0 (s.core o).pmc i
    | 1 => look 0 (s.core o).pmsel i
    | 2 => look 0 (s.core o).pmet i
    | _ => Config.freeW64 s.free

/-- PMRD_READ (R409): the named core answers; an output port takes the answer once it has space (R207). -/
def execPmrdRead (core slot : Nat) (s : State) : Result :=
  match (s.slot core slot).wait with
  | .busy _ (.pmrd d) =>
    let v := s.pmrdValue core slot
    .next (if s.destReady core slot d then (s.bump.putDest core slot d v false).complete core slot fun t => t.lvNote (cregKey 0x2B9) v else s)
  | _ => .next s

end Sys2Proof.Machine
end

