-- ==== Sys2Proof/Machine/Affine.lean ====
section
/-! DEFINITION. Affine instructions (major 0x0C, R230): an affine register holds a 64-bit base and a 32-bit stride. -/

namespace Sys2Proof.Machine

/-- sext(S, 32) (R205). -/
def strideOf (st : W32) : W64 := st.signExtend 64

/-- AFSET. -/
def execAfset (d : BitVec 4) (a b : BitVec 6) (s : State) : Result :=
  run (do let x ← readS a
          let y ← readS b
          writeA d x (y.setWidth 32)) s
/-- AFBASE: the stride stays. -/
def execAfbase (d : BitVec 4) (a : BitVec 6) (s : State) : Result :=
  run (do let x ← readS a
          let t ← getMe
          writeA d x (t.aff d).2) s
/-- AFSTR: the base stays. -/
def execAfstr (d : BitVec 4) (a : BitVec 6) (s : State) : Result :=
  run (do let x ← readS a
          writeStride d (x.setWidth 32)) s
/-- AFADD. -/
def execAfadd (d a : BitVec 4) (b : BitVec 6) (s : State) : Result :=
  run (do let y ← readS b
          soundA a
          let t ← getMe
          writeA d ((t.aff a).1 + y) (t.aff a).2) s
/-- AFSTEP. -/
def execAfstep (d a : BitVec 4) (s : State) : Result :=
  run (do soundA a
          let t ← getMe
          writeA d ((t.aff a).1 + 16 * strideOf (t.aff a).2) (t.aff a).2) s
/-- AFMOV. -/
def execAfmov (d a : BitVec 4) (s : State) : Result :=
  run (do soundA a
          let t ← getMe
          writeA d (t.aff a).1 (t.aff a).2) s
/-- AFRDB. -/
def execAfrdb (d : BitVec 6) (a : BitVec 4) (s : State) : Result :=
  run (do soundBase a
          let t ← getMe
          writeS d (t.aff a).1) s
/-- AFRDS. -/
def execAfrds (d : BitVec 6) (a : BitVec 4) (s : State) : Result :=
  run (do soundStride a
          let t ← getMe
          writeS d (strideOf (t.aff a).2)) s

end Sys2Proof.Machine
end

