-- ==== Sys2Proof/Machine/System.lean ====
section
/-! DEFINITION. System instructions (major 0x0F, R382 to R385, R372) and words that are illegal. -/

namespace Sys2Proof.Machine

/-! ### Traps and the return from them -/

/-- TRAP (R382). -/
def execTrap (n : BitVec 6) (s : State) : Result := run (trapM 0x11 0 (w64 n.toNat)) s

/-- ILLEGAL (R49): an unassigned or malformed word. -/
def execIllegal (w : BitVec 32) (s : State) : Result := run (trapM 1 (w64 w.toNat) 0) s

/-- The effect of a posted output that is no access, of the leading thread in slot `k` (R397). -/
def State.emit (s : State) (c k : Nat) (e : Eff) : State :=
  match e with
  | .fill d v => s.sendFill d v (s.core c).topinf c
  | .tdec h => s.send (.tdec h c)
  | .gst n v => (s.putG c n v true).gChain c n
  | .movtc n v => s.writeShared c n v
  | .push n v ctl => s.pushEntry c n { val := v, ctl := ctl }
  | .mail n l => s.putMail c n k l

/-- The comparator releases an output (R397). -/
def State.release (s : State) (c k : Nat) (e : CmpEnt) : State :=
  let s := { s with flights := s.flights.map fun f => if e.access = some f.id then { f with stage := .sent } else f }
  match e.eff with
  | some x => s.emit c k x
  | none => s

/-- After a mismatch, the comparator releases outputs again once both threads of a pair have left their handlers (R398). -/
def State.pairReturn (s : State) (c k : Nat) : State :=
  let lead := (s.slot c k).leadSlot k
  let l := s.slot c lead
  let other := match l.role with | .leading j => (s.slot c j).trapped | _ => false
  if l.pairHeld && !l.trapped && !other && l.mismatch.isNone then
    let out := l.cmp.takeWhile fun e => e.agreed && !e.stands
    out.foldl (fun s e => s.release c lead e) (s.setSlot c lead { l with pairHeld := false, cmp := l.cmp.drop out.length })
  else s

/-- ERET (R381). -/
def execEret (s : State) : Result :=
  run (do needS
          doM fun s => (s.trapReturn s.cur.core s.cur.slot).pairReturn s.cur.core s.cur.slot
          finM) s

/-- BKPT (R382, R410): it traps, or halts the slot while the debug module claims software breakpoints. -/
def execBkpt (n : BitVec 6) (s : State) : Result :=
  run (do let x ← getCore
          if x.dbg.swbp then doM (fun s => s.haltMe 4) else trapM 0x12 0 (w64 n.toNat)) s

/-- HALT (R383). -/
def execHalt (s : State) : Result :=
  run (do needS
          doM fun s => s.haltMe 5) s

/-! ### YIELD and SLEEP (R372) -/

/-- A slot is ready (R327): neither parked, halted, waiting nor made not ready by its own YIELD (R372), 4 core cycles after its last
issue. -/
def State.ready (s : State) (c k : Nat) : Bool :=
  (s.runState c k == 1 || s.runState c k == 2) && (match (s.slot c k).wait with | .busy _ (.yield ..) => false | _ => true) && (match (s.slot c k).lastCyc with | some n => decide (n + 4 ≤ s.cyc (dieOf c)) | none => true)

/-- YIELD (R372): not ready until every other slot that is ready now has issued once, or 64 core cycles have passed. -/
def execYield (s : State) : Result :=
  run (do let l ← askM fun s => (upto 0 16).filter fun j => j != s.cur.slot && s.ready s.cur.core j
          let now ← askM fun s => s.cyc (dieOf s.cur.core)
          if l.isEmpty then pure () else busyM 2 (.yield (now + 64) l)) s

/-- A slot has issued: the YIELDs of its core that wait for it count it. -/
def State.noteYields (s : State) (c j : Nat) : State :=
  (upto 0 16).foldl (fun s k =>
    match (s.slot c k).wait with
    | .busy n (.yield u l) =>
      let l := rmNat j l
      if l.isEmpty then s.complete c k fun t => t else s.modSlot c k fun t => { t with wait := .busy n (.yield u l) }
    | _ => s) s

/-- YIELD_EXPIRY (R372): 64 core cycles have passed. -/
def execYieldExpiry (core slot : Nat) (s : State) : Result :=
  match (s.slot core slot).wait with
  | .busy _ (.yield u _) => if u ≤ s.cyc (dieOf core) then .next (s.complete core slot fun t => t) else .next s
  | _ => .next s

/-- SLEEP (R372): an earlier tick completes at once; an attached subscriber detaches first (R343). -/
def execSleep (a : BitVec 6) (s : State) : Result :=
  run (do let v ← readS a
          let now ← askM State.time
          if v.toNat ≤ now then pure ()
          else do
            let t ← getMe
            if t.chState = 2 then doM (fun s => s.unsubscribe s.cur.core s.cur.slot) else pure ()
            busyM 3 (.sleep v.toNat)) s

/-- SLEEP_WAKE (R372). -/
def execSleepWake (core slot : Nat) (s : State) : Result :=
  match (s.slot core slot).wait with
  | .busy _ (.sleep v) => if v ≤ s.time then .next (s.complete core slot fun t => t) else .next s
  | _ => .next s

/-! ### Invalidation (R384, R385) -/

/-- ICINV (R384). -/
def execIcinv (a : BitVec 6) (s : State) : Result :=
  run (do if a = 0 then modMyCore (fun x => { x with icache := [] }) else do
            let v ← readS a
            let t ← getMe
            modMyCore fun x => { x with icache := x.icache.filter fun b => !(b.asp == t.aspace.toNat && b.blk == v.toNat / 64) }) s

/-- An entry of a translation buffer matches a TLBINV (R385). -/
def tlbMatch (va spec : W64) (e : Tlb) : Bool :=
  (bitAt spec 16 || e.base / 2 ^ e.bits == va.toNat / 2 ^ e.bits) && (bitAt spec 17 || Nat.testBit e.perm 6 || e.asp == fieldN spec 0 16)

/-- The name of a command's claims in the list of what a TLBINV waits for. -/
def claimName (uid : Nat) : Nat := 2 ^ 60 + uid

/-- What a core has under way through an entry that a TLBINV removes: accesses, writes of sluice commands, their claims, and commands
whose barrier object is resolved (R385). -/
def State.throughEntries (s : State) (c : Nat) (va spec : W64) : List Nat :=
  let l := (s.core c).tlb.filter (tlbMatch va spec)
  let hit (p : Nat) : Bool := l.any fun e => e.base / 2 ^ e.bits == p * 65536 / 2 ^ e.bits
  (s.flights.filter fun f => f.core == c && f.pending && f.page.any hit).map Flight.id
    ++ (s.core c).slcmds.flatMap fun q =>
      (q.pend.filter fun w => w.page.any hit).map SlWrite.id ++ (if q.claiming && q.pages.any hit then [claimName q.uid] else [])
        ++ (if q.started && !q.stopped && q.barPage.any hit then [q.uid] else [])

/-- Something of that list is still under way. -/
def State.stillThrough (s : State) (l : List Nat) : Bool :=
  (s.flights.any fun f => f.pending && l.contains f.id) || s.cores.any fun x => x.2.slcmds.any fun q =>
    (q.pend.any fun w => l.contains w.id) || (q.claiming && l.contains (claimName q.uid)) || (!q.stopped && l.contains q.uid)

/-- Removes the matching entries of a core. -/
def State.removeTlb (s : State) (c : Nat) (va spec : W64) : State :=
  s.modCore c fun x => { x with tlb := x.tlb.filter fun e => !tlbMatch va spec e }

/-- A walker takes an invalidation (R75): walks under way within the largest page around the address fill no buffer. -/
def State.staleWalks (s : State) (h : Nat) (va spec : W64) : State :=
  let cut (w : Walk) : Walk := if bitAt spec 16 || w.page * 65536 / 2 ^ 36 == va.toNat / 2 ^ 36 then { w with stale := true } else w
  s.modHub h fun x => { x with walks := x.walks.map cut }

/-- The other cores, and the other walkers, in the scope of a TLBINV. -/
def State.tlbTargets (s : State) (c scope : Nat) : List Nat :=
  let inScope (o : Nat) : Bool :=
    if scope = 0 then false else if scope = 1 then o / 16 == c / 16 else if scope = 2 then s.partOf o == s.partOf c else true
  ((keys s.cores).filter fun o => o != c && inScope o) ++ (((keys s.hubs).filter fun h => h != c / 16 && inScope (h * 16)).map fun h => h + 0x1000)

/-- TLBINV (R385). -/
def execTlbinv (a b : BitVec 6) (s : State) : Result :=
  run (do needS
          let va ← readS a
          let spec ← readS b
          if fieldN spec 20 44 ≠ 0 then resource 32 else pure ()
          let t ← getMe
          match t.wip with
          | some (ms, fs) =>
            let wait ← askM fun s => (s.msgs.any fun m => ms.contains m.1) || s.stillThrough fs
            if wait then parkM 3 else pure ()
          | none =>
            let go ← output 80 va 8 [spec]
            if !go then pure ()
            else do
              let c ← askM fun s => s.cur.core
              let fs ← askM fun s => s.throughEntries c va spec
              let l ← askM fun s => s.tlbTargets c (fieldN spec 18 2)
              let first ← askM State.nextId
              doM fun s => ((s.removeTlb c va spec).staleWalks (c / 16) va spec).sendAll (l.map fun o => .tlb o va spec)
              if fs.isEmpty && l.isEmpty then pure ()
              else do
                modMe fun t => { t with wip := some (upto first l.length, fs) }
                doM fun s => s.tryAgain 3
                finM) s

/-- The thread that waits for a message. -/
def State.waiterOf (s : State) (n : Nat) : Option (Nat × Nat) :=
  s.cores.findSome? fun c => (c.2.slots.find? fun t => match t.2.wip with | some (ms, _) => ms.contains n | none => false).map fun t => (c.1, t.1)

/-- TLB_SHOOTDOWN (R385): another core or walker takes the invalidation; accesses of that core under way through a removed
entry are waited for. -/
def execTlbShootdown (n : Nat) (s : State) : Result :=
  match find s.msgs n with
  | some (.tlb o va spec) =>
    if 0x1000 ≤ o then .next { s.staleWalks (o - 0x1000) va spec with msgs := del s.msgs n }
    else
      let fs := s.throughEntries o va spec
      let more (t : Slot) : Slot := match t.wip with | some (ms, l) => { t with wip := some (ms, l ++ fs) } | none => t
      let s' := match s.waiterOf n with
        | some (c, k) => s.modSlot c k more
        | none => s
      .next { s'.removeTlb o va spec with msgs := del s.msgs n }
  | _ => .next s

/-- LOAD_VALUE_RETURN (R152). -/
def execLoadValueReturn (num : Nat) (s : State) : Result := .next (s.returnValue num)

end Sys2Proof.Machine
end

