-- ==== Sys2Proof/Machine/MemScalar.lean ====
section
/-! DEFINITION. Scalar memory instructions (majors 0x18 to 0x1D: R150 to R169): loads, stores, the synchronising class, atomics,
fences, barrier objects. -/

namespace Sys2Proof.Machine

/-! ### LD and ST (R150, R155) -/

/-- `s[a] + sext(i) × scale`. -/
def scaled {n : Nat} (base : W64) (i : BitVec n) (scale : Nat) : W64 := base + w64 scale * i.signExtend 64

/-- LD of a size. -/
def loadM (d a : BitVec 6) (i : BitVec 11) (size : Nat) (signed : Bool) : M Unit := do
  let b ← readS a
  sendLoad (scaled b i size) size signed d.toNat

/-- ST of a size; `d` names the data register. -/
def storeM (d a : BitVec 6) (i : BitVec 11) (size : Nat) : M Unit := do
  let b ← readS a
  let v ← readS d
  sendStore (scaled b i size) size (w64 (v.toNat % 2 ^ (8 * size)))

/-- LD.B. -/
def execLdB (d a : BitVec 6) (i : BitVec 11) (s : State) : Result := run (loadM d a i 1 true) s
/-- LD.H. -/
def execLdH (d a : BitVec 6) (i : BitVec 11) (s : State) : Result := run (loadM d a i 2 true) s
/-- LD.W. -/
def execLdW (d a : BitVec 6) (i : BitVec 11) (s : State) : Result := run (loadM d a i 4 true) s
/-- LD.D. -/
def execLdD (d a : BitVec 6) (i : BitVec 11) (s : State) : Result := run (loadM d a i 8 false) s
/-- LD.BU. -/
def execLdBu (d a : BitVec 6) (i : BitVec 11) (s : State) : Result := run (loadM d a i 1 false) s
/-- LD.HU. -/
def execLdHu (d a : BitVec 6) (i : BitVec 11) (s : State) : Result := run (loadM d a i 2 false) s
/-- LD.WU. -/
def execLdWu (d a : BitVec 6) (i : BitVec 11) (s : State) : Result := run (loadM d a i 4 false) s
/-- ST.B. -/
def execStB (d a : BitVec 6) (i : BitVec 11) (s : State) : Result := run (storeM d a i 1) s
/-- ST.H. -/
def execStH (d a : BitVec 6) (i : BitVec 11) (s : State) : Result := run (storeM d a i 2) s
/-- ST.W. -/
def execStW (d a : BitVec 6) (i : BitVec 11) (s : State) : Result := run (storeM d a i 4) s
/-- ST.D. -/
def execStD (d a : BitVec 6) (i : BitVec 11) (s : State) : Result := run (storeM d a i 8) s

/-! ### The synchronising class (R156, R453) -/

/-- Bytes of a width code: 0 word, 1 doubleword. -/
def widthOf (w : BitVec 1) : Nat := if w = 0 then 4 else 8

/-- LDFE. -/
def execLdfe (d a : BitVec 6) (sc : BitVec 3) (w : BitVec 1) (o : BitVec 8) (s : State) : Result :=
  run (do let b ← readS a
          sendSyncLoad (scaled b o (widthOf w)) (widthOf w) true d.toNat sc.toNat) s
/-- LDFF. -/
def execLdff (d a : BitVec 6) (sc : BitVec 3) (w : BitVec 1) (o : BitVec 8) (s : State) : Result :=
  run (do let b ← readS a
          sendSyncLoad (scaled b o (widthOf w)) (widthOf w) false d.toNat sc.toNat) s
/-- STFE; `d` names the data register. -/
def execStfe (d a : BitVec 6) (sc : BitVec 3) (w : BitVec 1) (o : BitVec 8) (s : State) : Result :=
  run (do let b ← readS a
          let v ← readS d
          sendStfe (scaled b o (widthOf w)) (widthOf w) (w64 (v.toNat % 2 ^ (8 * widthOf w))) sc.toNat) s
/-- STFF. -/
def execStff (d a : BitVec 6) (sc : BitVec 3) (w : BitVec 1) (o : BitVec 8) (s : State) : Result :=
  run (do let b ← readS a
          let v ← readS d
          sendPostedSync (scaled b o (widthOf w)) (widthOf w) (.stff (w64 (v.toNat % 2 ^ (8 * widthOf w)))) sc.toNat) s
/-- FECLR. -/
def execFeclr (a : BitVec 6) (sc : BitVec 3) (w : BitVec 1) (o : BitVec 8) (s : State) : Result :=
  run (do let b ← readS a
          sendPostedSync (scaled b o (widthOf w)) (widthOf w) .feclr sc.toNat) s

/-! ### Atomics (R162, R163) -/

/-- An atomic that does not compare. -/
def atomicM (op : Nat) (d a b : BitVec 6) (w : BitVec 1) (sc : BitVec 3) : M Unit := do
  let va ← readS a
  let v ← readS b
  sendAtomic va (widthOf w) op d.toNat v 0 sc.toNat

/-- AADD. -/
def execAadd (d a b : BitVec 6) (w : BitVec 1) (sc : BitVec 3) (s : State) : Result := run (atomicM 0 d a b w sc) s
/-- AAND. -/
def execAand (d a b : BitVec 6) (w : BitVec 1) (sc : BitVec 3) (s : State) : Result := run (atomicM 1 d a b w sc) s
/-- AOR. -/
def execAor (d a b : BitVec 6) (w : BitVec 1) (sc : BitVec 3) (s : State) : Result := run (atomicM 2 d a b w sc) s
/-- AXOR. -/
def execAxor (d a b : BitVec 6) (w : BitVec 1) (sc : BitVec 3) (s : State) : Result := run (atomicM 3 d a b w sc) s
/-- AMIN. -/
def execAmin (d a b : BitVec 6) (w : BitVec 1) (sc : BitVec 3) (s : State) : Result := run (atomicM 4 d a b w sc) s
/-- AMAX. -/
def execAmax (d a b : BitVec 6) (w : BitVec 1) (sc : BitVec 3) (s : State) : Result := run (atomicM 5 d a b w sc) s
/-- AMINU. -/
def execAminu (d a b : BitVec 6) (w : BitVec 1) (sc : BitVec 3) (s : State) : Result := run (atomicM 6 d a b w sc) s
/-- AMAXU. -/
def execAmaxu (d a b : BitVec 6) (w : BitVec 1) (sc : BitVec 3) (s : State) : Result := run (atomicM 7 d a b w sc) s
/-- ASWAP. -/
def execAswap (d a b : BitVec 6) (w : BitVec 1) (sc : BitVec 3) (s : State) : Result := run (atomicM 8 d a b w sc) s
/-- ACAS: sd holds the value to compare with. -/
def execAcas (d a b : BitVec 6) (w : BitVec 1) (sc : BitVec 3) (s : State) : Result :=
  run (do let va ← readS a
          let v ← readS b
          let c ← readS d
          sendAtomic va (widthOf w) 9 d.toNat v c sc.toNat) s
/-- AFADD: FP32, word width only. -/
def execAtomicAfadd (d a b : BitVec 6) (sc : BitVec 3) (s : State) : Result := run (atomicM 10 d a b 0 sc) s

/-! ### Fences and barrier objects (R164 to R169) -/

/-- FENCE (R164). -/
def execFence (sc : BitVec 3) (s : State) : Result := run (fenceM sc.toNat) s

/-- BARINIT (R166). -/
def execBarinit (a b : BitVec 6) (s : State) : Result :=
  run (do let va ← readS a
          let v ← readS b
          let l ← resolveM va 16 .store 0
          needBarrierHome va l
          if fieldN v 0 16 = 0 then resource 8 else sendBarrierPost va (.barinit v)) s
/-- BARARR (R167). -/
def execBararr (a b : BitVec 6) (s : State) : Result :=
  run (do let va ← readS a
          let v ← readS b
          sendBarrierPost va (.bararr (fieldN v 0 32))) s
/-- BARWAIT (R168): the thread is parked from issue. -/
def execBarwait (a b : BitVec 6) (s : State) : Result :=
  run (do let va ← readS a
          let v ← readS b
          let l ← resolveM va 16 .load 0
          needBarrierHome va l
          afterAcquires
          let t ← getMe
          match t.role with
          | .trailing j => do
            let _ ← matchOutput j 8 va 16 [w64 (fieldN v 0 16)]
            pure ()
          | _ => sendParked va l 16 (.barwait (fieldN v 0 16)) 8) s
/-- BARRD (R169). -/
def execBarrd (d a : BitVec 6) (s : State) : Result :=
  run (do let va ← readS a
          roomFor d.toNat
          let l ← resolveM va 16 .load 0
          needBarrierHome va l
          afterAcquires
          roomForLoad
          let t ← getMe
          match t.role with
          | .trailing j => agreeOnce j 10 va 16 []
          | _ => pure ()
          let id ← askM State.nextId
          let go ← loadInput va id d.toNat
          if go then
            let _ ← launch va l 16 (.barrd d.toNat) false
            awaitS d.toNat
          else pure ()) s

end Sys2Proof.Machine
end

