-- ==== Sys2Proof/Machine/Integer.lean ====
section
/-! DEFINITION. Integer instructions (majors 0x01 and 0x03 to 0x0B: R222 to R224, R228, R229). -/

namespace Sys2Proof.Machine

/-- Shift left by the low six bits of the amount (R222). -/
def shl (a : W64) (n : Nat) : W64 := a <<< (n % 64)
/-- Logical shift right. -/
def shr (a : W64) (n : Nat) : W64 := a >>> (n % 64)
/-- Arithmetic shift right. -/
def sar (a : W64) (n : Nat) : W64 := a.sshiftRight (n % 64)
/-- Rotation left. -/
def rotl (a : W64) (n : Nat) : W64 := (a <<< (n % 64)) ||| (a >>> ((64 - n % 64)))
/-- Rotation right. -/
def rotr (a : W64) (n : Nat) : W64 := (a >>> (n % 64)) ||| (a <<< ((64 - n % 64)))
/-- 1 for true, 0 for false. -/
def ofBool (b : Bool) : W64 := if b then 1 else 0
/-- Leading zero bits of a 64-bit number. -/
def clz64 (x : Nat) : Nat := if x = 0 then 64 else 63 - Nat.log2 x
/-- The lowest set bit among bits `i`, `i + 1`, … , `n` of them, or `i + n`. -/
def lowBit (x i n : Nat) : Nat :=
  match n with
  | 0 => i
  | k + 1 => if Nat.testBit x i then i else lowBit x (i + 1) k
/-- Trailing zero bits of a 64-bit number; 64 for 0. -/
def ctz64 (x : Nat) : Nat := lowBit x 0 64
/-- One bits among the low `n`. -/
def popBits (x n : Nat) : Nat :=
  match n with
  | 0 => 0
  | k + 1 => popBits x k + (if Nat.testBit x k then 1 else 0)
/-- One bits of a 64-bit number. -/
def popc64 (x : Nat) : Nat := popBits x 64

/-- s[d] := f s[a] s[b], after the parking of R220. -/
def scalar2 (d a b : BitVec 6) (f : W64 → W64 → W64) : M Unit := do
  let x ← readS a
  let y ← readS b
  writeS d (f x y)

/-- s[d] := f s[a]. -/
def scalar1 (d a : BitVec 6) (f : W64 → W64) : M Unit := do
  let x ← readS a
  writeS d (f x)

/-- ADD (R222). -/
def execAdd (d a b : BitVec 6) (s : State) : Result := run (scalar2 d a b fun a b => a + b) s

/-- SUB (R222). -/
def execSub (d a b : BitVec 6) (s : State) : Result := run (scalar2 d a b fun a b => a - b) s

/-- AND (R222). -/
def execAnd (d a b : BitVec 6) (s : State) : Result := run (scalar2 d a b fun a b => a &&& b) s

/-- OR (R222). -/
def execOr (d a b : BitVec 6) (s : State) : Result := run (scalar2 d a b fun a b => a ||| b) s

/-- XOR (R222). -/
def execXor (d a b : BitVec 6) (s : State) : Result := run (scalar2 d a b fun a b => a ^^^ b) s

/-- ANDN (R222). -/
def execAndn (d a b : BitVec 6) (s : State) : Result := run (scalar2 d a b fun a b => a &&& ~~~ b) s

/-- SLL (R222). -/
def execSll (d a b : BitVec 6) (s : State) : Result := run (scalar2 d a b fun a b => shl a b.toNat) s

/-- SRL (R222). -/
def execSrl (d a b : BitVec 6) (s : State) : Result := run (scalar2 d a b fun a b => shr a b.toNat) s

/-- SRA (R222). -/
def execSra (d a b : BitVec 6) (s : State) : Result := run (scalar2 d a b fun a b => sar a b.toNat) s

/-- ROL (R222). -/
def execRol (d a b : BitVec 6) (s : State) : Result := run (scalar2 d a b fun a b => rotl a b.toNat) s

/-- ROR (R222). -/
def execRor (d a b : BitVec 6) (s : State) : Result := run (scalar2 d a b fun a b => rotr a b.toNat) s

/-- SLT (R222). -/
def execSlt (d a b : BitVec 6) (s : State) : Result := run (scalar2 d a b fun a b => ofBool (a.slt b)) s

/-- SLTU (R222). -/
def execSltu (d a b : BitVec 6) (s : State) : Result := run (scalar2 d a b fun a b => ofBool (a.ult b)) s

/-- MIN (R222). -/
def execMin (d a b : BitVec 6) (s : State) : Result := run (scalar2 d a b fun a b => if b.slt a then b else a) s

/-- MAX (R222). -/
def execMax (d a b : BitVec 6) (s : State) : Result := run (scalar2 d a b fun a b => if a.slt b then b else a) s

/-- MINU (R222). -/
def execMinu (d a b : BitVec 6) (s : State) : Result := run (scalar2 d a b fun a b => if b.ult a then b else a) s

/-- MAXU (R222). -/
def execMaxu (d a b : BitVec 6) (s : State) : Result := run (scalar2 d a b fun a b => if a.ult b then b else a) s

/-- ADDW (R222). -/
def execAddw (d a b : BitVec 6) (s : State) : Result := run (scalar2 d a b fun a b => sextN 32 (a + b).toNat) s

/-- SUBW (R222). -/
def execSubw (d a b : BitVec 6) (s : State) : Result := run (scalar2 d a b fun a b => sextN 32 (a - b).toNat) s

/-- CLZ (R222). -/
def execClz (d a : BitVec 6) (s : State) : Result := run (scalar1 d a fun a => w64 (clz64 a.toNat)) s

/-- CTZ (R222). -/
def execCtz (d a : BitVec 6) (s : State) : Result := run (scalar1 d a fun a => w64 (ctz64 a.toNat)) s

/-- POPC (R222). -/
def execPopc (d a : BitVec 6) (s : State) : Result := run (scalar1 d a fun a => w64 (popc64 a.toNat)) s

/-- SEXTB (R222). -/
def execSextb (d a : BitVec 6) (s : State) : Result := run (scalar1 d a fun a => sextN 8 a.toNat) s

/-- SEXTH (R222). -/
def execSexth (d a : BitVec 6) (s : State) : Result := run (scalar1 d a fun a => sextN 16 a.toNat) s

/-- SEXTW (R222). -/
def execSextw (d a : BitVec 6) (s : State) : Result := run (scalar1 d a fun a => sextN 32 a.toNat) s

/-- A sign-extended 14-bit immediate (R20). -/
def imm14 (i : BitVec 14) : W64 := i.signExtend 64

/-- ADDI (R223). -/
def execAddi (d a : BitVec 6) (i : BitVec 14) (s : State) : Result :=
  run (scalar1 d a fun a => let i := imm14 i; a + i) s

/-- SLTI (R223). -/
def execSlti (d a : BitVec 6) (i : BitVec 14) (s : State) : Result :=
  run (scalar1 d a fun a => let i := imm14 i; ofBool (a.slt i)) s

/-- SLTIU (R223). -/
def execSltiu (d a : BitVec 6) (i : BitVec 14) (s : State) : Result :=
  run (scalar1 d a fun a => let i := imm14 i; ofBool (a.ult i)) s

/-- ANDI (R223). -/
def execAndi (d a : BitVec 6) (i : BitVec 14) (s : State) : Result :=
  run (scalar1 d a fun a => let i := imm14 i; a &&& i) s

/-- ORI (R223). -/
def execOri (d a : BitVec 6) (i : BitVec 14) (s : State) : Result :=
  run (scalar1 d a fun a => let i := imm14 i; a ||| i) s

/-- XORI (R223). -/
def execXori (d a : BitVec 6) (i : BitVec 14) (s : State) : Result :=
  run (scalar1 d a fun a => let i := imm14 i; a ^^^ i) s

/-- SLLI (R224). -/
def execSlli (d a n : BitVec 6) (s : State) : Result := run (scalar1 d a fun a => shl a n.toNat) s

/-- SRLI (R224). -/
def execSrli (d a n : BitVec 6) (s : State) : Result := run (scalar1 d a fun a => shr a n.toNat) s

/-- SRAI (R224). -/
def execSrai (d a n : BitVec 6) (s : State) : Result := run (scalar1 d a fun a => sar a n.toNat) s

/-- RORI (R224). -/
def execRori (d a n : BitVec 6) (s : State) : Result := run (scalar1 d a fun a => rotr a n.toNat) s

/-- LDHI (R228). -/
def execLdhi (d : BitVec 6) (i : BitVec 20) (s : State) : Result := run (writeS d (i.signExtend 64 <<< 14)) s

/-- PCREL (R229): the word's own address plus the immediate. -/
def execPcrel (d : BitVec 6) (i : BitVec 20) (s : State) : Result := run (writeS d (s.me.pc + i.signExtend 64)) s

end Sys2Proof.Machine
end

