-- ==== Sys2Proof/Machine/MulDiv.lean ====
section
/-! DEFINITION. Multiply and divide (major 0x02: R225 to R227), and the completion of long-running computations. -/

namespace Sys2Proof.Machine

/-- The high 64 bits of a product. -/
def mulHigh (x y : Int) : W64 := BitVec.ofInt 64 (x * y / 2 ^ 64)

/-- Division of `n`-bit values (R226). -/
def divN (x y n : Nat) (signed : Bool) : Nat :=
  let x := x % 2 ^ n
  let y := y % 2 ^ n
  if y = 0 then 2 ^ n - 1
  else if signed then
    (if x = 2 ^ (n - 1) ∧ y = 2 ^ n - 1 then x else ofSigned n ((toSigned n x).tdiv (toSigned n y)))
  else x / y

/-- Remainder of `n`-bit values (R226). -/
def remN (x y n : Nat) (signed : Bool) : Nat :=
  let x := x % 2 ^ n
  let y := y % 2 ^ n
  if y = 0 then x
  else if signed then
    (if x = 2 ^ (n - 1) ∧ y = 2 ^ n - 1 then 0 else ofSigned n ((toSigned n x).tmod (toSigned n y)))
  else x % y

/-- A divide or remainder: the thread parks until the result is written, in a register or on an output port (R220, R227). -/
def divide (d a b : BitVec 6) (f : W64 → W64 → W64) : M Unit := do
  let x ← readS a
  let y ← readS b
  roomFor d.toNat
  let t ← getMe
  let go ← (if t.isPort d.toNat then output 9 (w64 (d.toNat - 60)) 8 [f x y] else pure true)
  if go then busyM 3 (.divide d.toNat (f x y)) else pure ()

/-- MUL (R225). -/
def execMul (d a b : BitVec 6) (s : State) : Result := run (scalar2 d a b fun a b => a * b) s
/-- MULH (R225). -/
def execMulh (d a b : BitVec 6) (s : State) : Result := run (scalar2 d a b fun a b => mulHigh a.toInt b.toInt) s
/-- MULHU (R225). -/
def execMulhu (d a b : BitVec 6) (s : State) : Result := run (scalar2 d a b fun a b => mulHigh a.toNat b.toNat) s
/-- MULHSU (R225). -/
def execMulhsu (d a b : BitVec 6) (s : State) : Result := run (scalar2 d a b fun a b => mulHigh a.toInt b.toNat) s
/-- MULW (R225). -/
def execMulw (d a b : BitVec 6) (s : State) : Result := run (scalar2 d a b fun a b => sextN 32 (a * b).toNat) s
/-- DIV (R225, R226). -/
def execDiv (d a b : BitVec 6) (s : State) : Result := run (divide d a b fun a b => w64 (divN a.toNat b.toNat 64 true)) s
/-- DIVU (R225, R226). -/
def execDivu (d a b : BitVec 6) (s : State) : Result := run (divide d a b fun a b => w64 (divN a.toNat b.toNat 64 false)) s
/-- REM (R225, R226). -/
def execRem (d a b : BitVec 6) (s : State) : Result := run (divide d a b fun a b => w64 (remN a.toNat b.toNat 64 true)) s
/-- REMU (R225, R226). -/
def execRemu (d a b : BitVec 6) (s : State) : Result := run (divide d a b fun a b => w64 (remN a.toNat b.toNat 64 false)) s
/-- DIVW (R225, R226). -/
def execDivw (d a b : BitVec 6) (s : State) : Result := run (divide d a b fun a b => sextN 32 (divN a.toNat b.toNat 32 true)) s
/-- DIVWU (R225, R226). -/
def execDivwu (d a b : BitVec 6) (s : State) : Result := run (divide d a b fun a b => sextN 32 (divN a.toNat b.toNat 32 false)) s
/-- REMW (R225, R226). -/
def execRemw (d a b : BitVec 6) (s : State) : Result := run (divide d a b fun a b => sextN 32 (remN a.toNat b.toNat 32 true)) s
/-- REMWU (R225, R226). -/
def execRemwu (d a b : BitVec 6) (s : State) : Result := run (divide d a b fun a b => sextN 32 (remN a.toNat b.toNat 32 false)) s

/-- Writes listed lanes of v[d] and sets the register full. -/
def Slot.putLanes (t : Slot) (d : Nat) (l : Map W32) : Slot :=
  { t with vr := l.foldl (fun m p => put m (16 * d + p.1) p.2) t.vr, vFull := setBit t.vFull d true,
           vPoison := if l.length = 16 then setBit t.vPoison d false else t.vPoison,
           vErr := if l.length = 16 then t.vErr.filter fun g => g / 8 != d else t.vErr }

/-- DIVIDE_COMPLETE (R227, R241): the result is written, its flags enter FSTAT, and the thread goes on; a result for an output port
waits while the port has no space (R207). -/
def execDivideComplete (core slot : Nat) (s : State) : Result :=
  match (s.slot core slot).wait with
  | .busy _ (.divide d v bad) => .next (if s.destReady core slot d then (s.putDest core slot d v bad).complete core slot fun t => t else s)
  | .busy _ (.vdivide d l fl) =>
    .next ((s.complete core slot fun t => (t.putLanes d l).raise fl).countIn core 29 (some slot) ((upto 0 5).filter (bitAt fl)).length)
  | _ => .next s

end Sys2Proof.Machine
end

