-- ==== Sys2Proof/Machine/VecInt.lean ====
section
/-! DEFINITION. Vector registers lane by lane, and 32-bit integer vector arithmetic (major 0x20, R240 to R242). -/

namespace Sys2Proof.Machine

/-- The live set of an instruction, E_L = A ∩ P (R240). -/
def Slot.liveLanes (t : Slot) (k : BitVec 3) : W16 := t.act &&& (if k = 0 then 0xFFFF else t.mask k)

/-- Lanes 0 to 15 by a function. -/
def lanes (f : Nat → W32) : List W32 := (upto 0 16).map f
/-- Lane `i` of a list, as a number. -/
def laneN (l : List W32) (i : Nat) : Nat := (l.getD i 0).toNat

/-- A vector instruction of one source: lanes of E by `f` (R241). -/
def vec1 (d a : BitVec 5) (k : BitVec 3) (f : Nat → Nat) : M Unit := do
  let x ← readV a
  soundK k
  let t ← getMe
  writeV d (t.effective k) (lanes fun i => w32 (f (laneN x i)))

/-- A vector instruction of two sources. -/
def vec2 (d a b : BitVec 5) (k : BitVec 3) (f : Nat → Nat → Nat) : M Unit := do
  let x ← readV a
  let y ← readV b
  soundK k
  let t ← getMe
  writeV d (t.effective k) (lanes fun i => w32 (f (laneN x i) (laneN y i)))

/-- A bit per lane. -/
def bits16 (f : Nat → Bool) : W16 := BitVec.ofNat 16 ((upto 0 16).foldl (fun a i => if f i then a + 2 ^ i else a) 0)

/-- A compare: bits of E, the others 0 (R240). -/
def vcmp (d : BitVec 3) (a b : BitVec 5) (k : BitVec 3) (f : Nat → Nat → Bool) : M Unit := do
  let x ← readV a
  let y ← readV b
  soundK k
  let t ← getMe
  let e := t.effective k
  writeK d (bits16 fun i => bitAt e i && f (laneN x i) (laneN y i))

/-- Saturates to a signed 32-bit number. -/
def satSigned (x : Int) : Nat := ofSigned 32 (if x < -(2 ^ 31) then -(2 ^ 31) else if 2 ^ 31 - 1 < x then 2 ^ 31 - 1 else x)

/-- VADD. -/
def execVadd (d a b : BitVec 5) (k : BitVec 3) (s : State) : Result := run (vec2 d a b k fun a b => a + b) s
/-- VSUB. -/
def execVsub (d a b : BitVec 5) (k : BitVec 3) (s : State) : Result := run (vec2 d a b k fun a b => a + 2 ^ 32 - b) s
/-- VMUL. -/
def execVmul (d a b : BitVec 5) (k : BitVec 3) (s : State) : Result := run (vec2 d a b k fun a b => a * b) s
/-- VMULH. -/
def execVmulh (d a b : BitVec 5) (k : BitVec 3) (s : State) : Result := run (vec2 d a b k fun a b => ofSigned 32 (toSigned 32 a * toSigned 32 b / 2 ^ 32)) s
/-- VMULHU. -/
def execVmulhu (d a b : BitVec 5) (k : BitVec 3) (s : State) : Result := run (vec2 d a b k fun a b => a * b / 2 ^ 32) s
/-- VAND. -/
def execVand (d a b : BitVec 5) (k : BitVec 3) (s : State) : Result := run (vec2 d a b k fun a b => Nat.land a b) s
/-- VOR. -/
def execVor (d a b : BitVec 5) (k : BitVec 3) (s : State) : Result := run (vec2 d a b k fun a b => Nat.lor a b) s
/-- VXOR. -/
def execVxor (d a b : BitVec 5) (k : BitVec 3) (s : State) : Result := run (vec2 d a b k fun a b => Nat.xor a b) s
/-- VANDN. -/
def execVandn (d a b : BitVec 5) (k : BitVec 3) (s : State) : Result := run (vec2 d a b k fun a b => Nat.land a (2 ^ 32 - 1 - b)) s
/-- VSLL. -/
def execVsll (d a b : BitVec 5) (k : BitVec 3) (s : State) : Result := run (vec2 d a b k fun a b => a * 2 ^ (b % 32)) s
/-- VSRL. -/
def execVsrl (d a b : BitVec 5) (k : BitVec 3) (s : State) : Result := run (vec2 d a b k fun a b => a / 2 ^ (b % 32)) s
/-- VSRA. -/
def execVsra (d a b : BitVec 5) (k : BitVec 3) (s : State) : Result := run (vec2 d a b k fun a b => ofSigned 32 (toSigned 32 a / 2 ^ (b % 32))) s
/-- VMIN. -/
def execVmin (d a b : BitVec 5) (k : BitVec 3) (s : State) : Result := run (vec2 d a b k fun a b => if toSigned 32 a < toSigned 32 b then a else b) s
/-- VMAX. -/
def execVmax (d a b : BitVec 5) (k : BitVec 3) (s : State) : Result := run (vec2 d a b k fun a b => if toSigned 32 a < toSigned 32 b then b else a) s
/-- VMINU. -/
def execVminu (d a b : BitVec 5) (k : BitVec 3) (s : State) : Result := run (vec2 d a b k fun a b => if a < b then a else b) s
/-- VMAXU. -/
def execVmaxu (d a b : BitVec 5) (k : BitVec 3) (s : State) : Result := run (vec2 d a b k fun a b => if a < b then b else a) s
/-- VADDS. -/
def execVadds (d a b : BitVec 5) (k : BitVec 3) (s : State) : Result := run (vec2 d a b k fun a b => satSigned (toSigned 32 a + toSigned 32 b)) s
/-- VSUBS. -/
def execVsubs (d a b : BitVec 5) (k : BitVec 3) (s : State) : Result := run (vec2 d a b k fun a b => satSigned (toSigned 32 a - toSigned 32 b)) s
/-- VADDSU. -/
def execVaddsu (d a b : BitVec 5) (k : BitVec 3) (s : State) : Result := run (vec2 d a b k fun a b => satAt (2 ^ 32 - 1) (a + b)) s
/-- VSUBSU. -/
def execVsubsu (d a b : BitVec 5) (k : BitVec 3) (s : State) : Result := run (vec2 d a b k fun a b => a - b) s
/-- VABS. -/
def execVabs (d a : BitVec 5) (k : BitVec 3) (s : State) : Result := run (vec1 d a k fun a => ofSigned 32 (toSigned 32 a).natAbs) s
/-- VCLZ. -/
def execVclz (d a : BitVec 5) (k : BitVec 3) (s : State) : Result := run (vec1 d a k fun a => clz64 a - 32) s
/-- VPOPC. -/
def execVpopc (d a : BitVec 5) (k : BitVec 3) (s : State) : Result := run (vec1 d a k fun a => popBits a 32) s
/-- VCEQ. -/
def execVceq (d : BitVec 3) (a b : BitVec 5) (k : BitVec 3) (s : State) : Result := run (vcmp d a b k fun a b => a == b) s
/-- VCLT. -/
def execVclt (d : BitVec 3) (a b : BitVec 5) (k : BitVec 3) (s : State) : Result := run (vcmp d a b k fun a b => decide (toSigned 32 a < toSigned 32 b)) s
/-- VCLTU. -/
def execVcltu (d : BitVec 3) (a b : BitVec 5) (k : BitVec 3) (s : State) : Result := run (vcmp d a b k fun a b => decide (a < b)) s

end Sys2Proof.Machine
end

