-- ==== Sys2Proof/Machine/VecFp.lean ====
section
/-! DEFINITION. FP32 vector arithmetic (major 0x21, R243), square root and conversions (major 0x22, R244, R245). -/

namespace Sys2Proof.Machine

/-- Raises flags in the running thread's FSTAT, and counts them (R103, R408). -/
def raiseM (fl : Flags) : M Unit := fun s =>
  if fl = 0 then .ok ((), s)
  else .ok ((), (s.setMe (s.me.raise fl)).countIn s.cur.core 29 (some s.cur.slot) (popBits fl.toNat 5))

/-- The flags of the lanes that a mask selects. -/
def laneFlags (mask : W16) (f : Nat → Flags) : Flags := (upto 0 16).foldl (fun a i => if bitAt mask i then a ||| f i else a) 0

/-- Writes lanes of E with the flags of the lanes of E_L. -/
def writeFp (d : BitVec 5) (k : BitVec 3) (r : Nat → Nat × Flags) : M Unit := do
  soundK k
  let t ← getMe
  writeV d (t.effective k) (lanes fun i => w32 (r i).1)
  raiseM (laneFlags (t.liveLanes k) fun i => (r i).2)

/-- An FP instruction of two sources, under RM and FTZ. -/
def vfp2 (d a b : BitVec 5) (k : BitVec 3) (f : Rm → Bool → Nat → Nat → Nat × Flags) : M Unit := do
  let x ← readV a
  let y ← readV b
  let t ← getMe
  writeFp d k fun i => f t.rm t.ftz (laneN x i) (laneN y i)

/-- A fused instruction: vd is a source. -/
def vfma (d a b : BitVec 5) (k : BitVec 3) (negP negC : Bool) : M Unit := do
  let x ← readV a
  let y ← readV b
  let z ← readV d
  let t ← getMe
  writeFp d k fun i => ffma t.rm t.ftz negP negC (laneN x i) (laneN y i) (laneN z i)

/-- The smaller or larger of two FP32 values: minimumNumber and maximumNumber of IEEE 754-2019, with -0 below +0. -/
def fpick (big ftz : Bool) (a b : Nat) : Nat × Flags :=
  let x := ftzIn fp32 ftz a
  let y := ftzIn fp32 ftz b
  match decodeFp fp32 x, decodeFp fp32 y with
  | .nan p, .nan q => (fp32.qnan, flagIf (p || q) fNV)
  | .nan p, _ => (y, flagIf p fNV)
  | _, .nan q => (x, flagIf q fNV)
  | u, v =>
    match cmpNum u v with
    | some c =>
      let first := if c = 0 then decide (x / 2 ^ 31 % 2 = 1) != big else decide (c < 0) != big
      (if first then x else y, 0)
    | none => (fp32.qnan, 0)

/-- A compare of two FP32 values: what holds of their order, for values that are not NaN, and the flag. -/
def fcompare (signals : Bool) (ok : Int → Bool) (ftz : Bool) (a b : Nat) : Bool × Flags :=
  match decodeFp fp32 (ftzIn fp32 ftz a), decodeFp fp32 (ftzIn fp32 ftz b) with
  | .nan p, .nan q => (false, flagIf (signals || p || q) fNV)
  | .nan p, _ => (false, flagIf (signals || p) fNV)
  | _, .nan q => (false, flagIf (signals || q) fNV)
  | u, v => (match cmpNum u v with | some c => ok c | none => false, 0)

/-- Whether either operand is a NaN; quiet. -/
def funordered (_ftz : Bool) (a b : Nat) : Bool × Flags :=
  match decodeFp fp32 a, decodeFp fp32 b with
  | .nan p, .nan q => (true, flagIf (p || q) fNV)
  | .nan p, _ => (true, flagIf p fNV)
  | _, .nan q => (true, flagIf q fNV)
  | _, _ => (false, 0)

/-- An FP compare into a mask. -/
def vfcmp (d : BitVec 3) (a b : BitVec 5) (k : BitVec 3) (f : Bool → Nat → Nat → Bool × Flags) : M Unit := do
  let x ← readV a
  let y ← readV b
  soundK k
  let t ← getMe
  let e := t.effective k
  let live := t.liveLanes k
  writeK d (bits16 fun i => bitAt e i && (f t.ftz (laneN x i) (laneN y i)).1)
  raiseM (laneFlags live fun i => (f t.ftz (laneN x i) (laneN y i)).2)

/-- A computation of 12 cycles and more: the thread parks until the lanes are written (R241). -/
def vlong (d : BitVec 5) (k : BitVec 3) (r : Nat → Nat × Flags) : M Unit := do
  freeV d.toNat
  soundK k
  let t ← getMe
  let e := t.effective k
  let l : Map W32 := ((upto 0 16).filter (bitAt e)).map fun i => (i, w32 (r i).1)
  busyM 3 (.vdivide d.toNat l (laneFlags (t.liveLanes k) fun i => (r i).2))

/-- VFADD. -/
def execVfadd (d a b : BitVec 5) (k : BitVec 3) (s : State) : Result := run (vfp2 d a b k fadd) s
/-- VFSUB. -/
def execVfsub (d a b : BitVec 5) (k : BitVec 3) (s : State) : Result := run (vfp2 d a b k fsub) s
/-- VFMUL. -/
def execVfmul (d a b : BitVec 5) (k : BitVec 3) (s : State) : Result := run (vfp2 d a b k fmul) s
/-- VFDIV. -/
def execVfdiv (d a b : BitVec 5) (k : BitVec 3) (s : State) : Result :=
  run (do let x ← readV a
          let y ← readV b
          let t ← getMe
          vlong d k fun i => fdiv t.rm t.ftz (laneN x i) (laneN y i)) s
/-- VFMA. -/
def execVfma (d a b : BitVec 5) (k : BitVec 3) (s : State) : Result := run (vfma d a b k false false) s
/-- VFMS. -/
def execVfms (d a b : BitVec 5) (k : BitVec 3) (s : State) : Result := run (vfma d a b k false true) s
/-- VFNMA. -/
def execVfnma (d a b : BitVec 5) (k : BitVec 3) (s : State) : Result := run (vfma d a b k true false) s
/-- VFMIN. -/
def execVfmin (d a b : BitVec 5) (k : BitVec 3) (s : State) : Result := run (vfp2 d a b k fun _ z x y => fpick false z x y) s
/-- VFMAX. -/
def execVfmax (d a b : BitVec 5) (k : BitVec 3) (s : State) : Result := run (vfp2 d a b k fun _ z x y => fpick true z x y) s
/-- VFABS. -/
def execVfabs (d a : BitVec 5) (k : BitVec 3) (s : State) : Result := run (vec1 d a k fun x => x % 2 ^ 31) s
/-- VFNEG. -/
def execVfneg (d a : BitVec 5) (k : BitVec 3) (s : State) : Result := run (vec1 d a k fun x => Nat.xor x (2 ^ 31)) s
/-- VFCEQ. -/
def execVfceq (d : BitVec 3) (a b : BitVec 5) (k : BitVec 3) (s : State) : Result :=
  run (vfcmp d a b k (fcompare false fun c => c == 0)) s
/-- VFCLT. -/
def execVfclt (d : BitVec 3) (a b : BitVec 5) (k : BitVec 3) (s : State) : Result :=
  run (vfcmp d a b k (fcompare true fun c => decide (c < 0))) s
/-- VFCLE. -/
def execVfcle (d : BitVec 3) (a b : BitVec 5) (k : BitVec 3) (s : State) : Result :=
  run (vfcmp d a b k (fcompare true fun c => decide (c ≤ 0))) s
/-- VFCUN. -/
def execVfcun (d : BitVec 3) (a b : BitVec 5) (k : BitVec 3) (s : State) : Result := run (vfcmp d a b k funordered) s
/-- VFSQRT (R244). -/
def execVfsqrt (d a : BitVec 5) (k : BitVec 3) (s : State) : Result :=
  run (do let x ← readV a
          let t ← getMe
          vlong d k fun i => fsqrt t.rm t.ftz (laneN x i)) s

/-! ### VCVT (R245) -/

/-- The bits of a register lane that hold a value of a conversion code, and its format: 1 F32, 2 BF16, 3 F16, 4 I8, 5 I32,
6 T8, 7 T6 (R42). -/
def cvtWidth (c : Nat) : Nat := if c = 1 ∨ c = 5 then 32 else if c = 2 ∨ c = 3 then 16 else if c = 7 then 6 else 8

/-- The value of a source lane: FTZ on IEEE inputs, scale 0. -/
def cvtIn (c : Nat) (ftz ti : Bool) (x : Nat) : Num :=
  let b := x % 2 ^ cvtWidth c
  let b := if c = 1 then ftzIn fp32 ftz b else if c = 2 then ftzIn bf16 ftz b else if c = 3 then ftzIn fp16 ftz b else b
  decodeNum (Fmt.ofCode c) ti 0 b

/-- A conversion of one lane. -/
def cvtLane (f t : Nat) (rm : Rm) (ftz ti : Bool) (x : Nat) : Nat × Flags :=
  let r := encodeNum (Fmt.ofCode t) rm ftz false ti 0 (cvtIn f ftz ti x)
  (if t = 4 then ofSigned 32 (toSigned 8 r.1) else r.1, r.2)

/-- VCVT.to.from (R245). -/
def execVcvt (d a : BitVec 5) (k f t : BitVec 3) (s : State) : Result :=
  run (do let x ← readV a
          let u ← getMe
          let ti ← askM fun s => s.myCore.topinf
          writeFp d k fun i => cvtLane f.toNat t.toNat u.rm u.ftz ti (laneN x i)) s

end Sys2Proof.Machine
end

