-- ==== Sys2Proof/Machine/VecFun.lean ====
section
/-! DEFINITION. The functions of major 0x22 (R244).  The manual bounds the error of seven of them and leaves their bits open: a
free value stands for the result, kept only when it lies within the bound of an approximation to 2^-90. -/

namespace Sys2Proof.Machine

/-! ### Fixed-point approximations, in units of 2^-160 -/

/-- 1 in these units. -/
def fixOne : Nat := 2 ^ 160
/-- ln 2. -/
def fixLn2 : Nat := 0xb17217f7d1cf79abc9e3b39803f2f6af40f34326
/-- π / 2. -/
def fixHalfPi : Nat := 0x1921fb54442d18469898cc51701b839a252049c11
/-- 1 / ln 2. -/
def fixLog2e : Nat := 0x171547652b82fe1777d0ffda0d23a7d11d6aef551

/-- `(-1)^neg × m × 2^e` in fixed point, rounded down in magnitude. -/
def toFix (m : Nat) (e : Int) : Nat := if 0 ≤ e + 160 then m * 2 ^ (e + 160).toNat else m / 2 ^ (-(e + 160)).toNat

/-- `Σ t^k / k!` from term `k` on, where `term` is the last term added. -/
def expSeries (t term k n : Nat) : Nat :=
  match n with
  | 0 => 0
  | j + 1 => let x := term * t / fixOne / k
    x + expSeries t x (k + 1) j

/-- `2^f` for a fixed-point fraction `f`. -/
def exp2Frac (f : Nat) : Nat := fixOne + expSeries (f * fixLn2 / fixOne) fixOne 1 60

/-- The fraction bits of a base-2 logarithm of `u` in [1, 2): `n` bits after the bits in `acc`. -/
def log2Bits (u acc n : Nat) : Nat :=
  match n with
  | 0 => acc
  | j + 1 => let v := u * u / fixOne
    if 2 * fixOne ≤ v then log2Bits (v / 2) (2 * acc + 1) j else log2Bits v (2 * acc) j

/-- An alternating series `term - term × r² / (k (k + 1)) + …`. -/
def altSeries (r2 term k n : Nat) : Int :=
  match n with
  | 0 => 0
  | j + 1 => (term : Int) - altSeries r2 (term * r2 / fixOne / (k * (k + 1))) (k + 2) j

/-- Sine and cosine of a fixed-point angle below π / 2. -/
def sinCosFix (r : Nat) : Int × Int := (altSeries (r * r / fixOne) r 2 40, altSeries (r * r / fixOne) fixOne 1 40)

/-- Sine, or cosine, of a fixed-point angle. -/
def sinFix (cos : Bool) (y : Nat) : Int :=
  let q := y / fixHalfPi + (if cos then 1 else 0)
  let sc := sinCosFix (y % fixHalfPi)
  if q % 4 = 0 then sc.1 else if q % 4 = 1 then sc.2 else if q % 4 = 2 then -sc.1 else -sc.2

/-- A fixed-point number as an exact value. -/
def numOfFix (x : Int) : Num := .fin (decide (x < 0)) x.natAbs (-160)

/-- The exact value of a positive function result, or its sign and approximation. -/
def funValue (fn : Nat) (n : Bool) (m : Nat) (e : Int) : Num :=
  match fn with
  | 1 => -- 1 / √x
    let odd := decide (e % 2 ≠ 0)
    let m := if odd then 2 * m else m
    let e := if odd then e - 1 else e
    .fin false (sqrtBits (2 ^ 400 / m) 201 0) (-200 - e / 2)
  | 2 => .fin n (2 ^ 200 / m) (-200 - e)
  | 3 => -- 2^x
    let x : Int := if n then -(toFix m e : Int) else toFix m e
    let x : Int := if x < -(200 * (fixOne : Int)) then -(200 * (fixOne : Int)) else x
    .fin false (exp2Frac (x % (fixOne : Int)).toNat) (x / (fixOne : Int) - 160)
  | 4 => -- log2 x
    let top := Nat.log2 m
    let u := m * 2 ^ (160 - top)
    let frac := log2Bits u 0 110
    numOfFix ((e + (top : Int)) * (fixOne : Int) + (frac * 2 ^ 50 : Nat))
  | 5 => let v := sinFix false (toFix m e); numOfFix (if n then -v else v)
  | 6 => numOfFix (sinFix true (toFix m e))
  | _ => -- tanh x
    let t := 2 * toFix m e * fixLog2e / fixOne
    let x := exp2Frac (t % fixOne) * 2 ^ (t / fixOne)
    let v := (x - fixOne) * fixOne / (x + fixOne)
    numOfFix (if n then -(v : Int) else v)

/-! ### The bounds -/

/-- The spacing of FP32 values at the magnitude of a value, as an exponent. -/
def ulpExp (v : Num) : Int :=
  match v with
  | .fin _ m e => let t := e + (Nat.log2 m : Int) - 23
    if t < -149 ∨ m = 0 then -149 else t
  | _ => -149

/-- `|y - v| ≤ k × 2^t`; of a value that is only approximated, less the error of the approximation, so that the exact value is as
near. -/
def near (y v : Num) (exact : Bool) (k : Nat) (t : Int) : Bool :=
  match cmpNum (absNum (addNum .rne y (negNum v)).1) (.fin false (if exact then k * 2 ^ 70 else k * 2 ^ 70 - 1) (t - 70)) with
  | some c => decide (c ≤ 0)
  | none => false

/-- The value of a function at an operand is exact: a reciprocal, or a reciprocal root, of a power of two. -/
def funExact (fn : Nat) (x v : Num) : Bool :=
  match fn with
  | 1 => cmpNum (mulNum (mulNum v v).1 x).1 (.fin false 1 0) == some 0
  | 2 => cmpNum (mulNum v x).1 (.fin false 1 0) == some 0
  | _ => false

/-- Whether FP32 bits are a result that R244 allows for a finite, nonzero operand `x`. -/
def funOk (fn : Nat) (x : Num) (v : Num) (y : Nat) : Bool :=
  let near := near (decodeFp fp32 y) v (funExact fn x v)
  match fn with
  | 1 => near 2 (ulpExp v)
  | 2 => near 1 (ulpExp v)
  | 3 => near 2 (ulpExp v)
  | 4 => if (cmpNum x (.fin false 3 (-2))).any (fun c => decide (0 ≤ c)) && (cmpNum x (.fin false 3 (-1))).any (fun c => decide (c ≤ 0))
         then near 1 (-22) else near 2 (ulpExp v)
  | 5 => near 1 (-21)
  | 6 => near 1 (-21)
  | _ => near 1 (-22)

/-- FP32 bits in [-1, 1]. -/
def unitOk (y : Nat) : Bool := decide (y % 2 ^ 31 ≤ 0x3F800000)

/-- Replaces a subnormal result under FTZ (R104). -/
def ftzOut (ftz : Bool) (y : Nat) (fl : Flags) : Nat × Flags :=
  if ftz && isSubnormal fp32 y then (if y / 2 ^ 31 % 2 = 1 then 2 ^ 31 else 0, fl ||| fUF ||| fNX) else (y, fl)

/-- A result within the bound: the free value of this operand where R244 allows it, else the nearest FP32 value. -/
def funResult (fn a : Nat) (x v : Num) : Nat :=
  let y := (Config.vfun fn (w32 a)).toNat
  if funOk fn x v y then y else (encodeFp fp32 .rne false false v).1

/-- FP32 infinity and one. -/
def fInf : Nat := 0x7F800000
/-- FP32 one. -/
def fOne : Nat := 0x3F800000

/-- The power of two that a magnitude is, if it is one. -/
def pow2Of (m : Nat) (e : Int) : Option Int := if m = 2 ^ Nat.log2 m then some (e + (Nat.log2 m : Int)) else none

/-- One lane of a function (R244): its special operands, then a result within the bound, with NX.  DEDUCED: VFRCP of a magnitude above
2^126 raises UF alone, but UF and NX where FTZ flushes its subnormal result, as R104 says of every such result; and a reciprocal beyond the
largest finite value overflows as R103 says, with OF and NX (log entry 13). -/
def funLane (fn : Nat) (ftz : Bool) (a : Nat) : Nat × Flags :=
  let a := ftzIn fp32 ftz a
  let sg := decide (a / 2 ^ 31 = 1)
  match decodeFp fp32 a with
  | .nan q => (fp32.qnan, flagIf q fNV)
  | .inf n =>
    (match fn with
     | 1 => if n then (fp32.qnan, fNV) else (0, 0)
     | 2 => (fp32.signed n 0, 0)
     | 3 => if n then (0, 0) else (fInf, fOF ||| fNX)
     | 4 => if n then (fp32.qnan, fNV) else (fInf, 0)
     | 5 => (fp32.qnan, fNV)
     | 6 => (fp32.qnan, fNV)
     | _ => (fp32.signed n fOne, 0))
  | .fin n m e =>
    if m = 0 then
      (match fn with
       | 1 => (fp32.signed sg fInf, fDZ)
       | 2 => (fp32.signed sg fInf, fDZ)
       | 3 => (fOne, 0)
       | 4 => (fp32.signed true fInf, fDZ)
       | 5 => (fp32.signed sg 0, 0)
       | 6 => (fOne, 0)
       | _ => (fp32.signed sg 0, 0))
    else
      let x := Num.fin n m e
      let gen := fun (_ : Unit) => ftzOut ftz (funResult fn a x (funValue fn n m e)) fNX
      match fn with
      | 1 => if n then (fp32.qnan, fNV) else gen ()
      | 2 =>
        if cmpNum (absNum x) (.fin false 1 (-128)) != some 1 then (fp32.signed n fInf, fOF ||| fNX)
        else if cmpNum (absNum x) (.fin false 1 126) = some 1 then
          let v := funValue 2 n m e
          let y := (Config.vfun 2 (w32 a)).toNat
          let y := if funOk 2 x v y && decide (y / 2 ^ 23 % 256 = 0) then y else (encodeFp fp32 .rtz false false v).1
          ftzOut ftz y fUF
        else gen ()
      | 3 =>
        if cmpNum x (.fin false 1 7) != some (-1) then (fInf, fOF ||| fNX)
        else
          let whole := decide (0 ≤ e) || decide (m % 2 ^ (-e).toNat = 0)
          let i : Int := signedInt n (if 0 ≤ e then m * 2 ^ e.toNat else m / 2 ^ (-e).toNat)
          if whole && decide (-149 ≤ i) then ftzOut ftz (encodeFp fp32 .rne false false (.fin false 1 i)).1 0 else gen ()
      | 4 =>
        if n then (fp32.qnan, fNV)
        else (match pow2Of m e with
          | some i => ((encodeFp fp32 .rne false false (numOfInt i)).1, 0)
          | none => gen ())
      | 7 => if cmpNum (absNum x) (.fin false 9 0) != some (-1) then (fp32.signed n fOne, 0) else gen ()
      | _ =>
        if cmpNum (absNum x) (.fin false 1 16) = some 1 then
          let y := (Config.vfun fn (w32 a)).toNat
          ftzOut ftz (if unitOk y then y else 0) fNX
        else gen ()

/-- A function instruction: the thread parks until its lanes are written (R241). -/
def vfun (fn : Nat) (d a : BitVec 5) (k : BitVec 3) : M Unit := do
  let x ← readV a
  let t ← getMe
  vlong d k fun i => funLane fn t.ftz (laneN x i)

/-- VFRSQ. -/
def execVfrsq (d a : BitVec 5) (k : BitVec 3) (s : State) : Result := run (vfun 1 d a k) s
/-- VFRCP. -/
def execVfrcp (d a : BitVec 5) (k : BitVec 3) (s : State) : Result := run (vfun 2 d a k) s
/-- VFEXP2. -/
def execVfexp2 (d a : BitVec 5) (k : BitVec 3) (s : State) : Result := run (vfun 3 d a k) s
/-- VFLOG2. -/
def execVflog2 (d a : BitVec 5) (k : BitVec 3) (s : State) : Result := run (vfun 4 d a k) s
/-- VFSIN. -/
def execVfsin (d a : BitVec 5) (k : BitVec 3) (s : State) : Result := run (vfun 5 d a k) s
/-- VFCOS. -/
def execVfcos (d a : BitVec 5) (k : BitVec 3) (s : State) : Result := run (vfun 6 d a k) s
/-- VFTANH. -/
def execVftanh (d a : BitVec 5) (k : BitVec 3) (s : State) : Result := run (vfun 7 d a k) s

end Sys2Proof.Machine
end

