-- ==== Sys2Proof/Machine/VecCross.lean ====
section
/-! DEFINITION. Cross-lane instructions (major 0x23, R246, R247) and the pairwise tree of R106. -/

namespace Sys2Proof.Machine

/-- Lanes of va by position, into the lanes of E; lane `i` reads `f i`, or 0 (R246). -/
def permute (d a : BitVec 5) (k : BitVec 3) (f : Nat → Option Nat) : M Unit := do
  let x ← readV a
  soundK k
  let t ← getMe
  writeV d (t.effective k) (lanes fun i => match f i with | some j => x.getD j 0 | none => 0)

/-- VPERM. -/
def execVperm (d a b : BitVec 5) (k : BitVec 3) (s : State) : Result :=
  run (do let _ ← readV a
          let y ← readV b
          permute d a k fun i => some (laneN y i % 16)) s
/-- QXCH: X, Y and D exchange with the lane whose index differs in bit 0, bit 1, or both. -/
def execQxch (d a : BitVec 5) (p : BitVec 2) (k : BitVec 3) (s : State) : Result :=
  run (permute d a k fun i => some (Nat.xor i (p.toNat + 1))) s
/-- QBCAST. -/
def execQbcast (d a : BitVec 5) (n : BitVec 2) (k : BitVec 3) (s : State) : Result :=
  run (permute d a k fun i => some (4 * (i / 4) + n.toNat)) s
/-- VSHUP. -/
def execVshup (d a : BitVec 5) (n : BitVec 4) (k : BitVec 3) (s : State) : Result :=
  run (permute d a k fun i => if n.toNat ≤ i then some (i - n.toNat) else none) s
/-- VSHDN. -/
def execVshdn (d a : BitVec 5) (n : BitVec 4) (k : BitVec 3) (s : State) : Result :=
  run (permute d a k fun i => if i + n.toNat ≤ 15 then some (i + n.toNat) else none) s

/-! ### Reductions and scans (R106, R247) -/

/-- A node of the tree: two children combine, one passes on unchanged. -/
def joinNode (f : Nat → Nat → Nat × Flags) (x y : Option (Nat × Flags)) : Option (Nat × Flags) :=
  match x, y with
  | some a, some b => let r := f a.1 b.1
    some (r.1, a.2 ||| b.2 ||| r.2)
  | some a, none => some a
  | none, y => y

/-- The next level of the tree. -/
def nextLevel (f : Nat → Nat → Nat × Flags) (l : List (Option (Nat × Flags))) : List (Option (Nat × Flags)) :=
  match l with
  | x :: y :: r => joinNode f x y :: nextLevel f r
  | r => r

/-- The root of the tree over 16 lanes. -/
def treeSum (f : Nat → Nat → Nat × Flags) (l : List (Option (Nat × Flags))) : Option (Nat × Flags) :=
  (nextLevel f (nextLevel f (nextLevel f (nextLevel f l)))).headD none

/-- The contributing lanes, those of E_L. -/
def contribute (live : W16) (x : List W32) : List (Option (Nat × Flags)) :=
  (upto 0 16).map fun i => if bitAt live i then some (laneN x i, 0) else none

/-- FP32 lanes as they are read: under FTZ a subnormal reads as a zero of its sign, in a sum of one term too (R104). -/
def readFp (ftz : Bool) (x : List W32) : List W32 := x.map fun v => w32 (ftzIn fp32 ftz v.toNat)

/-- A reduction of lanes read by `rd`: one result to every lane of E. -/
def reduce (d a : BitVec 5) (k : BitVec 3) (empty : Nat) (rd : Bool → List W32 → List W32) (f : Rm → Bool → Nat → Nat → Nat × Flags) : M Unit := do
  let x ← readV a
  soundK k
  let t ← getMe
  let r := (treeSum (f t.rm t.ftz) (contribute (t.liveLanes k) (rd t.ftz x))).getD (empty, 0)
  writeV d (t.effective k) (lanes fun _ => w32 r.1)
  raiseM r.2

/-- The prefixes of a scan: lane by lane, one addition at a time. -/
def prefixes (f : Nat → Nat → Nat × Flags) (acc : Option (Nat × Flags)) (l : List (Option (Nat × Flags))) : List (Option (Nat × Flags)) :=
  match l with
  | [] => []
  | x :: r => let a := joinNode f acc x
    a :: prefixes f a r

/-- A scan of lanes read by `rd`: each lane of E takes the prefix of the contributing lanes up to it. -/
def scan (d a : BitVec 5) (k : BitVec 3) (rd : Bool → List W32 → List W32) (f : Rm → Bool → Nat → Nat → Nat × Flags) : M Unit := do
  let x ← readV a
  soundK k
  let t ← getMe
  let l := prefixes (f t.rm t.ftz) none (contribute (t.liveLanes k) (rd t.ftz x))
  writeV d (t.effective k) (lanes fun i => w32 ((l.getD i none).getD (0, 0)).1)
  raiseM ((l.getD 15 none).getD (0, 0)).2

/-- 32-bit addition, as a reduction combines. -/
def iadd (_rm : Rm) (_ftz : Bool) (a b : Nat) : Nat × Flags := ((a + b) % 2 ^ 32, 0)

/-- VRADD. -/
def execVradd (d a : BitVec 5) (k : BitVec 3) (s : State) : Result := run (reduce d a k 0 readFp fadd) s
/-- VRADDI. -/
def execVraddi (d a : BitVec 5) (k : BitVec 3) (s : State) : Result := run (reduce d a k 0 (fun _ x => x) iadd) s
/-- VRMAX. -/
def execVrmax (d a : BitVec 5) (k : BitVec 3) (s : State) : Result := run (reduce d a k 0xFF800000 readFp fun _ z => fpick true z) s
/-- VRMIN. -/
def execVrmin (d a : BitVec 5) (k : BitVec 3) (s : State) : Result := run (reduce d a k 0x7F800000 readFp fun _ z => fpick false z) s
/-- VSCAN. -/
def execVscan (d a : BitVec 5) (k : BitVec 3) (s : State) : Result := run (scan d a k readFp fadd) s
/-- VSCANI. -/
def execVscani (d a : BitVec 5) (k : BitVec 3) (s : State) : Result := run (scan d a k (fun _ x => x) iadd) s

end Sys2Proof.Machine
end

