-- ==== Sys2Proof/Machine/VecMove.lean ====
section
/-! DEFINITION. Moves, votes and mask instructions (major 0x24, R248). -/

namespace Sys2Proof.Machine

/-- VMOV. -/
def execVmov (d a : BitVec 5) (k : BitVec 3) (s : State) : Result := run (vec1 d a k fun x => x) s

/-- VSEL: every lane of A ∪ H, by its predicate bit. -/
def execVsel (d a b : BitVec 5) (k : BitVec 3) (s : State) : Result :=
  run (do let x ← readV a
          let y ← readV b
          soundK k
          let t ← getMe
          let p : W16 := if k = 0 then 0xFFFF else t.mask k
          writeV d (t.act ||| t.hlp) (lanes fun i => if bitAt p i then x.getD i 0 else y.getD i 0)) s

/-- VBCAST; `r` names the scalar. -/
def execVbcast (d : BitVec 5) (r : BitVec 6) (k : BitVec 3) (s : State) : Result :=
  run (do let v ← readS r
          soundK k
          let t ← getMe
          writeV d (t.effective k) (lanes fun _ => v.setWidth 32)) s

/-- VEXT: whatever the masks. -/
def execVext (v : BitVec 5) (d : BitVec 6) (l : BitVec 4) (s : State) : Result :=
  run (do let x ← readV v
          writeS d ((x.getD l.toNat 0).signExtend 64)) s

/-- VINS. -/
def execVins (d : BitVec 5) (r : BitVec 6) (l : BitVec 4) (k : BitVec 3) (s : State) : Result :=
  run (do let v ← readS r
          soundK k
          let t ← getMe
          writeV d (t.effective k &&& BitVec.ofNat 16 (2 ^ l.toNat)) (lanes fun _ => v.setWidth 32)) s

/-- A mask from two masks, all 16 bits. -/
def mask2 (d a b : BitVec 3) (f : W16 → W16 → W16) : M Unit := do
  soundK a
  soundK b
  let t ← getMe
  writeK d (f (t.mask a) (t.mask b))

/-- KAND. -/
def execKand (d a b : BitVec 3) (s : State) : Result := run (mask2 d a b fun x y => x &&& y) s
/-- KOR. -/
def execKor (d a b : BitVec 3) (s : State) : Result := run (mask2 d a b fun x y => x ||| y) s
/-- KXOR. -/
def execKxor (d a b : BitVec 3) (s : State) : Result := run (mask2 d a b fun x y => x ^^^ y) s
/-- KNOT. -/
def execKnot (d a : BitVec 3) (s : State) : Result := run (mask2 d a a fun x _ => ~~~ x) s
/-- KMOV. -/
def execKmov (d a : BitVec 3) (s : State) : Result := run (mask2 d a a fun x _ => x) s

/-- The lowest set bit alone. -/
def lowestBit (x : W16) : W16 := if x = 0 then 0 else BitVec.ofNat 16 (2 ^ lowBit x.toNat 0 16)

/-- ELECT. -/
def execElect (d a : BitVec 3) (s : State) : Result :=
  run (do soundK a
          let t ← getMe
          writeK d (lowestBit (t.mask a &&& t.act))) s

/-- A scalar from a mask and the active mask. -/
def voteM (a : BitVec 3) (d : BitVec 6) (f : W16 → W16 → W64) : M Unit := do
  soundK a
  let t ← getMe
  writeS d (f (t.mask a) t.act)

/-- KTOS. -/
def execKtos (a : BitVec 3) (d : BitVec 6) (s : State) : Result := run (voteM a d fun x _ => w64 x.toNat) s
/-- STOK; `r` names the scalar. -/
def execStok (d : BitVec 3) (r : BitVec 6) (s : State) : Result :=
  run (do let v ← readS r
          writeK d (v.setWidth 16)) s
/-- VANY. -/
def execVany (a : BitVec 3) (d : BitVec 6) (s : State) : Result := run (voteM a d fun x y => if x &&& y ≠ 0 then 1 else 0) s
/-- VALL. -/
def execVall (a : BitVec 3) (d : BitVec 6) (s : State) : Result := run (voteM a d fun x y => if x &&& y = y then 1 else 0) s
/-- KPOPC. -/
def execKpopc (a : BitVec 3) (d : BitVec 6) (s : State) : Result := run (voteM a d fun x y => w64 (popBits (x &&& y).toNat 16)) s

end Sys2Proof.Machine
end

