-- ==== Sys2Proof/Machine/VecMem.lean ====
section
/-! DEFINITION. Vector memory instructions (majors 0x25 to 0x27, R249 to R252): every lane address is checked before any
element is sent; each lane's element is an access of its own. -/

namespace Sys2Proof.Machine

/-- L(an, i) (R205, R249). -/
def laneAddr (t : Slot) (n : BitVec 4) (i : Nat) : W64 := (t.aff n).1 + w64 i * strideOf (t.aff n).2

/-- The addresses of VLD and VST (R249). -/
def offsetAddr (t : Slot) (n : BitVec 4) (imm : BitVec 14) (i : Nat) : W64 := laneAddr t n i + 4 * imm.signExtend 64

/-- The addresses of VLDX and VSTX, with the index in units of `scale` bytes (R249). -/
def indexAddr (t : Slot) (n : BitVec 4) (x : List W32) (scale : Nat) (i : Nat) : W64 :=
  laneAddr t n i + w64 scale * (x.getD i 0).signExtend 64

/-- The check of one lane (R250): a helper lane that fails drops out, another lane traps with its index. -/
def checkLane (a : Acc) (addr : Nat → W64) (hlp : W16) (i : Nat) : M (Option Loc) := fun s =>
  match resolveM (addr i) 4 a i s with
  | .ok (l, s) => .ok (some l, s)
  | .error (.trap c va st) => if bitAt hlp i then .ok (none, s) else .error (.trap c va st)
  | .error e => .error e

/-- The checks of some lanes, in the order given. -/
def checkLanes (a : Acc) (addr : Nat → W64) (hlp : W16) (l : List Nat) : M (List (Nat × Option Loc)) :=
  match l with
  | [] => pure []
  | i :: r => do
    let x ← checkLane a addr hlp i
    let y ← checkLanes a addr hlp r
    pure ((i, x) :: y)

/-- The lanes of a mask, ascending. -/
def lanesOf (m : W16) : List Nat := (upto 0 16).filter fun i => bitAt m i

/-- The same for lane `i` of v[d] (R397). -/
def laneInput (va : W64) (id d i : Nat) : M Bool := do
  match ← returnInput va id with
  | none => pure true
  | some l =>
    modMe fun t => { t with vr := put t.vr (16 * d + i) (w32 (l.headD 0).toNat) }
    pure false

/-- Sends the read of one lane; `seq` marks the lanes of one instruction (R152). -/
def sendLane (addr : Nat → W64) (d seq : Nat) (x : Nat × Option Loc) : M Unit := do
  match x.2 with
  | none => modMe fun t => { t with vr := put t.vr (16 * d + x.1) 0 }
  | some l =>
    let id ← askM State.nextId
    let go ← laneInput (addr x.1) id d x.1
    if go then
      let _ ← launch (addr x.1) l 4 (.vld d x.1) false
      doM fun s => { s with flights := s.flights.map fun f => if f.id = id then { f with seq := seq } else f }
      modMe fun t => { t with vFull := setBit t.vFull d false, vAwait := setBit t.vAwait d true }
    else pure ()

/-- Sends the reads of some lanes, in order. -/
def sendLanes (addr : Nat → W64) (d seq : Nat) (l : List (Nat × Option Loc)) : M Unit :=
  match l with
  | [] => pure ()
  | x :: r => do
    sendLane addr d seq x
    sendLanes addr d seq r

/-- A vector load (R250): vd awaits every lane's element. -/
def vloadM (d : BitVec 5) (k : BitVec 3) (addr : Nat → W64) : M Unit := do
  freeV d.toNat
  soundK k
  let t ← getMe
  let e := t.effective k
  let l ← checkLanes .load addr t.hlp (lanesOf e)
  afterAcquires
  roomForLoad
  let seq ← askM State.nextId
  modMe fun t => { t with vFull := setBit t.vFull d.toNat true,
                          vPoison := if e = 0xFFFF then setBit t.vPoison d.toNat false else t.vPoison,
                          vErr := if e = 0xFFFF then t.vErr.filter fun g => g / 8 != d.toNat else t.vErr }
  sendLanes addr d.toNat seq l

/-- Sends the stores of some lanes, in order. -/
def storeLanes (addr : Nat → W64) (x : List W32) (l : List (Nat × Option Loc)) : M Unit :=
  match l with
  | [] => pure ()
  | (i, some p) :: r => do
    let _ ← launch (addr i) p 4 (.st (w64 (x.getD i 0).toNat)) false
    storeLanes addr x r
  | (_, none) :: r => storeLanes addr x r

/-- A vector store (R250): the lanes of E are checked, those of E_L are written. -/
def vstoreM (b : BitVec 5) (k : BitVec 3) (addr : Nat → W64) : M Unit := do
  let x ← readV b
  soundK k
  let t ← getMe
  let l ← checkLanes .store addr t.hlp (lanesOf (t.effective k))
  afterAcquires
  storeLanes addr x (l.filter fun p => bitAt (t.liveLanes k) p.1)

/-- VLD. -/
def execVld (d : BitVec 5) (a : BitVec 4) (k : BitVec 3) (i : BitVec 14) (s : State) : Result :=
  run (do soundA a
          let t ← getMe
          vloadM d k (offsetAddr t a i)) s
/-- VST; `d` names the data register. -/
def execVst (d : BitVec 5) (a : BitVec 4) (k : BitVec 3) (i : BitVec 14) (s : State) : Result :=
  run (do soundA a
          let t ← getMe
          vstoreM d k (offsetAddr t a i)) s
/-- VLDX. -/
def execVldx (d i : BitVec 5) (n : BitVec 4) (k : BitVec 3) (s : State) : Result :=
  run (do let x ← readV i
          soundA n
          let t ← getMe
          vloadM d k (indexAddr t n x 1)) s
/-- VSTX. -/
def execVstx (d i : BitVec 5) (n : BitVec 4) (k : BitVec 3) (s : State) : Result :=
  run (do let x ← readV i
          soundA n
          let t ← getMe
          vstoreM d k (indexAddr t n x 1)) s
/-- VLDX.W. -/
def execVldxW (d i : BitVec 5) (n : BitVec 4) (k : BitVec 3) (s : State) : Result :=
  run (do let x ← readV i
          soundA n
          let t ← getMe
          vloadM d k (indexAddr t n x 4)) s
/-- VSTX.W. -/
def execVstxW (d i : BitVec 5) (n : BitVec 4) (k : BitVec 3) (s : State) : Result :=
  run (do let x ← readV i
          soundA n
          let t ← getMe
          vstoreM d k (indexAddr t n x 4)) s

end Sys2Proof.Machine
end

