-- ==== Sys2Proof/Machine/Engine.lean ====
section
/-! DEFINITION. What the engines of a core share (R68, R255, R261): addresses through the local windows, checked byte by
byte; the collective test; an engine command of a pair. -/

namespace Sys2Proof.Machine

/-- One byte through the local windows (R62 to R66, R261): a place and its polder slot, or TRANS (4), PERM (5) or POLDER_REVOKED (7).
DESIGN CHOICE: an engine's address with bits [63:57] set, which R62 names and which the lists of R261 and R275 do not, takes TRANS,
before the checks of the windows (log entry 47). -/
def State.engineByte (s : State) (x : Ctx) (v : Nat) : Except Nat (Nat × Option Nat) :=
  if 2 ^ 57 ≤ v then .error 4
  else if v < 0x80000 then
    match s.bankOf x.core x.task (v / 4096) with
    | some b => .ok (scratchAddr x.core (b * 4096 + v % 4096), none)
    | none => .error 5
  else if 0x400000 ≤ v ∧ v < 0x800000 then
    if !x.privS && decide ((s.core x.core).colwin * 65536 ≤ v - 0x400000) then .error 5
    else .ok (columnAddr x.core (v - 0x400000), none)
  else if 0x10000000 ≤ v ∧ v < 0x12000000 then
    let i := v / 2 ^ 19 % 64
    match find (s.core x.core).pwin (x.task * 64 + i) with
    | none => .error 7
    | some (c, h) =>
      match s.bankOf c h (v % 2 ^ 19 / 4096) with
      | some b => .ok (scratchAddr c (b * 4096 + v % 4096), some i)
      | none => .error 5
  else .error 5

/-- Cuts `n` bytes from address `va`, byte `off` of a row on, into runs inside 64-byte lines; every byte of a line passes or
fails the windows together. -/
def cutRow (va n off : Nat) (fuel : Nat) : List (Nat × Nat × Nat) :=
  match fuel with
  | 0 => []
  | k + 1 =>
    if n = 0 then [] else
    let m := Nat.min n (64 - va % 64)
    (off, m, va) :: cutRow ((va + m) % 2 ^ 64) (n - m) (off + m) k

/-- The rows of a transfer: `rows` rows of `n` bytes from `a`, `st` apart (R261). -/
def rowAddrs (a st : W64) (rows : Nat) : List (Nat × Nat) := (upto 0 rows).map fun r => (r, (a + w64 r * st).toNat)

/-- The checks of R62 and R261 but alignment, over every byte of the rows: the cause and the lowest address that fails the first
failing check, or the pieces. -/
def State.engineRows (s : State) (x : Ctx) (rows : List (Nat × Nat)) (n : Nat) : Except (Nat × Nat) (List Piece) :=
  let cuts := rows.flatMap fun r => (cutRow r.2 n 0 (n / 64 + 2)).map fun c => (r.1, c)
  let bad (cause : Nat) : List Nat := cuts.filterMap fun c => match s.engineByte x c.2.2.2 with
    | .error e => if e = cause then some c.2.2.2 else none
    | .ok _ => none
  match bad 4, bad 5, bad 7 with
  | v :: r, _, _ => .error (4, leastOr v r)
  | [], v :: r, _ => .error (5, leastOr v r)
  | [], [], v :: r => .error (7, leastOr v r)
  | [], [], [] => .ok (cuts.filterMap fun c => match s.engineByte x c.2.2.2 with
    | .ok p => some { row := c.1, off := c.2.1, len := c.2.2.1, va := c.2.2.2, pa := p.1, polder := p.2 }
    | .error _ => none)

/-- ESTAT of a failed engine address (R379): a window fails with detail 1. -/
def engineStat (cause : Nat) : W64 := if cause = 5 then 0x100 else 0

/-- The checks of R261 on the rows of a matrix command. -/
def engineRowsM (a st : W64) (rows n : Nat) : M (List Piece) := fun s =>
  let l := rowAddrs a st rows
  if a.toNat % 8 ≠ 0 ∨ st.toNat % 8 ≠ 0 then
    let bad := (l.map Prod.snd).filter fun v => v % 8 != 0
    .error (.trap 3 (w64 (match bad with | [] => a.toNat | v :: r => leastOr v r)) 0)
  else
    match s.engineRows s.myCtx l n with
    | .ok p => .ok (p, s)
    | .error (cause, v) => .error (.trap cause (w64 v) (engineStat cause))

/-- A collective command needs every lane active (R255). -/
def collective : M Unit := fun s => if s.me.act = 0xFFFF then .ok ((), s) else .error (.trap 9 0 (w64 s.me.act.toNat))

/-- The context of a slot's accesses. -/
def State.ctxOf (s : State) (c k : Nat) : Ctx :=
  let t := s.slot c k
  { core := c, task := t.task, root := t.ptroot, asp := t.aspace.toNat, privS := t.privS }

/-- An access that an engine makes for a thread (R184). -/
def State.engineFlight (s : State) (id c slot tid task : Nat) (p : Piece) (op : FOp) : Flight :=
  { id := id, core := c, slot := slot, tid := tid, task := task, va := w64 p.va, pa := p.pa, size := p.len, op := op,
    topinf := (s.core c).topinf, privS := (s.slot c slot).privS, seq := id, polder := p.polder }

/-- Counts an access of an engine that leaves its core: a remote load or store (R408). -/
def State.countSent (s : State) (c pa : Nat) (load : Bool) : State :=
  if s.homeOf pa = some c then s else s.countIn c (if load then 21 else 22) none 1

/-- Sends accesses of an engine, in order: the state and their ids. -/
def State.engineSend (s : State) (c slot tid task : Nat) (l : List (Piece × FOp)) : State × List Nat :=
  l.foldl (fun (s, ids) x =>
    ({ s.countSent c x.1.pa x.2.rw.1 with
        flights := s.flights ++ [s.engineFlight s.nextId c slot tid task x.1 x.2], nextId := s.nextId + 1 }, ids ++ [s.nextId])) (s, [])

/-- An engine of core `c` may read pieces at one home for a thread's command `id` now: their lines present, the home taking
arrivals, the thread's earlier accesses there performed (R184, R290, R412). -/
def State.pieceReady (s : State) (c tid id : Nat) (l : List Piece) : Bool :=
  l.all fun p => s.present p.pa && s.homeTakes c p.pa (some id) && !s.pendingAt tid p.pa
/-- A piece holds poison. -/
def State.piecePoison (s : State) (l : List Piece) : Bool := l.any fun p => s.poisoned p.pa p.len
/-- The reads at their home: errors are found there, and one arrival and one remote load are counted (R184, R399, R408). -/
def State.pieceCorrect (s : State) (c id : Nat) (l : List Piece) : State :=
  match l with
  | [] => s
  | p :: _ => l.foldl (fun s p => s.correct p.pa p.len) ((s.takeAt c p.pa id).countSent c p.pa true)
/-- The value of a piece. -/
def State.pieceNat (s : State) (p : Piece) : Nat := s.loadN p.pa p.len

/-- The load-value queue entry of an engine result: what the leading thread received (R397). -/
def engineKey : W64 := w64 (2 ^ 60 + 64)

/-- A result of an engine, for the trailing thread of a pair, at the place that the command reserved. -/
def Slot.lvPush (t : Slot) (l : List W64) : Slot :=
  match t.role with
  | .leading _ => { t with lvq := lvSettle t.lvq engineKey l }
  | _ => t

/-- A trailing thread takes an engine's result from the queue (R397). -/
def engineInput : M (List W64) := fun s =>
  match s.me.role with
  | .trailing j => nextInput j engineKey s
  | _ => .ok ([], s)

end Sys2Proof.Machine
end

