-- ==== Sys2Proof/Machine/PatternBase.lean ====
section
/-! DEFINITION. Patterns (R276 to R287): pattern words, what a pattern keeps, its counts and ranks, the checks of R282. -/

namespace Sys2Proof.Machine

/-- A pattern; PBLK and PKRON carry the index of their word. -/
inductive Pat where
  | band (lo hi : Int) (num den : Nat)
  | dil (stride phase : Nat)
  | blkd (br bc : Nat)
  | hash (seed keep : Nat)
  | list (period : Nat) (offs : List Nat)
  | and (a b : Pat)
  | or (a b : Pat)
  | shift (dr dc : Int) (a : Pat)
  | blk (idx g : Nat) (a : Pat)
  | kron (idx : Nat) (lower upper : Pat)
  deriving DecidableEq, Repr

/-- The hash of R281. -/
def patHash (seed r c : Nat) : Nat :=
  let m := 2 ^ 32
  let x := seed * 0x9E3779B1 % m
  let x := Nat.xor x ((r + c * 2 ^ 16) % m)
  let x := x * 0x6A5D39E9 % m
  let x := Nat.xor x (x / 2 ^ 15)
  let x := x * 0x2C1B3C6D % m
  Nat.xor x (x / 2 ^ 13)

/-- Whether a pattern keeps a coordinate of its local domain (R280); `ir` and `ic` are the Kronecker inner extent. -/
def Pat.keeps (ir ic : Nat) (p : Pat) (rl cl r c : Nat) : Bool :=
  match p with
  | .band lo hi num den =>
    let d : Int := (r * num / den : Nat)
    decide (d + lo ≤ (c : Int)) && decide ((c : Int) ≤ d + hi)
  | .dil stride phase => c % stride == phase
  | .blkd br bc => r / br == c / bc
  | .hash seed keep => decide (patHash seed r c % 256 < keep)
  | .list period offs => offs.contains (c % period)
  | .and a b => a.keeps ir ic rl cl r c && b.keeps ir ic rl cl r c
  | .or a b => a.keeps ir ic rl cl r c || b.keeps ir ic rl cl r c
  | .shift dr dc a => a.keeps ir ic rl cl (((r : Int) - dr) % (rl : Int)).toNat (((c : Int) - dc) % (cl : Int)).toNat
  | .blk _ g a => a.keeps ir ic rl (cl / g) r (c / g)
  | .kron _ lo up => lo.keeps ir ic (rl / ir) (cl / ic) (r / ir) (c / ic) && up.keeps ir ic ir ic (r % ir) (c % ic)

/-- Whether a sub-pattern is invertible (R283). -/
def Pat.inv (p : Pat) : Bool :=
  match p with
  | .band .. => true
  | .dil .. => true
  | .blkd .. => true
  | .hash .. => false
  | .list .. => false
  | .or .. => false
  | .and (.band ..) (.dil ..) => true
  | .and (.dil ..) (.band ..) => true
  | .and .. => false
  | .shift _ _ a => a.inv
  | .blk _ _ a => a.inv
  | .kron _ a b => a.inv && b.inv

/-- The words whose domain fails the second pass (R282). -/
def Pat.domainFails (ir ic : Nat) (p : Pat) (rl cl : Nat) : List Nat :=
  match p with
  | .and a b => a.domainFails ir ic rl cl ++ b.domainFails ir ic rl cl
  | .or a b => a.domainFails ir ic rl cl ++ b.domainFails ir ic rl cl
  | .shift _ _ a => a.domainFails ir ic rl cl
  | .blk i g a => (if cl % g ≠ 0 then [i] else []) ++ a.domainFails ir ic rl (cl / g)
  | .kron i a b =>
    (if ir = 0 ∨ ic = 0 ∨ rl % ir ≠ 0 ∨ cl % ic ≠ 0 then [i] else []) ++ a.domainFails ir ic (rl / ir) (cl / ic)
      ++ b.domainFails ir ic ir ic
  | _ => []

/-! ### Pattern words (R278, R279, R282) -/

/-- An entry of the generator's stack: sub-pattern, first and last word, opcode of its top instruction (R288). -/
structure PEnt where
  p : Pat
  first : Nat
  last : Nat
  op : Nat
  deriving DecidableEq, Repr

/-- Bits `lo` to `lo + n - 1` of a number. -/
def nbits (w lo n : Nat) : Nat := w / 2 ^ lo % 2 ^ n

/-- Codes 1 to 3 of R282 for one word, or 0. -/
def patWordCode (w : Nat) : Nat :=
  match nbits w 26 6 with
  | 1 => if toSigned 8 (nbits w 18 8) ≤ toSigned 8 (nbits w 10 8) ∧ nbits w 0 5 ≠ 0 then 0 else 3
  | 2 => if nbits w 24 2 ≠ 0 then 2 else if nbits w 0 12 < nbits w 12 12 then 0 else 3
  | 3 => if nbits w 13 13 ≠ 0 ∧ nbits w 0 13 ≠ 0 then 0 else 3
  | 4 => if nbits w 0 26 ≠ 0 then 2 else 0
  | 5 => if nbits w 16 1 ≠ 0 then 2 else if nbits w 17 9 ≤ 256 then 0 else 3
  | 6 => if nbits w 0 26 ≠ 0 then 2 else 0
  | 7 => if nbits w 0 26 ≠ 0 then 2 else 0
  | 8 => 0
  | 9 => if nbits w 2 24 ≠ 0 then 2 else 0
  | 10 => if nbits w 0 15 ≠ 0 then 2 else if nbits w 18 8 ≠ 0 then 0 else 3
  | 11 => if nbits w 0 26 ≠ 0 then 2 else 0
  | _ => 1

/-- Offset `j` of a PLIST at word `i`. -/
def listOffset (words : List Nat) (i j : Nat) : Nat := nbits (words.getD (i + 1 + j / 4) 0) (8 * (j % 4)) 8

/-- The first data word of a PLIST with a nonzero unused byte (code 2), or with an offset out of order or not below the
period (code 3). -/
def listFail (words : List Nat) (i period n : Nat) : Option (Nat × Nat) :=
  ((upto 0 (4 * ((n + 3) / 4))).filterMap fun j =>
    let o := listOffset words i j
    if n ≤ j then (if o ≠ 0 then some (2, i + 1 + j / 4) else none)
    else if period ≤ o ∨ (j ≠ 0 ∧ o ≤ listOffset words i (j - 1)) then some (3, i + 1 + j / 4) else none).head?

/-- The first pass of R282 from word `i` with a stack, its top first: the program's entry and length, or code and word.
With `plen`, PEND must stand at word `plen - 1` (R296).  DESIGN CHOICE: the last word of entry 0 is the word of the top instruction
before PEND (R288, log entry 70). -/
def patScan (words : List Nat) (plen : Option Nat) (fuel i : Nat) (stk : List PEnt) : Except (Nat × Nat) (PEnt × Nat) :=
  match fuel with
  | 0 => .error (6, 31)
  | k + 1 =>
    if 32 ≤ i then .error (6, 31) else
    let w := words.getD i 0
    let op := nbits w 26 6
    let go (stk : List PEnt) (j : Nat) : Except (Nat × Nat) (PEnt × Nat) :=
      match plen with
      | some n => if n ≤ j then .error (10, n - 1) else patScan words plen k j stk
      | none => patScan words plen k j stk
    let push (p : Pat) (l : Nat) : Except (Nat × Nat) (PEnt × Nat) :=
      if 4 ≤ stk.length then .error (5, i) else go (⟨p, i, l, op⟩ :: stk) (l + 1)
    let onTop (f : Pat → Pat) : Except (Nat × Nat) (PEnt × Nat) :=
      match stk with
      | a :: r => go (⟨f a.p, a.first, i, op⟩ :: r) (i + 1)
      | [] => .error (4, i)
    let both (f : Pat → Pat → Pat) : Except (Nat × Nat) (PEnt × Nat) :=
      match stk with
      | b :: a :: r => go (⟨f a.p b.p, a.first, i, op⟩ :: r) (i + 1)
      | _ => .error (4, i)
    if patWordCode w ≠ 0 then .error (patWordCode w, i) else
    match op with
    | 1 => push (.band (toSigned 8 (nbits w 18 8)) (toSigned 8 (nbits w 10 8)) (nbits w 5 5) (nbits w 0 5)) i
    | 2 => push (.dil (nbits w 12 12) (nbits w 0 12)) i
    | 3 => push (.blkd (nbits w 13 13) (nbits w 0 13)) i
    | 4 => both (.kron i)
    | 5 => push (.hash (nbits w 0 16) (nbits w 17 9)) i
    | 6 => both .and
    | 7 => both .or
    | 8 => onTop (.shift (toSigned 13 (nbits w 13 13)) (toSigned 13 (nbits w 0 13)))
    | 9 => onTop (.blk i (2 ^ nbits w 0 2))
    | 10 =>
      let n := nbits w 15 3 + 1
      let nd := (n + 3) / 4
      if 4 ≤ stk.length then .error (5, i)
      else if decide (31 < i + nd) && plen.isNone then .error (6, i)
      else if (match plen with | some m => decide (m ≤ i + nd) | none => false) then .error (10, plen.getD 1 - 1)
      else match listFail words i (nbits w 18 8) n with
        | some e => .error e
        | none => push (.list (nbits w 18 8) ((upto 0 n).map (listOffset words i))) (i + nd)
    | _ =>
      match plen with
      | some n => if i + 1 ≠ n then .error (10, i) else
        match stk with
        | [a] => .ok (a, i + 1)
        | _ => .error (7, i)
      | none =>
        match stk with
        | [a] => .ok (a, i + 1)
        | _ => .error (7, i)

/-- Both passes of R282 over the words of a program and its domain: the entry and the length, or code and word. -/
def patLoad (words : List Nat) (plen : Option Nat) (dims : W64) : Except (Nat × Nat) (PEnt × Nat) :=
  match patScan words plen 33 0 [] with
  | .error e => .error e
  | .ok (e, n) =>
    let r := fieldN dims 0 16
    let c := fieldN dims 16 16
    if r = 0 ∨ c = 0 then .error (8, n - 1) else
    match e.p.domainFails (fieldN dims 32 16) (fieldN dims 48 16) r c with
    | [] => .ok (e, n)
    | a :: l => .error (8, leastOr a l)

/-! ### A loaded slot: keeping and ranking (R276, R284 to R286) -/

/-- A slot's program with its domain. -/
structure Prog where
  p : Pat
  r : Nat
  c : Nat
  ir : Nat
  ic : Nat
  deriving DecidableEq, Repr

/-- The stack entry that describes a slot's whole program (R288). -/
def PSlot.entry (s : PSlot) : Option PEnt :=
  if s.code.isEmpty then none else
  match patScan (s.code.map BitVec.toNat) none 33 0 [] with
  | .ok (e, _) => some e
  | .error _ => none

/-- The pattern of a slot; none for an empty one. -/
def PSlot.prog (s : PSlot) : Option Prog := s.entry.map fun e => { p := e.p, r := s.r, c := s.c, ir := s.ir, ic := s.ic }

/-- Whether the pattern keeps a coordinate (R276). -/
def Prog.keep (g : Prog) (r c : Nat) : Bool := decide (r < g.r) && decide (c < g.c) && g.p.keeps g.ir g.ic g.r g.c r c

/-- Kept coordinates of row `r` with column from `c0` and below `c1`: P(r, c1) - P(r, c0) of R284. -/
def Prog.inRow (g : Prog) (r c0 c1 : Nat) : Nat := ((upto c0 (c1 - c0)).filter (g.keep r)).length

/-- Kept coordinates of the rows from `r0` and below `r1`, in those columns: differences of Q of R284. -/
def Prog.inRows (g : Prog) (r0 r1 c0 c1 : Nat) : Nat := (upto r0 (r1 - r0)).foldl (fun n r => n + g.inRow r c0 c1) 0

/-- T, the number of kept coordinates (R276). -/
def Prog.total (g : Prog) : Nat := g.inRows 0 g.r 0 g.c

/-- The window rank of a coordinate in the window that starts at (row0, col0) and ends below column `c1` (R284). -/
def Prog.wrank (g : Prog) (row0 col0 c1 r c : Nat) : Nat := g.inRows row0 r col0 c1 + g.inRow r col0 c

/-- The window rank through a registered table (R286), modulo 2^32 as its words are. -/
def Prog.tabRank (g : Prog) (tab : Nat → Nat) (row0 col0 r c : Nat) : Nat :=
  (tab r + 2 ^ 32 - tab row0 % 2 ^ 32 + g.inRow r col0 c) % 2 ^ 32

/-- `require_rank` of R295: ESTAT of NONINV, if the columns' ranks are not to be had. -/
def PSlot.rankFail (s : PSlot) (col0 w : Nat) : Option Nat :=
  if s.inv then none
  else if s.tab ∧ s.tc0 = col0 ∧ s.tw = w then none
  else some (if s.tab then 2 else 1)

/-- The first kept coordinate at or after a place in forward order (R292). -/
def Prog.nextForward (g : Prog) (row col : Nat) : Option (Nat × Nat) :=
  (upto row (g.r - row)).findSome? fun r =>
    ((upto (if r = row then col else 0) (g.c - (if r = row then col else 0))).find? fun c => g.keep r c).map fun c => (r, c)

/-- The first kept coordinate at or after a place in transposed order (R292). -/
def Prog.nextTransposed (g : Prog) (row col : Nat) : Option (Nat × Nat) :=
  (upto col (g.c - col)).findSome? fun c =>
    ((upto (if c = col then row else 0) (g.r - (if c = col then row else 0))).find? fun r => g.keep r c).map fun r => (r, c)

/-- The pattern slot of a task by its window index: its physical number (R277). -/
def State.patSlot (s : State) (c h p : Nat) : Option Nat := (s.taskOf c h).accs[p]?

end Sys2Proof.Machine
end

