-- ==== Sys2Proof/Machine/Pattern.lean ====
section
/-! DEFINITION. The pattern generator (major 0x28, eng 2, R287 to R296): commands queue in a core's issue order; the thread
waits; each command is one step towards its slot. -/

namespace Sys2Proof.Machine

/-- How the generator's work on a command goes on: it waits for a read; it traps; it is done, with the vectors or the value that it
writes; its reads, or its writes, come first. -/
inductive PgEnd where
  | wait (l : List Piece)
  | trap (cause : Nat) (addr stat : W64)
  | done (s : State) (vals : List W64)
  | reads (l : List Piece)
  | writes (l : List (Piece × FOp))

/-- PATTERN with a code and a word, 0 where the code names none (R282, log entry 70). -/
def patTrap (addr : W64) (code idx : Nat) : PgEnd := .trap 0x0C addr (w64 (code + idx * 256))

/-- Sets a slot. -/
def State.setPSlot (s : State) (c n : Nat) (p : PSlot) : State := s.modCore c fun x => { x with pslots := put x.pslots n p }

/-- The registers of a freshly loaded slot (R291). -/
def PSlot.loaded (words : List Nat) (e : PEnt) (n : Nat) (dims : W64) : PSlot :=
  let p : PSlot := { code := (words.take n).map fun w => w32 w, inv := e.p.inv, tv := e.p.inv,
                     r := fieldN dims 0 16, c := fieldN dims 16 16, ir := fieldN dims 32 16, ic := fieldN dims 48 16 }
  if e.p.inv then { p with t := ({ p := e.p, r := p.r, c := p.c, ir := p.ir, ic := p.ic } : Prog).total } else p

/-- Where PSLD stands in the words that it has read: the index of the next word, how many words of a PLIST's data are still to
skip, and whether it has met PEND. -/
def psldAt (l : List Nat) (i skip : Nat) : Nat × Nat × Bool :=
  match l with
  | [] => (i, skip, false)
  | w :: r =>
    if skip ≠ 0 then psldAt r (i + 1) (skip - 1)
    else if nbits w 26 6 = 11 then (i + 1, 0, true)
    else psldAt r (i + 1) (if nbits w 26 6 = 10 then (nbits w 15 3 + 4) / 4 else 0)

/-- The words from index `i` on that PSLD reads at one home, at one point: up to PEND, or to a word at another home, or to one whose
address fails; it waits while a word cannot be read yet (R184, R291). -/
def State.psldHome (s : State) (x : Ctx) (q : PgCmd) (h : Option Nat) (fuel i skip : Nat) : Except PgEnd (List Piece) :=
  match fuel with
  | 0 => .ok []
  | k + 1 =>
    let v := (q.op1 + w64 (4 * i)).toNat
    match s.engineByte x v with
    | .error _ => .ok []
    | .ok (pa, pol) =>
      let p : Piece := { row := i, off := 0, len := 4, va := v, pa := pa, polder := pol }
      if s.homeOf pa ≠ h then .ok []
      else if !s.pieceReady x.core q.tid q.id [p] then .error (.wait [p])
      else
        let z := psldAt [s.pieceNat p] i skip
        if z.2.2 then .ok [p] else
        match s.psldHome x q h k z.1 z.2.1 with
        | .error e => .error e
        | .ok l => .ok (p :: l)

/-- PSLD (R291): its words at one home after the other, then the slot. -/
def State.psld (s : State) (c n : Nat) (x : Ctx) (q : PgCmd) : PgEnd :=
  if q.op1.toNat % 4 ≠ 0 then .trap 3 q.op1 0 else
  let words := q.words.map Prod.snd
  let z := psldAt words 0 0
  if z.2.2 ∨ 32 ≤ z.1 then
    match patLoad words none q.op2 with
    | .error (8, i) => patTrap 0 8 i
    | .error (code, i) => patTrap (q.op1 + w64 (4 * i)) code i
    | .ok (e, m) =>
      let p := look {} (s.core c).pslots n
      .done (s.setPSlot c n { PSlot.loaded words e m q.op2 with tc0 := p.tc0, tw := p.tw, addr := p.addr }) []
  else
    let v := (q.op1 + w64 (4 * z.1)).toNat
    match s.engineByte x v with
    | .error e => .trap e (w64 v) (engineStat e)
    | .ok p =>
      match s.psldHome x q (s.homeOf p.1) (32 - z.1) z.1 z.2.1 with
      | .error e => e
      | .ok l => .reads l

/-- The places of a registered table's words (R286, R295): the check over all R of them. -/
def State.tableRows (s : State) (x : Ctx) (p : PSlot) : Except (Nat × Nat) (List Piece) :=
  s.engineRows x ((upto 0 p.r).map fun j => (j, (p.addr + w64 (4 * j)).toNat)) 4

/-- The check of R295 on the ranks of columns `[col0, col0 + w)`: a trap, or the places of the table's words (none for an
invertible program). -/
def State.rankCheck (s : State) (x : Ctx) (p : PSlot) (col0 w : Nat) : Except PgEnd (List Piece) :=
  match p.rankFail col0 w with
  | some d => .error (.trap 0x0B 0 (w64 d))
  | none =>
    if p.inv then .ok [] else
    match s.tableRows x p with
    | .error (cause, v) => .error (.trap cause (w64 v) (engineStat cause))
    | .ok l => .ok l

/-- A word that a command has read, by its row (R295). -/
def PgCmd.word (q : PgCmd) (j : Nat) : Nat := look 0 q.words j

/-- The full-domain rank of a kept coordinate, of the table as the command read it (R285, R286, R295). -/
def PgCmd.fullRank (q : PgCmd) (g : Prog) (inv : Bool) (r c : Nat) : Nat :=
  if inv then g.wrank 0 0 g.c r c else g.tabRank q.word 0 0 r c

/-- The table words that ranks of some rows need: those rows' and row 0's. -/
def tabUsed (l : List Piece) (rows : List Nat) : List Piece := if l.isEmpty ∨ rows.isEmpty then [] else ((0 :: rows).eraseDups).filterMap fun r => l[r]?

/-- PSGEN's emission (R292): the slot after, and the coordinates emitted with the number each had in order. -/
def PSlot.emit (g : Prog) (p : PSlot) (n : Nat) : PSlot × List (Nat × Nat × Nat) :=
  match n with
  | 0 => (p, [])
  | k + 1 =>
    if p.done then (p, []) else
    match (if p.mode then g.nextTransposed p.row p.col else g.nextForward p.row p.col) with
    | none => ({ p with done := true, row := if p.mode then 0 else g.r, col := if p.mode then g.c else 0 }, [])
    | some (r, c) =>
      let (row, col) := if p.mode then (if r + 1 < g.r then (r + 1, c) else (0, c + 1)) else (if c + 1 < g.c then (r, c + 1) else (r + 1, 0))
      let u := PSlot.emit g { p with rank := (p.rank + 1) % 2 ^ 32, row := row, col := col } k
      (u.1, (r, c, p.rank) :: u.2)

/-- The 16 lanes of a vector from the emitted values. -/
def emitLanes (l : List Nat) : List W64 := (upto 0 16).map fun i => w64 (l.getD i 0xFFFFFFFF)

/-- PSGEN (R292). -/
def State.psgen (s : State) (c n : Nat) (x : Ctx) (q : PgCmd) : PgEnd :=
  let p := look {} (s.core c).pslots n
  match p.prog with
  | none => patTrap 0 9 0
  | some g =>
    if ¬ (q.op1.toNat ≤ 30 ∧ 1 ≤ q.n ∧ q.n ≤ 16) then .trap 0x16 0 21 else
    match (if q.trans ∧ ¬ q.sent then s.rankCheck x p 0 g.c else .ok []) with
    | .error e => e
    | .ok l =>
      let p0 := if p.mode = q.trans then p else { p with mode := q.trans, row := 0, col := 0, rank := 0, done := false }
      let r := PSlot.emit g p0 q.n
      let used := tabUsed l (r.2.map fun e => e.1)
      if !used.isEmpty then .reads used
      else .done ((s.setPSlot c n { r.1 with last := r.2.length }).countIn c 30 none r.2.length)
        (emitLanes (r.2.map fun e => e.2.1 * 2 ^ 16 + e.1) ++
         emitLanes (r.2.map fun e => if q.trans then q.fullRank g p.inv e.1 e.2.1 else e.2.2))

/-- PRANK (R293): its writes first, then the registration. -/
def State.prank (s : State) (c n : Nat) (x : Ctx) (q : PgCmd) : PgEnd :=
  let p := look {} (s.core c).pslots n
  match p.prog with
  | none => patTrap 0 9 0
  | some g =>
    let tc0 := fieldN q.op2 0 16
    let tw := fieldN q.op2 16 16
    if tw = 0 ∨ g.c < tc0 + tw then .trap 0x16 0 23
    else if q.op1.toNat % 4 ≠ 0 then .trap 3 q.op1 0
    else if q.sent then
      .done (s.setPSlot c n { p with addr := q.op1, tc0 := tc0, tw := tw, tab := true, t := g.total, tv := true }) []
    else
      match s.engineRows x ((upto 0 g.r).map fun j => (j, (q.op1 + w64 (4 * j)).toNat)) 4 with
      | .error (cause, v) => .trap cause (w64 v) (engineStat cause)
      | .ok l => .writes (l.map fun z => (z, .st (w64 (g.inRows 0 z.row tc0 (tc0 + tw)))))

/-- PSCHK (R294). -/
def State.pschk (s : State) (c n : Nat) (x : Ctx) (q : PgCmd) : PgEnd :=
  let p := look {} (s.core c).pslots n
  match p.prog with
  | none => patTrap 0 9 0
  | some g =>
    match (if q.sent then .ok [] else s.rankCheck x p 0 g.c) with
    | .error e => e
    | .ok l =>
      let row := fieldN q.op2 0 16
      let col := fieldN q.op2 16 16
      if g.keep row col then
        let used := tabUsed l [row]
        if !used.isEmpty then .reads used else .done s [w64 (q.fullRank g p.inv row col)]
      else .done s [BitVec.allOnes 64]

/-- The 32 doublewords of a slot's context image (R288). -/
def PSlot.image (p : PSlot) : List W64 :=
  let word (i : Nat) : Nat := match p.code[i]? with | some w => w.toNat | none => 0
  let ent : Nat := match p.entry with
    | some e => e.first + e.last * 2 ^ 5 + e.op * 2 ^ 10 + b2n e.p.inv * 2 ^ 14 + 2 ^ 15
    | none => 0
  let regs := if p.code.isEmpty then [w64 (2 ^ 56), 0, 0, 0, 0]
    else [p.reg 0 + w64 (2 ^ 56), p.reg 1, p.reg 2, p.reg 3, p.reg 4]
  ((upto 0 16).map fun k => w64 (word (2 * k) + word (2 * k + 1) * 2 ^ 32)) ++ regs ++ [w64 ent] ++ List.replicate 10 0

/-- PSSAVE (R296). -/
def State.pssave (s : State) (c n : Nat) (x : Ctx) (q : PgCmd) : PgEnd :=
  if q.sent then .done s []
  else if q.op1.toNat % 64 ≠ 0 then .trap 3 q.op1 0
  else
    match s.engineRows x ((upto 0 32).map fun j => (j, (q.op1 + w64 (8 * j)).toNat)) 8 with
    | .error (cause, v) => .trap cause (w64 v) (engineStat cause)
    | .ok l => .writes (l.map fun z => (z, .st ((look {} (s.core c).pslots n).image.getD z.row 0)))

/-- The slot that an image describes, once its program has loaded (R296). -/
def PSlot.ofImage (words : List Nat) (e : PEnt) (n : Nat) (ctl dims cur cnt tab : W64) : Option PSlot :=
  let p := PSlot.loaded words e n dims
  let hasTab := bitAt ctl 9
  let row := fieldN cur 0 16
  let col := fieldN cur 16 16
  let tc0 := fieldN cnt 32 16
  let tw := fieldN cnt 48 16
  if p.r < row ∨ p.c < col ∨ (hasTab ∧ (tw = 0 ∨ p.c < tc0 + tw)) then none else
  let own := hasTab || !e.p.inv
  some { p with mode := bitAt ctl 0, done := bitAt ctl 1, last := fieldN ctl 24 8, tab := hasTab,
                row := row, col := col, rank := fieldN cur 32 32, tc0 := tc0, tw := tw, addr := tab &&& ~~~ (3 : W64),
                t := if own then fieldN cnt 0 32 else p.t, tv := if own then bitAt ctl 10 else p.tv }

/-- PSREST (R296).  DESIGN CHOICE: EADDR of codes 9 and 10 is 0, and so is ESTAT[15:8] where no word is named (R282, R379, log
entry 70). -/
def State.psrest (s : State) (c n : Nat) (x : Ctx) (q : PgCmd) : PgEnd :=
  if q.op1.toNat % 64 ≠ 0 then .trap 3 q.op1 0 else
  match (if q.sent then .ok [] else s.engineRows x ((upto 0 32).map fun j => (j, (q.op1 + w64 (8 * j)).toNat)) 8) with
  | .error (cause, v) => .trap cause (w64 v) (engineStat cause)
  | .ok l =>
    if !l.isEmpty then .reads l
    else
      let dw (i : Nat) : W64 := w64 (q.word i)
      let words := (upto 0 32).map fun i => fieldN (dw (i / 2)) (32 * (i % 2)) 32
      let plen := fieldN (dw 16) 16 8
      if fieldN (dw 16) 56 8 ≠ 1 then patTrap 0 10 0
      else if plen = 0 then .done (s.setPSlot c n {}) []
      else if 32 < plen then patTrap 0 10 0
      else match patLoad words (some plen) (dw 17) with
        | .error (8, i) => patTrap 0 8 i
        | .error (10, i) => patTrap 0 10 i
        | .error (code, i) => patTrap (q.op1 + w64 (4 * i)) code i
        | .ok (e, m) =>
          match PSlot.ofImage words e m (dw 16) (dw 17) (dw 18) (dw 19) (dw 20) with
          | some p => .done (s.setPSlot c n p) []
          | none => patTrap 0 10 0

/-- The generator's work on a command of core `c`, once its reads have been made. -/
def State.pgRun (s : State) (c : Nat) (q : PgCmd) : PgEnd :=
  match s.patSlot c q.task q.p with
  | none => .trap 0x16 0 20
  | some n =>
    let x := s.ctxOf c q.slot
    match q.kind with
    | .psld => s.psld c n x q
    | .psgen => s.psgen c n x q
    | .prank => s.prank c n x q
    | .pschk => s.pschk c n x q
    | .pssave => s.pssave c n x q
    | .psrest => s.psrest c n x q

/-- What a completed command writes to its thread's registers. -/
def State.pgWrite (s : State) (c : Nat) (q : PgCmd) (vals : List W64) : State :=
  match q.kind with
  | .psgen => s.modSlot c q.slot fun t =>
      (t.putV q.op1.toNat 0xFFFF ((vals.take 16).map fun v => v.setWidth 32)).putV (q.op1.toNat + 1) 0xFFFF ((vals.drop 16).map fun v => v.setWidth 32)
  | .pschk => s.putDest c q.slot q.d (vals.headD 0) false
  | _ => s

/-- The destinations of a command are marked empty as it issues (R201, R214). -/
def PgCmd.marks (q : PgCmd) (t : Slot) : Slot :=
  match q.kind with
  | .psgen => if q.op1.toNat ≤ 30 then { t with vFull := setBit (setBit t.vFull q.op1.toNat false) (q.op1.toNat + 1) false } else t
  | .pschk => if q.d = 0 ∨ t.isPort q.d then t else { t with sFull := setBit t.sFull q.d false }
  | _ => t

/-- Whether the destinations of a command are full. -/
def PgCmd.fullNow (q : PgCmd) (t : Slot) : Bool × Bool :=
  match q.kind with
  | .psgen => (bitAt t.vFull q.op1.toNat, bitAt t.vFull (q.op1.toNat + 1))
  | .pschk => (bitAt t.sFull q.d, false)
  | _ => (false, false)

/-- A command that traps has no effect: a destination that was full before it is full (R290). -/
def PgCmd.unmark (q : PgCmd) (t : Slot) : Slot :=
  match q.kind with
  | .psgen =>
    if q.op1.toNat ≤ 30 then
      { t with vFull := setBit (setBit t.vFull q.op1.toNat (q.full.1 || bitAt t.vFull q.op1.toNat))
                          (q.op1.toNat + 1) (q.full.2 || bitAt t.vFull (q.op1.toNat + 1)) }
    else t
  | .pschk => if q.d = 0 ∨ t.isPort q.d then t else { t with sFull := setBit t.sFull q.d (q.full.1 || bitAt t.sFull q.d) }
  | _ => t

/-- The words that a command has still to read at the home of one of them: the first home that can give them all (R184). -/
def State.pgTurn (s : State) (c : Nat) (q : PgCmd) : List Piece :=
  let at_ (p : Piece) : List Piece := q.reads.filter fun z => s.homeOf z.pa == s.homeOf p.pa
  match q.reads.find? fun p => s.pieceReady c q.tid q.id (at_ p) with
  | some p => at_ p
  | none => []

/-- What a command cannot read yet joins the queue of its frozen home (R412). -/
def State.pgWait (s : State) (c : Nat) (q : PgCmd) (l : List Piece) : State := l.foldl (fun s p => s.arrives c p.pa q.id) s

/-- A command reads words at one home, at one point of the perform order; poison in them ends its thread (R184, R290, R400). -/
def State.pgRead (s : State) (c : Nat) (q : PgCmd) (r : List PgCmd) (l : List Piece) : State :=
  let s := s.pieceCorrect c q.id l
  if s.piecePoison l then (s.modCore c fun x => { x with pg := r }).kill c q.slot
  else s.modCore c fun x => { x with pg := { q with
    words := l.foldl (fun m p => put m p.row (s.pieceNat p)) q.words, reads := q.reads.filter fun z => !l.contains z } :: r }

/-- PATTERN_COMMAND_COMPLETE (R290): the generator of a core carries out the oldest command, its reads home by home and its writes
first.  Its thread still stands at the command, and traps there, dies there, or goes on. -/
def execPatternCommandComplete (core : Nat) (s : State) : Result :=
  match (s.core core).pg with
  | [] => .next s
  | q :: r =>
    let gone := s.modCore core fun x => { x with pg := r }
    if q.flights.any fun i => s.flights.any fun f => f.id == i then .next s else
    if !q.reads.isEmpty then
      (match s.pgTurn core q with
       | [] => .next (s.pgWait core q q.reads)
       | l => .next (s.pgRead core q r l))
    else
    match s.pgRun core q with
    | .wait l => .next (s.pgWait core q l)
    | .reads l =>
      if q.kind = .psld then .next (s.pgRead core q r l)
      else .next (s.modCore core fun x => { x with pg := { q with sent := true, reads := l } :: r })
    | .writes l =>
      let z := s.engineSend core q.slot q.tid q.task l
      .next (z.1.modCore core fun x => { x with pg := { q with sent := true, flights := z.2 } :: r })
    | .trap cause addr st =>
      .next ((gone.modSlot core q.slot fun t => (q.unmark t).lvPush [w64 cause, addr, st]).trapEntry core q.slot cause (s.slot core q.slot).pc addr st)
    | .done s' vals =>
      if q.kind = .pschk ∧ !s.destReady core q.slot q.d then .next s else
      .next (((s'.modCore core fun x => { x with pg := r }).pgWrite core q vals).complete core q.slot fun t => t.lvPush (0 :: vals))

/-- A number for each kind of command, as a pair's comparator sees it. -/
def PgKind.code (k : PgKind) : Nat :=
  match k with
  | .psld => 112 | .psgen => 113 | .prank => 114 | .pschk => 115 | .pssave => 116 | .psrest => 117

/-- Queues a command; its thread waits (R290).  A trailing thread of a pair takes the outcome from the load-value queue. -/
def queuePattern (kind : PgKind) (p : BitVec 2) (op1 op2 : W64) (n : Nat) (trans : Bool) (d : Nat) : M Unit := do
  afterAcquires
  let t ← getMe
  let ok ← askM fun s => (s.patSlot s.cur.core t.task p.toNat).isSome
  if !ok then resource 20 else
  let go ← output kind.code op1 n [op2, w64 (b2n trans), w64 d, w64 p.toNat]
  let id ← askM State.nextId
  let c : PgCmd := { id := id, kind := kind, slot := 0, tid := t.tid, task := t.task, p := p.toNat, op1 := op1, op2 := op2, n := n, trans := trans, d := d }
  let c := { c with full := c.fullNow t }
  if go then
    reserveInput engineKey
    doM fun s => ({ s with nextId := s.nextId + 1 }).modCore s.cur.core fun x => { x with pg := x.pg ++ [{ c with slot := s.cur.slot }] }
    modMe c.marks
    busyM 3 (.pattern id)
  else
    let r ← engineInput
    if r.headD 0 ≠ 0 then
      fun s => .error (.fin (s.trapEntry s.cur.core s.cur.slot (r.headD 0).toNat s.me.pc (r.getD 1 0) (r.getD 2 0)))
    else doM fun s => s.pgWrite s.cur.core { c with slot := s.cur.slot } r.tail

/-- PSLD. -/
def execPsld (a b : BitVec 6) (p : BitVec 2) (s : State) : Result :=
  run (do let x ← readS a
          let y ← readS b
          queuePattern .psld p x y 0 false 0) s
/-- PSGEN; `v` and `n` are immediates. -/
def execPsgen (v n : BitVec 6) (d : BitVec 1) (p : BitVec 2) (s : State) : Result :=
  run (do if v.toNat ≤ 30 then do
            freeV v.toNat
            freeV (v.toNat + 1)
          else pure ()
          queuePattern .psgen p (w64 v.toNat) 0 n.toNat (d == 1) 0) s
/-- PRANK. -/
def execPrank (a b : BitVec 6) (p : BitVec 2) (s : State) : Result :=
  run (do let x ← readS a
          let y ← readS b
          queuePattern .prank p x y 0 false 0) s
/-- PSCHK. -/
def execPschk (d b : BitVec 6) (p : BitVec 2) (s : State) : Result :=
  run (do let y ← readS b
          roomFor d.toNat
          queuePattern .pschk p 0 y 0 false d.toNat) s
/-- PSSAVE. -/
def execPssave (a : BitVec 6) (p : BitVec 2) (s : State) : Result :=
  run (do let x ← readS a
          queuePattern .pssave p x 0 0 false 0) s
/-- PSREST. -/
def execPsrest (a : BitVec 6) (p : BitVec 2) (s : State) : Result :=
  run (do let x ← readS a
          queuePattern .psrest p x 0 0 false 0) s

end Sys2Proof.Machine
end

