-- ==== Sys2Proof/Machine/Matrix.lean ====
section
/-! DEFINITION. The matrix engine (major 0x28, eng 1 and 4, chapter 11; sparse products, R297 and R298): commands latch at
issue, execute in effect one at a time, and complete. -/

namespace Sys2Proof.Machine

/-! ### Shapes and elements (R209, R96) -/

/-- Format, columns and rows of TSHAPE. -/
def tsFmt (v : W64) : Fmt := Fmt.ofCode (fieldN v 28 3)
/-- Columns. -/
def tsCols (v : W64) : Nat := fieldN v 16 9
/-- Rows. -/
def tsRows (v : W64) : Nat := fieldN v 8 8
/-- Columns of ASHAPE. -/
def asCols (v : W64) : Nat := fieldN v 16 8
/-- Rows of ASHAPE. -/
def asRows (v : W64) : Nat := fieldN v 8 7
/-- INT of ASHAPE. -/
def asInt (v : W64) : Bool := bitAt v 0

/-- Bytes of a row of `cols` elements (R209). -/
def rowBytes (f : Fmt) (cols : Nat) : Nat := if f = .tap6 then 8 * ((cols + 9) / 10) else cols * f.bytes

/-- The limits on a tile's shape (R209). -/
def tshapeOk (v : W64) : Bool :=
  tsFmt v != .raw && decide (1 ≤ tsCols v) && decide (tsCols v ≤ 256) && decide (1 ≤ tsRows v) && decide (tsRows v ≤ 128)
    && decide (tsRows v * rowBytes (tsFmt v) (tsCols v) ≤ 8192)
/-- The limits on an accumulator's shape (R209). -/
def ashapeOk (v : W64) : Bool := decide (1 ≤ asCols v) && decide (asCols v ≤ 128) && decide (1 ≤ asRows v) && decide (asRows v ≤ 64)

/-- Byte `i` of physical tile `t`. -/
def Core.tileByte (x : Core) (t i : Nat) : Byte := look 0 x.tile (8192 * t + i)
/-- `n` bytes of a tile as a number. -/
def Core.tileNat (x : Core) (t i n : Nat) : Nat := leNat ((upto i n).map (x.tileByte t))
/-- The bits of element (r, c) of a tile of a shape (R89, R209). -/
def Core.elem (x : Core) (t : Nat) (sh : W64) (r c : Nat) : Nat :=
  let f := tsFmt sh
  let base := r * rowBytes f (tsCols sh)
  if f = .tap6 then x.tileNat t (base + 8 * (c / 10)) 8 / 2 ^ (6 * (c % 10)) % 64
  else x.tileNat t (base + c * f.bytes) f.bytes
/-- Writes bytes of a tile. -/
def Core.putTile (x : Core) (t i : Nat) (l : List Byte) : Core :=
  { x with tile := (l.foldl (fun (m, j) b => (put m (8192 * t + j) b, j + 1)) (x.tile, i)).1 }
/-- Writes zero to a whole tile. -/
def Core.zeroTile (x : Core) (t : Nat) : Core := { x with tile := x.tile.filter fun e => e.1 / 8192 != t }
/-- Element `e` of physical accumulator `a`. -/
def Core.accElem (x : Core) (a e : Nat) : Nat := (look 0 x.accv (8192 * a + e)).toNat
/-- Writes zero to a whole accumulator. -/
def Core.zeroAcc (x : Core) (a : Nat) : Core := { x with accv := x.accv.filter fun e => e.1 / 8192 != a }

/-! ### Issue (R255 to R259) -/

/-- The physical tile of a window index (R208). -/
def myTile (t : Nat) : M Nat := fun s => match (s.taskOf s.cur.core s.me.task).tiles[t]? with
  | some p => .ok (p, s)
  | none => .error (.trap 0x16 0 11)
/-- The physical accumulator of a window index (R208). -/
def myAcc (a : Nat) : M Nat := fun s => match (s.taskOf s.cur.core s.me.task).accs[a]? with
  | some p => .ok (p, s)
  | none => .error (.trap 0x16 0 12)

/-- Commits a tile's shadow shape (R209, R258). -/
def commitTile (t p : Nat) : M W64 := do
  let u ← getMe
  let sh := look 0 u.tsh t
  if tshapeOk sh then
    modMyCore fun x => { x with tshape := put x.tshape p sh }
    pure sh
  else resource 9

/-- Commits an accumulator's shadow shape (R209, R258). -/
def commitAcc (a p : Nat) : M W64 := do
  let u ← getMe
  let sh := look 0 u.ash a
  if ashapeOk sh then
    modMyCore fun x => { x with ashape := put x.ashape p sh }
    pure sh
  else resource 10

/-- A slot holds at most four matrix and recurrence commands (R256). -/
def mxRoom : M Unit := fun s => if 4 ≤ (s.myCore.mx.filter fun q => q.slot == s.cur.slot).length then .error (.park 6) else .ok ((), s)

/-- A number for each kind of command, as a pair's comparator sees it. -/
def MxKind.code (k : MxKind) : Nat :=
  match k with
  | .tld => 96 | .tst => 97 | .tzero => 98 | .mma => 99 | .spmma => 100 | .spmmat => 101 | .had => 102 | .tquant => 103
  | .accrd => 104 | .accst => 105 | .acczero => 106 | .mxrun => 107

/-- A command that writes TSCALE of a tile (R254). -/
def MxCmd.scales (q : MxCmd) (t : Nat) : Bool := (q.kind == .tld || q.kind == .tzero) && q.ta == t

/-- TSCALE of a physical tile as a command latches it at its place in issue order (R256, R257): none while an earlier
command is under way whose write of it comes after every MOVTC so far. -/
def Core.latchScale (x : Core) (t : Nat) : Option (BitVec 8) :=
  if x.mx.any fun q => q.scales t && !q.overtaken then none else some (look 0 x.tscale t)

/-- The homes of pieces, each with its first piece. -/
def State.pieceHomes (s : State) (l : List Piece) : List (Nat × Piece) :=
  l.foldl (fun a p => let h := (s.homeOf p.pa).getD 0
    if a.any fun b => b.1 == h then a else a ++ [(h, p)]) []

/-- Issues a command with the pieces that it reads (one access for each home) or writes (one for each piece).  False in a
trailing thread of a pair, whose leading thread's command it is. -/
def issueMx (q : MxCmd) (reads : Bool) (l : List Piece) : M Bool := do
  if l.isEmpty then pure () else afterAcquires
  mxRoom
  let go ← output q.kind.code q.op1 0 [q.op2, q.cfg, q.prog, q.init, w64 (q.ta + q.tb * 16 + q.acc * 256), w64 q.d]
  if go then
    doM fun s =>
      let s := s.countIn s.cur.core 4 none 1
      let c := s.cur.core
      let id := s.nextId
      let ops : List (Piece × FOp) := if reads then (s.pieceHomes l).map fun h => (h.2, .tileLoad id)
        else l.map fun p => (p, .tileStore id p.row p.off p.len)
      let z := { s with nextId := id + 1 }.engineSend c s.cur.slot s.me.tid s.me.task ops
      z.1.modCore c fun x => { x with mx := x.mx ++ [{ q with
        id := id, slot := s.cur.slot, tid := s.me.tid, task := s.me.task, flights := z.2,
        pieces := l.map fun p => ((s.homeOf p.pa).getD 0, p.row, p.off, p.len, p.pa),
        via := if reads then (l.filterMap fun p => p.polder.map fun i => ((s.homeOf p.pa).getD 0, i)).eraseDups else [] }] }
    pure true
  else pure false

/-- A command with nothing latched yet. -/
def mxNew (k : MxKind) : MxCmd := { id := 0, kind := k, slot := 0, tid := 0, task := 0 }

/-- TLD (R262). -/
def execTld (a b : BitVec 6) (t : BitVec 3) (s : State) : Result :=
  run (do collective
          let x ← readS a
          let y ← readS b
          let p ← myTile t.toNat
          let sh ← commitTile t.toNat p
          let l ← engineRowsM x y (tsRows sh) (rowBytes (tsFmt sh) (tsCols sh))
          let _ ← issueMx { mxNew .tld with ta := p, shA := sh, op1 := x, op2 := y } true l
          pure ()) s

/-- TST (R263). -/
def execTst (a b : BitVec 6) (t : BitVec 3) (s : State) : Result :=
  run (do collective
          let x ← readS a
          let y ← readS b
          let p ← myTile t.toNat
          let sh ← askM fun s => look 0 s.myCore.tshape p
          if tsFmt sh = .raw then resource 9 else
          let l ← engineRowsM x y (tsRows sh) (rowBytes (tsFmt sh) (tsCols sh))
          let _ ← issueMx { mxNew .tst with ta := p, shA := sh, op1 := x, op2 := y } false l
          pure ()) s

/-- An operand that a flag bit makes an immediate (R260). -/
def opnd (o : BitVec 6) (i : BitVec 1) : M W64 := if i = 1 then pure (w64 o.toNat) else readS o

/-- TZERO (R264). -/
def execTzero (t : BitVec 6) (i : BitVec 1) (s : State) : Result :=
  run (do collective
          let x ← opnd t i
          let p ← myTile x.toNat
          let sh ← commitTile x.toNat p
          let _ ← issueMx { mxNew .tzero with ta := p, shA := sh, op1 := x } true []
          pure ()) s

/-- ACCZERO (R264). -/
def execAcczero (c : BitVec 6) (i : BitVec 1) (s : State) : Result :=
  run (do collective
          let x ← opnd c i
          let p ← myAcc x.toNat
          let sh ← commitAcc x.toNat p
          let _ ← issueMx { mxNew .acczero with acc := p, shC := sh, op1 := x } true []
          pure ()) s

/-- An accumulator that a read finds locked parks its thread (R210, R259). -/
def unlocked (p : Nat) : M Unit := do
  let x ← getCore
  if x.accLocked p then parkM 6 else pure ()

/-- ACCRD (R265). -/
def execAccrd (d b : BitVec 6) (c : BitVec 2) (s : State) : Result :=
  run (do collective
          let e ← readS b
          let p ← myAcc c.toNat
          let sh ← askM fun s => look 0 s.myCore.ashape p
          if e.toNat % 2 = 1 ∨ asRows sh * asCols sh ≤ e.toNat then resource 18 else
          unlocked p
          roomFor d.toNat
          let id ← askM State.nextId
          let go ← issueMx { mxNew .accrd with acc := p, shC := sh, op1 := e, d := d.toNat } true []
          if go then
            let _ ← loadInput engineKey id d.toNat
            awaitS d.toNat
          else
            let _ ← loadInput engineKey id d.toNat
            pure ()) s

/-- ACCST (R263). -/
def execAccst (a b : BitVec 6) (c : BitVec 2) (s : State) : Result :=
  run (do collective
          let x ← readS a
          let y ← readS b
          let p ← myAcc c.toNat
          unlocked p
          let sh ← askM fun s => look 0 s.myCore.ashape p
          if asRows sh = 0 ∨ asCols sh = 0 then resource 10 else
          let l ← engineRowsM x y (asRows sh) (4 * asCols sh)
          let _ ← issueMx { mxNew .accst with acc := p, shC := sh, op1 := x, op2 := y } false l
          pure ()) s

/-- HAD (R270). -/
def execHad (t p : BitVec 6) (i d : BitVec 1) (s : State) : Result :=
  run (do collective
          let x ← opnd t i
          let y ← opnd p i
          let q ← myTile x.toNat
          let sh ← askM fun s => look 0 s.myCore.tshape q
          let n := 2 ^ y.toNat
          if (tsFmt sh = .bf16 ∨ tsFmt sh = .fp32) ∧ 4 ≤ y.toNat ∧ y.toNat ≤ 6 ∧ (if d = 0 then tsCols sh else tsRows sh) % n = 0 then
            let _ ← issueMx { mxNew .had with ta := q, shA := sh, op1 := x, op2 := y, d := d.toNat } true []
            pure ()
          else resource 17) s

/-- Every byte of TQUANT's destination lies in the own-scratchpad window, in a bank of one format (R271). -/
def State.quantBanks (s : State) (f : Fmt) (l : List Piece) : Bool :=
  l.all fun p => decide (p.va < 0x80000) && bfmtFmt (s.bfmtAt p.pa) == f

/-- TQUANT (R271). -/
def execTquant (a b : BitVec 6) (t : BitVec 3) (s : State) : Result :=
  run (do collective
          let x ← readS a
          let y ← readS b
          let p ← myTile t.toNat
          let sh ← askM fun s => look 0 s.myCore.tshape p
          if ¬ (tsFmt sh = .fp32 ∨ tsFmt sh = .bf16) then resource 16 else
          let first ← engineRowsM x y 1 1
          let f ← askM fun s => match first.head? with | some z => bfmtFmt (s.bfmtAt z.pa) | none => .raw
          if ¬ (x.toNat < 0x80000 ∧ f.tapered) then resource 16 else
          let l ← engineRowsM x y (tsRows sh) (rowBytes f (tsCols sh))
          let ok ← askM fun s => s.quantBanks f l
          if ok then
            let _ ← issueMx { mxNew .tquant with ta := p, shA := sh, op1 := x, op2 := y, d := if f = .tap6 then 1 else 0 } false l
            pure ()
          else resource 16) s

/-! ### Products at issue (R266, R273, R297) -/

/-- Fields of MXCFG (R209). -/
def cfgM (v : W64) : Nat := fieldN v 24 7
/-- N. -/
def cfgN (v : W64) : Nat := fieldN v 32 8
/-- K. -/
def cfgK (v : W64) : Nat := fieldN v 16 7
/-- TRA. -/
def cfgTra (v : W64) : Bool := bitAt v 40
/-- TRB. -/
def cfgTrb (v : W64) : Bool := bitAt v 41
/-- ZACC. -/
def cfgZacc (v : W64) : Bool := bitAt v 42

/-- The permitted format combinations (R266). -/
def comboOk (a b : Fmt) (int : Bool) : Bool :=
  (a == .int8 && b == .int8 && int) || (a.tapered && b.tapered && !int)
    || ((a == .bf16 || a == .fp16) && (b == .bf16 || b == .fp16) && !int)

/-- A tile of a shape holds `r` × `c` as read, transposed or not (R266). -/
def holds (sh : W64) (tr : Bool) (r c : Nat) : Bool :=
  if tr then decide (c ≤ tsRows sh) && decide (r ≤ tsCols sh) else decide (r ≤ tsRows sh) && decide (c ≤ tsCols sh)

/-- The dimension checks on M, N, K, B and the accumulator (R266). -/
def dimsOk (q : MxCmd) (kmax : Nat) : Bool :=
  let m := cfgM q.cfg
  let n := cfgN q.cfg
  let k := cfgK q.cfg
  decide (1 ≤ m) && decide (1 ≤ n) && decide (1 ≤ k) && decide (k ≤ kmax) && holds q.shB (cfgTrb q.cfg) k n
    && decide (m ≤ asRows q.shC) && decide (n ≤ asCols q.shC)

/-- The largest K for operands of a format (R266). -/
def kMax (f : Fmt) : Nat := if f = .bf16 ∨ f = .fp16 then 32 else 64

/-- The live shapes and scales of a product's operands (R256). -/
def Core.latch (x : Core) (q : MxCmd) : MxCmd :=
  { q with shA := look 0 x.tshape q.ta, shB := look 0 x.tshape q.tb, shC := look 0 x.ashape q.acc,
           scA := x.latchScale q.ta, scB := x.latchScale q.tb }

/-- What a product latches (R256): tiles, accumulator, shapes after its commit, scales. -/
def latchProduct (k : MxKind) : M MxCmd := do
  let t ← getMe
  let cfg := t.mxcfg
  let c := fieldN cfg 8 2
  if cfgZacc cfg && !ashapeOk (look 0 t.ash c) then resource 10 else
  let ta ← myTile (fieldN cfg 0 3)
  let tb ← myTile (fieldN cfg 4 3)
  let a ← myAcc c
  if cfgZacc cfg then
    let _ ← commitAcc c a
    pure ()
  else pure ()
  let x ← getCore
  pure (x.latch { mxNew k with cfg := cfg, prog := t.mxrprog, init := t.mxrinit, ta := ta, tb := tb, acc := a })

/-- MMA (R266). -/
def execMma (s : State) : Result :=
  run (do collective
          let q ← latchProduct .mma
          if !comboOk (tsFmt q.shA) (tsFmt q.shB) (asInt q.shC) then resource 14 else
          if !(dimsOk q (kMax (tsFmt q.shA)) && holds q.shA (cfgTra q.cfg) (cfgM q.cfg) (cfgK q.cfg)) then resource 15 else
          let _ ← issueMx q true []
          pure ()) s

/-- MXRUN (R273). -/
def execMxrun (s : State) : Result :=
  run (do collective
          let q ← latchProduct .mxrun
          if !(tsFmt q.shA == .fp32 && tsFmt q.shB == .fp32 && !asInt q.shC) then resource 14 else
          if !(dimsOk q 64 && holds q.shA (cfgTra q.cfg) (cfgM q.cfg) (cfgK q.cfg)) then resource 15 else
          let _ ← issueMx q true []
          pure ()) s

/-- The rows of a sparse product's window whose table words it uses: those with a kept coordinate, and the first (R286). -/
def Prog.tableUse (g : Prog) (row0 col0 h w : Nat) : List Nat :=
  let rows := (upto row0 h).filter fun r => g.inRow r col0 (col0 + w) != 0
  if rows.isEmpty then [] else (row0 :: rows).eraseDups

/-- A trap of R261 in the table's words (R295). -/
def tableM (p : PSlot) : M (List Piece) := fun s =>
  match s.tableRows s.myCtx p with
  | .ok l => .ok (l, s)
  | .error (cause, v) => .error (.trap cause (w64 v) (engineStat cause))

/-- SPMMA and SPMMAT (R297), in the order of its table. -/
def sparseM (k : MxKind) (o : BitVec 6) (i : BitVec 1) (p : BitVec 2) : M Unit := do
  collective
  let v ← opnd o i
  let q ← latchProduct k
  let t ← getMe
  let n ← askM fun s => s.patSlot s.cur.core t.task p.toNat
  match n with
  | none => resource 20
  | some n =>
    let x ← getCore
    let ps : PSlot := look {} x.pslots n
    match ps.prog with
    | none => trapM 0x0C 0 9
    | some g =>
      if !comboOk (tsFmt q.shA) (tsFmt q.shB) (asInt q.shC) then resource 14 else
      if !dimsOk q (kMax (tsFmt q.shA)) then resource 15 else
      let row0 := fieldN v 0 16
      let col0 := fieldN v 16 16
      let m := cfgM q.cfg
      let kk := cfgK q.cfg
      let h := if k = .spmma then m else kk
      let w := if k = .spmma then kk else m
      if cfgTra q.cfg ∨ g.r < row0 + h ∨ g.c < col0 + w then resource 22 else
      match (if k = .spmma then none else ps.rankFail col0 w) with
      | some d => trapM 0x0B 0 (w64 d)
      | none =>
        let l ← if k = .spmma ∨ ps.inv then pure [] else tableM ps
        let used := if l.isEmpty then [] else (g.tableUse row0 col0 h w).filterMap fun r => l[r]?
        let _ ← issueMx { q with ps := ps, op1 := v, d := p.toNat } true used
        pure ()

/-- SPMMA. -/
def execSpmma (o : BitVec 6) (i : BitVec 1) (p : BitVec 2) (s : State) : Result := run (sparseM .spmma o i p) s
/-- SPMMAT. -/
def execSpmmat (o : BitVec 6) (i : BitVec 1) (p : BitVec 2) (s : State) : Result := run (sparseM .spmmat o i p) s

/-- One operation of a recurrence program (R272). -/
def recOpOk (w : Nat) : Bool :=
  decide (nbits w 8 4 ≤ 6) && (nbits w 8 4 == 0 || decide (2 ≤ nbits w 6 2)) && nbits w 0 2 == 0

/-- MXREC (R272): the slot's own registers. -/
def execMxrec (a b : BitVec 6) (s : State) : Result :=
  run (do collective
          let x ← readS a
          let y ← readS b
          if fieldN x 48 16 = 0 ∧ (upto 0 4).all (fun i => recOpOk (fieldN x (12 * i) 12)) then
            mxRoom
            modMe fun t => { t with mxrprog := x, mxrinit := keep y 0xFFFFFFFF }
            doM fun s => s.countIn s.cur.core 4 none 1
          else resource 19) s

/-! ### Execution -/

/-- The exact sum of products, with the special cases of R268: the sum, and NV for a NaN. -/
def dotNum (l : List (Num × Num)) : Num × Flags :=
  let ps := l.map fun p => (mulNum p.1 p.2).1
  let nan := ps.any fun p => match p with | .nan _ => true | _ => false
  let pos := ps.contains (.inf false)
  let neg := ps.contains (.inf true)
  if nan || (pos && neg) then (.nan false, fNV)
  else if pos then (.inf false, 0)
  else if neg then (.inf true, 0)
  else (ps.foldl (fun a p => (addNum .rne a p).1) Num.zero, 0)

/-- One element of a floating-point product (R267, R268): `sc` is the exponent of both tiles' scales. -/
def mmaFloat (zacc : Bool) (sc : Int) (c : Nat) (l : List (Num × Num)) : Nat × Flags :=
  let add (x : Num) : Nat × Flags :=
    let r := addNum .rne (decodeFp fp32 c) x
    let q := encodeFp fp32 .rne false false r.1
    (q.1, r.2 ||| q.2)
  match dotNum l with
  | (.nan _, fl) => (fp32.qnan, fl)
  | (.inf n, fl) => if zacc then (fp32.signed n fp32.infBits, fl) else add (.inf n)
  | (.fin n m e, _) =>
    if m = 0 then (if zacc then 0 else c, 0)
    else if zacc then roundFp fp32 .rne false false n false m (e + sc)
    else add (.fin n m (e + sc))

/-- One element of an integer product (R267). -/
def mmaInt (zacc : Bool) (c : Nat) (l : List (Nat × Nat)) : Nat × Flags :=
  let t := l.foldl (fun a p => a + toSigned 8 p.1 * toSigned 8 p.2) (if zacc then 0 else toSigned 32 c)
  if t < -(2 ^ 31 : Int) then (2 ^ 31, fNV)
  else if (2 ^ 31 : Int) - 1 < t then (2 ^ 31 - 1, fNV)
  else (ofSigned 32 t, 0)

/-- x(m, k) and y(k, n) of R267. -/
def Core.xEl (x : Core) (q : MxCmd) (m k : Nat) : Nat := if cfgTra q.cfg then x.elem q.ta q.shA k m else x.elem q.ta q.shA m k
/-- y(k, n). -/
def Core.yEl (x : Core) (q : MxCmd) (k n : Nat) : Nat := if cfgTrb q.cfg then x.elem q.tb q.shB n k else x.elem q.tb q.shB k n

/-- Word `j` of the count table, as the command read it. -/
def MxCmd.tabWord (q : MxCmd) (j : Nat) : Nat := leNat ((upto 0 4).map fun b => look 0 q.data (4 * j + b))

/-- The pairs that one output element multiplies, as bits, and NV for a term beyond the value tile (R267, R298). -/
def Core.terms (x : Core) (q : MxCmd) (m n : Nat) : List (Nat × Nat) × Flags :=
  let kk := upto 0 (cfgK q.cfg)
  match q.kind, q.ps.prog with
  | .mma, _ => (kk.map fun k => (x.xEl q m k, x.yEl q k n), 0)
  | _, none => ([], 0)
  | _, some g =>
    let row0 := fieldN q.op1 0 16
    let col0 := fieldN q.op1 16 16
    let fwd := q.kind == .spmma
    let c1 := col0 + (if fwd then cfgK q.cfg else cfgM q.cfg)
    let at_ (k : Nat) : Nat × Nat := if fwd then (row0 + m, col0 + k) else (row0 + k, col0 + m)
    let rank (p : Nat × Nat) : Nat :=
      if fwd || q.ps.inv then g.wrank row0 col0 c1 p.1 p.2 else g.tabRank q.tabWord row0 col0 p.1 p.2
    let cols := tsCols q.shA
    let cap := tsRows q.shA * cols
    let kept := kk.filter fun k => g.keep (at_ k).1 (at_ k).2
    (kept.filterMap fun k => let j := rank (at_ k)
        if j < cap then some (x.elem q.ta q.shA (j / cols) (j % cols), x.yEl q k n) else none,
     flagIf (kept.any fun k => decide (cap ≤ rank (at_ k))) fNV)

/-- Folds over the elements of an M × N result: each gives its new bits and flags. -/
def Core.eachElem (x : Core) (q : MxCmd) (f : Nat → Nat → Nat → Nat × Flags) : Core × Flags :=
  let cols := asCols q.shC
  (upto 0 (cfgM q.cfg)).foldl (fun r m => (upto 0 (cfgN q.cfg)).foldl (fun (r : Core × Flags) n =>
    let e := m * cols + n
    let v := f m n (x.accElem q.acc e)
    ({ r.1 with accv := put r.1.accv (8192 * q.acc + e) (w32 v.1) }, r.2 ||| v.2)) r) (x, 0)

/-- A product (R267, R298). -/
def Core.product (x : Core) (q : MxCmd) : Core × Flags :=
  let fa := tsFmt q.shA
  let fb := tsFmt q.shB
  let z := cfgZacc q.cfg
  let sc : Int := (q.scA.getD (look 0 x.tscale q.ta)).toInt + (q.scB.getD (look 0 x.tscale q.tb)).toInt
  x.eachElem q fun m n c =>
    let t := x.terms q m n
    let r := if asInt q.shC then mmaInt z c t.1
      else mmaFloat z sc c (t.1.map fun p => (decodeNum fa x.topinf 0 p.1, decodeNum fb x.topinf 0 p.2))
    (r.1, r.2 ||| t.2)

/-- One operation of a recurrence step on a, b, s, t (R272, R273). -/
def recOp (w : Nat) (a b : Nat) (st : Nat × Nat × Flags) : Nat × Nat × Flags :=
  let src (i : Nat) : Nat := match i with | 0 => a | 1 => b | 2 => st.1 | _ => st.2.1
  let x := src (nbits w 4 2)
  let y := src (nbits w 2 2)
  let r : Nat × Flags := match nbits w 8 4 with
    | 1 => fadd .rne false x y
    | 2 => fsub .rne false x y
    | 3 => fmul .rne false x y
    | 4 => fpick true false x y
    | 5 => fpick false false x y
    | _ => (x, 0)
  if nbits w 8 4 = 0 then st
  else if nbits w 6 2 = 2 then (r.1, st.2.1, st.2.2 ||| r.2)
  else (st.1, r.1, st.2.2 ||| r.2)

/-- A recurrence (R273). -/
def Core.recurrence (x : Core) (q : MxCmd) : Core × Flags :=
  x.eachElem q fun m n c =>
    let s0 := if cfgZacc q.cfg then fieldN q.init 0 32 else c
    let r := (upto 0 (cfgK q.cfg)).foldl (fun st k =>
      (upto 0 4).foldl (fun st i => recOp (fieldN q.prog (12 * i) 12) (x.xEl q m k) (x.yEl q k n) st) st) (s0, 0, (0 : Flags))
    (r.1, r.2.2)

/-- One output of a Hadamard block (R270): bits in the tile's format, and flags. -/
def hadOut (f : Fmt) (p i : Nat) (x : List Num) : Nat × Flags :=
  let signs := (upto 0 x.length).map fun j => (Num.fin (popBits (Nat.land i j) 6 % 2 == 1) 1 (-((p / 2 : Nat) : Int)))
  match dotNum (signs.zip x) with
  | (.fin n m e, _) => if m = 0 then (0, 0) else encodeNum f .rne false false false 0 (.fin n m e)
  | (v, fl) => let r := encodeNum f .rne false false false 0 v
    (r.1, r.2 ||| fl)

/-- The blocks of HAD, each as the places of its points (R270). -/
def hadBlocks (sh : W64) (n d : Nat) : List (List (Nat × Nat)) :=
  if d = 0 then (upto 0 (tsRows sh)).flatMap fun r => (upto 0 (tsCols sh / n)).map fun b => (upto (b * n) n).map fun c => (r, c)
  else (upto 0 (tsCols sh)).flatMap fun c => (upto 0 (tsRows sh / n)).map fun b => (upto (b * n) n).map fun r => (r, c)

/-- HAD on a tile (R270). -/
def Core.hadamard (x : Core) (q : MxCmd) : Core × Flags :=
  let f := tsFmt q.shA
  let p := q.op2.toNat
  (hadBlocks q.shA (2 ^ p) q.d).foldl (fun r b =>
    let v := b.map fun e => decodeNum f false 0 (x.elem q.ta q.shA e.1 e.2)
    (b.zip (upto 0 (2 ^ p))).foldl (fun (r : Core × Flags) (e : (Nat × Nat) × Nat) =>
      let o := hadOut f p e.2 v
      (r.1.putTile q.ta (e.1.1 * rowBytes f (tsCols q.shA) + e.1.2 * f.bytes) (natLe f.bytes o.1), r.2 ||| o.2)) r) (x, 0)

/-- The tile bytes that a load has read, put into its tile (R262). -/
def Core.loadTile (x : Core) (q : MxCmd) : Core :=
  let x := { x with tile := q.data.foldl (fun (m : Map Byte) (e : Nat × Byte) => put m (8192 * q.ta + e.1) e.2) x.tile }
  { x with tscale := put x.tscale q.ta (if (tsFmt q.shA).tapered then q.scale else 0) }

/-- What a command does to the engine's registers as it completes; poison writes zero instead (R400). -/
def Core.mxRun (x : Core) (q : MxCmd) : Core × Flags :=
  if q.poison then
    (match q.kind with
     | .tld => x.zeroTile q.ta
     | .had => x.zeroTile q.ta
     | .mma => x.zeroAcc q.acc
     | .spmma => x.zeroAcc q.acc
     | .spmmat => x.zeroAcc q.acc
     | .mxrun => x.zeroAcc q.acc
     | _ => x, 0)
  else
  match q.kind with
  | .tld => (x.loadTile q, 0)
  | .tzero => let y := x.zeroTile q.ta
    ({ y with tscale := put y.tscale q.ta 0 }, 0)
  | .acczero => (x.zeroAcc q.acc, 0)
  | .mma => x.product q
  | .spmma => x.product q
  | .spmmat => x.product q
  | .mxrun => x.recurrence q
  | .had => x.hadamard q
  | .tst => (x, q.fl)
  | .tquant => (x, q.fl)
  | .accst => (x, 0)
  | .accrd => (x, 0)

/-- The value that ACCRD fills in (R265). -/
def Core.accPair (x : Core) (q : MxCmd) : W64 :=
  let e := q.op1.toNat
  let hi := if e + 1 = asRows q.shC * asCols q.shC then 0 else x.accElem q.acc (e + 1)
  w64 (hi * 2 ^ 32 + x.accElem q.acc e)

/-- Flags of a command enter FSTAT of its thread, and of its pair's trailing thread, while the thread is there (R103, R397). -/
def State.raiseFor (s : State) (c k tid : Nat) (fl : Flags) : State :=
  let t := s.slot c k
  if fl = 0 || !t.live || t.tid != tid then s else
  let s := (s.modSlot c k fun t => t.raise fl).countIn c 29 (some k) (popBits fl.toNat 5)
  match t.role with
  | .leading j => s.modSlot c j fun t => t.raise fl
  | _ => s

/-- Latent errors in the tiles and accumulators that a command reads: the correctable ones as `false`, the others as `true`
(R399, R400). -/
def Core.engHits (x : Core) (q : MxCmd) : Map Bool := x.engErr.filter fun e => q.reads.contains (e.1 / 4096)

/-- A command reads its tiles and accumulators: single-bit errors are corrected and counted, and it consumes the poison of the
others (R399, R400). -/
def State.engRead (s : State) (c : Nat) (q : MxCmd) : State × MxCmd :=
  let hit := (s.core c).engHits q
  if hit.isEmpty then (s, q) else
  ({ (s.modCore c fun x => { x with engErr := x.engErr.filter fun e => e.2 || !hit.contains e }).corrected c
       (hit.filter fun e => !e.2).length with relUeev := s.relUeev || hit.any Prod.snd },
   { q with poison := q.poison || hit.any Prod.snd })

/-- ACCRD's fill (R212, R214, R265): to the thread that issued it; once that has gone, as any fill of a register of the slot, with
the core's own TOPINF. -/
def State.accFill (s : State) (c : Nat) (q : MxCmd) (v : W64) : State :=
  let t := s.slot c q.slot
  if !t.live || t.tid != q.tid then
    s.fillArrive (w64 (c + q.slot * 2 ^ 12 + q.task * 2 ^ 16 + q.d * 2 ^ 22)) v (s.core c).topinf c false
  else
  (s.modSlot c q.slot fun t => { t with sAwait := setBit t.sAwait q.d false }.lvFill q.id q.d v 0).putDest c q.slot q.d v false

/-- ACCRD may fill: it is a release that covers the engine's earlier accesses, and its destination takes the value (R186, R220). -/
def State.accReady (s : State) (c : Nat) (q : MxCmd) : Bool :=
  let t := s.slot c q.slot
  q.kind != .accrd || (((s.core c).mx.takeWhile fun p => p.id != q.id).all fun p => (s.mxLeft p).isEmpty)
    && (!t.live || t.tid != q.tid || s.destReady c q.slot q.d)

/-- What follows a command that has written TSCALE: the commands that latched it as its, up to the next that writes it, take its
value; a later MOVTC's value stays (R254, R256). -/
def Core.settleScale (x y : Core) (q : MxCmd) : Core :=
  if !q.scales q.ta then y else
  let v := look 0 y.tscale q.ta
  let rest := (y.mx.dropWhile fun p => p.id != q.id).tail
  let ids := (rest.takeWhile fun p => !p.scales q.ta).map MxCmd.id
  { y with
    tscale := if q.overtaken then put y.tscale q.ta (look 0 x.tscale q.ta) else y.tscale,
    mx := y.mx.map fun p => if ids.contains p.id then
        { p with scA := if p.ta = q.ta ∧ p.scA.isNone then some v else p.scA, scB := if p.tb = q.ta ∧ p.scB.isNone then some v else p.scB }
      else p }

/-- MATRIX_COMPLETE (R257, R259): a command all of whose accesses have been performed, and before which no command that
shares a resource is left, takes effect and ends; a transfer without accesses does so when it has the transfer path. -/
def execMatrixComplete (core num : Nat) (s : State) : Result :=
  match (s.core core).mxCmd num with
  | none => .next s
  | some q =>
    if q.flights.any (fun i => s.flights.any fun f => f.id == i) || !(s.core core).mxClear q
      || !(q.flights ≠ [] || s.hasPath core q) || !s.accReady core q then .next s else
    let (s, q) := s.engRead core q
    let r := (s.core core).mxRun q
    let v := (s.core core).accPair q
    let x := (s.core core).settleScale r.1 q
    let s := (s.setCore core { x with engErr := x.engErr.filter (fun e => !q.writes.contains (e.1 / 4096)), mx := x.mx.filter fun p => p.id != num }).raiseFor core q.slot q.tid r.2
    let s := if q.kind = .accrd then s.accFill core q v else s
    .next (if q.poison ∧ (s.slot core q.slot).live ∧ (s.slot core q.slot).tid = q.tid then s.kill core q.slot else s)

/-! ### The accesses of matrix commands at their homes -/

/-- Codes of a quantised row's bytes `off` to `off + len - 1`, encoded at the scale of their bank when the write performs, and
the flags (R271). -/
def Core.quantBytes (x : Core) (q : MxCmd) (scale : Int) (row off len : Nat) : List Byte × Flags :=
  let f : Fmt := if q.d = 1 then .tap6 else .tap8
  let cols := tsCols q.shA
  let code (e : Nat) : Nat × Flags :=
    if e < cols then encodeNum f .rne false false x.topinf scale (decodeNum (tsFmt q.shA) false 0 (x.elem q.ta q.shA row e)) else (0, 0)
  let groups : List (List Byte × Flags) :=
    if q.d = 1 then (upto (off / 8) (len / 8)).map fun w =>
      let cs := (upto (10 * w) 10).map code
      (natLe 8 (cs.foldr (fun c a => c.1 + 64 * a) 0), cs.foldl (fun a c => a ||| c.2) 0)
    else (upto off len).map fun e => let c := code e
      ([BitVec.ofNat 8 c.1], c.2)
  (groups.flatMap Prod.fst, groups.foldl (fun a g => a ||| g.2) 0)

/-- The bytes that a storing command writes in a row, and the flags (R263, R271). -/
def State.rowOut (s : State) (c : Nat) (q : MxCmd) (row off len pa : Nat) : List Byte × Flags :=
  let x := s.core c
  match q.kind with
  | .accst => (((upto 0 len).map fun i =>
      let b := off + i
      BitVec.ofNat 8 (x.accElem q.acc (row * asCols q.shC + b / 4) / 2 ^ (8 * (b % 4)))), 0)
  | .tquant => x.quantBytes q (bfmtScale (s.bfmtAt pa)) row off len
  | _ => ((upto (row * rowBytes (tsFmt q.shA) (tsCols q.shA) + off) len).map (x.tileByte q.ta), 0)

/-- Bytes per row of what a command reads: a tile's row, or a table's word. -/
def MxCmd.stride (q : MxCmd) : Nat := if q.kind = .tld then rowBytes (tsFmt q.shA) (tsCols q.shA) else 4

/-- Replaces a matrix command. -/
def State.setMx (s : State) (c : Nat) (q : MxCmd) : State :=
  s.modCore c fun x => { x with mx := x.mx.map fun p => if p.id = q.id then q else p }

/-- A transfer uses the transfer path (R257). -/
def State.usePath (s : State) (c : Nat) (q : MxCmd) : State :=
  if q.kind.transfer then s.modCore c fun x => { x with path := some q.id } else s

/-- A matrix command's access performs at its home: a pin and its reads in one step (R184, R262), or one store (R263). -/
def State.performTile (s : State) (f : Flight) : State :=
  match f.op with
  | .tileLoad id =>
    (match (s.core f.core).mxCmd id with
     | none => s.dropFlight f.id
     | some q =>
       let h := (s.homeOf f.pa).getD 0
       let l := q.pieces.filter fun p => p.1 == h
       let s := l.foldl (fun s p => s.correct p.2.2.2.2 p.2.2.2.1) s
       let data := l.foldl (fun m p => ((readBytes s.mem p.2.2.2.2 p.2.2.2.1).foldl
         (fun (m, j) b => (put m j b, j + 1)) (m, p.2.1 * q.stride + p.2.2.1)).1) q.data
       let scale := match l.find? fun p => p.2.1 == 0 && p.2.2.1 == 0 with
         | some p => BitVec.ofInt 8 (bfmtScale (s.bfmtAt p.2.2.2.2))
         | none => q.scale
       let poison := q.poison || l.any fun p => s.poisoned p.2.2.2.2 p.2.2.2.1
       ((s.dropFlight f.id).usePath f.core q).setMx f.core { q with data := data, scale := scale, poison := poison })
  | .tileStore id row off len =>
    (match (s.core f.core).mxCmd id with
     | none => s.dropFlight f.id
     | some q =>
       let (s, q) := s.engRead f.core q
       let o := s.rowOut f.core q row off len f.pa
       let s := ((s.dropFlight f.id).usePath f.core q).setMx f.core { q with fl := q.fl ||| o.2 }
       if s.discards f.core f.topinf f.pa then s.discardWrite f.core f.pa
       else
         let s := (s.storeAt f.pa o.1).wake f.pa len
         if ((s.core f.core).engHits q).isEmpty then s else s.addPoison f.pa len)
  | _ => s

end Sys2Proof.Machine
end

