-- ==== Sys2Proof/Machine/Restore.lean ====
section
/-! DEFINITION. Restoring a task from a context save area (R390, R391, R393). -/

namespace Sys2Proof.Machine

/-- The slot that ordinal `j` of a saved task held (R391). -/
def hdrSlot (l : List Byte) (j : Nat) : Nat := fieldAt l 80 8 / 16 ^ j % 16
/-- N of a header. -/
def hdrN (l : List Byte) : Nat := fieldAt l 2 1
/-- SLUICE of a header. -/
def hdrSluice (l : List Byte) : Bool := Nat.testBit (fieldAt l 3 1) 0
/-- PAIR of a header. -/
def hdrPair (l : List Byte) : Bool := Nat.testBit (fieldAt l 3 1) 1
/-- RES of a header. -/
def hdrRes (l : List Byte) : Nat := fieldAt l 8 4

/-- Bytes that the header layout leaves at zero (R391). -/
def hdrZero (l : List Byte) : Bool :=
  fieldAt l 12 4 == 0 && fieldAt l 34 6 == 0 && fieldAt l 67 5 == 0 && fieldAt l 74 5 == 0 && ((l.drop 96).all fun b => b == 0)

/-- A header is valid (R393). -/
def headerOk (l : List Byte) : Bool :=
  let n := hdrN l
  let old := (upto 0 n).map (hdrSlot l)
  fieldAt l 0 2 == 1 && decide (1 ≤ n) && decide (n ≤ 16) && decide (fieldAt l 0 8 / 2 ^ 26 = 0)
    && resOk (hdrRes l) && resSluice (hdrRes l) == hdrSluice l && resPair (hdrRes l) == hdrPair l && !(hdrSluice l && hdrPair l)
    && old.eraseDups.length == n && old.contains 15 == hdrSluice l && decide (fieldAt l 80 8 / 16 ^ n = 0)
    && replyOk (w64 (fieldAt l 16 8)) && hdrZero l

/-- Slots 0 to 14 that a restore takes (R393). -/
def hdrSlots (l : List Byte) : Nat := if hdrSluice l then hdrN l - 1 else if hdrPair l then 2 * hdrN l else hdrN l

/-- Starts the ordinals of a restored task: the thread of old slot 15 in slot 15, the others in the lowest free slots in
ordinal order, a trailing thread beside its leading one (R393, R389). -/
def State.startOrdinals (s : State) (c h : Nat) (l : List Byte) (js : List Nat) : State :=
  js.foldl (fun s j =>
    let free := (s.core c).freeSlots
    let go (t : Slot) : Slot := { (t.putS 1 (w64 (fieldAt l 48 8))).putS 2 (w64 j) with
      pc := w64 (fieldAt l 40 8) &&& ~~~ (3 : W64), privS := true, freshPorts := upto 0 4 }
    if hdrSlot l j = 15 then s.startThread c 15 h go
    else
      let k := free.getD 0 0
      if hdrPair l then
        let m := free.getD 1 0
        (s.startThread c k h fun t => { go t with role := .leading m }).startThread c m h fun t => { go t with role := .trailing k }
      else s.startThread c k h go) s

/-- The bytes of a header, read line by line at their homes, with the poison mark: memory, with errors corrected, or outside the
module; the windows of registers and records read zero, which is no header (R81, R399, R400, R419, R420). -/
def State.headerAt (s : State) (lines : List Nat) : (List Byte × Bool) × State :=
  lines.foldl (fun r p =>
    let s := r.2
    match regionOf p with
    | .launch _ _ => ((r.1.1 ++ natLe 64 0, r.1.2), s)
    | .mgmt _ => ((r.1.1 ++ natLe 64 0, r.1.2), s)
    | .host _ => let o := s.outsideBytes p 64; ((r.1.1 ++ o.1, r.1.2), o.2)
    | .peer _ => let o := s.outsideBytes p 64; ((r.1.1 ++ o.1, r.1.2), o.2)
    | _ => let s := s.correct p 64; ((r.1.1 ++ readBytes s.mem p 64, r.1.2 || s.poisoned p 64), s)) (([], false), s)

/-- The target of a restore answers: the task runs, or a reason of R393; `none` while a line of the header is absent or the
target is frozen. -/
def State.restoreTask (s : State) (from_ : Nat) (v : W64) : Option (Except Nat State) :=
  let c := fieldN v 52 12
  let a := fieldN v 6 46 * 64
  let lines := (upto 0 64).map fun i => a + 64 * i
  if !coreExists c || s.mapout.contains c || !s.served (dieOf c) then some (.error 7)
  else if s.partOf c != s.partOf from_ then some (.error 5)
  else if (s.core c).dbg.freeze then none
  else if lines.any fun p => (s.homeOf p).isNone then some (.error 4)
  else if lines.any fun p => !s.present p then none
  else
    let r := s.headerAt lines
    let s := r.2
    let l := r.1.1
    let x := s.core c
    let res := hdrRes l
    if r.1.2 || !headerOk l then some (.error 4)
    else if x.freeSlots.length < hdrSlots l then some (.error 1)
    else if !x.canTake res 0 && !x.freeTasks.isEmpty then some (.error 2)
    else match x.freeTasks with
      | [] => some (.error 3)
      | h :: _ =>
        if (s.hub (c / 16)).bank.any fun r => s.eligible c r && s.pressing (c / 16) r then some (.error 6)
        else
          let s := s.allocate c h res (w64 (fieldAt l 16 8)) (keep (w64 (fieldAt l 24 8)) 0xFFFFFFFFFC000) (BitVec.ofNat 16 (fieldAt l 32 2))
          some (.ok (s.startOrdinals c h l (upto 0 (hdrN l))))

/-- The bits of RSTPOST that a write keeps (R393). -/
def rstpostMask : Nat := 0xFFFFFFFFFFFFFFC0

/-- RSTPOST_WRITE (R393): the target answers, and the MOVTC completes, or traps with RESOURCE 33 and the reason. -/
def execRstpostWrite (core slot : Nat) (s : State) : Result :=
  match (s.slot core slot).wait with
  | .busy _ (.rstpost v) =>
    match s.restoreTask core v with
    | none => .next s
    | some (.error r) => .next (s.trapEntry core slot 0x16 (s.slot core slot).pc 0 (w64 (33 + r * 256)))
    | some (.ok s) =>
      .next ((s.modCore core fun x => { x with rstpost := keep v rstpostMask }).complete core slot fun t => t)
  | _ => .next s

end Sys2Proof.Machine
end

