-- ==== Sys2Proof/Machine/Window.lean ====
section
/-! DEFINITION. The device windows (R359, R419): what a read and a write of the launch windows, of the management window and
of the host window do, whoever sends them. -/

namespace Sys2Proof.Machine

/-! ### Launch windows (R359) -/

/-- A cluster hub counts a refused write (R358, R359). -/
def State.countDrop (s : State) (h : Nat) : State := s.modHub h fun x => { x with drops := satAt 0xFFFF (x.drops + 1) }

/-- A write into the launch window of hub `h`: a single aligned 64-byte write of a valid record for that cluster is queued,
with the hub's PTROOT and ASPACE; every other write, and one that finds bank and ring full, is refused and counted. -/
def State.launchWrite (s : State) (h off : Nat) (l : List Byte) : State :=
  if l.length = 64 ∧ off % 64 = 0 ∧ recordOk l ∧ ¬ recSib l ∧ recCore l / 16 = h then
    match s.hubAccept h { bytes := l, arrival := s.time, root := (s.hub h).lroot, asp := (s.hub h).laspace } with
    | some s => s
    | none => s.countDrop h
  else s.countDrop h

/-! ### The management window (R419) -/

/-- Adds 1 to HOSTERR (R427). -/
def State.hostError (s : State) : State := { s with hosterr := s.hosterr + 1 }

/-- A register that the window reaches: an assigned number that a core, a die, a hub, a partition or the module owns. -/
def mgmtReaches (core n : Nat) : Bool := coreExists core && cregAssigned (BitVec.ofNat 14 n) && !cregOwn n

/-- A MOVC through the window: the value, and the state after it. -/
def State.mgmtRead (s : State) (c n size : Nat) : W64 × State :=
  if size = 8 ∧ mgmtReaches c n then (s.sharedReg c n, if n = 0x332 then s.popDrop c else s) else (0, s)

/-- A MOVTC through the window; `none` while it parks.  One that would trap writes nothing and counts in HOSTERR. -/
def State.mgmtWrite (s : State) (c n size : Nat) (v : W64) : Option State :=
  if ¬ (size = 8 ∧ mgmtReaches c n) then some s
  else if inRange n 0x180 0x187 || n == 0x190 then some s.hostError
  else if n = 0x371 ∧ bitAt v 12 ∧ ¬ s.mapout.contains (fieldN v 0 12) ∧ (s.core (fieldN v 0 12)).busy then some s.hostError
  else if n = 0x374 then some (if s.hmapsel < 80 then { s with hmap := put s.hmap s.hmapsel v } else s)
  else if n = 0x331 then
    match s.restoreTask c v with
    | none => none
    | some (.error _) => some s.hostError
    | some (.ok s) => some (s.modCore c fun x => { x with rstpost := keep v rstpostMask })
  else if n = 0x361 then some (s.writeDumpreq c v)
  else some (s.writeShared c n v)

/-- Core and number that an offset of the management window names. -/
def mgmtCore (off : Nat) : Nat := off / 0x20000
/-- The register's number; none for an access that does not start at a register. -/
def mgmtNum (off : Nat) : Option Nat := if off % 8 = 0 then some (off % 0x20000 / 8) else none

/-- A read through the window by its offset. -/
def State.mgmtLoad (s : State) (off size : Nat) : W64 × State :=
  match mgmtNum off with
  | some n => s.mgmtRead (mgmtCore off) n size
  | none => (0, s)
/-- A write through the window by its offset. -/
def State.mgmtStore (s : State) (off size : Nat) (v : W64) : Option State :=
  match mgmtNum off with
  | some n => s.mgmtWrite (mgmtCore off) n size v
  | none => some s

/-! ### Any home (R81) -/

/-- Reads up to 8 bytes of one line at their home, for core `src` and under a name, with the poison mark: memory, the windows, or
outside the module (R399, R400, R403). -/
def State.homeRead (s : State) (src pa size id : Nat) : (Nat × Bool) × State :=
  let x := s.crossLink (s.linkOf src pa)
  let s := x.2.takeAt src pa id
  match regionOf pa with
  | .launch _ _ => ((0, x.1), s)
  | .mgmt off => let r := s.mgmtLoad off size; ((r.1.toNat, x.1), r.2)
  | .host _ => let r := s.outsideRead pa size; ((r.1, x.1), r.2)
  | .peer _ => let r := s.outsideRead pa size; ((r.1, x.1), r.2)
  | _ => let s := s.correct pa size; ((s.loadN pa size, s.poisoned pa size || x.1), s)

/-- Writes bytes of one line at their home; `none` while the write waits. -/
def State.homeWrite (s : State) (pa : Nat) (l : List Byte) : Option State :=
  match regionOf pa with
  | .launch h off => some (s.launchWrite h off l)
  | .mgmt off => s.mgmtStore off l.length (w64 (leNat l))
  | .host _ => some s
  | .peer p => some { s with out := s.out ++ [{ port := p, kind := .write, addr := pa, bytes := l }] }
  | _ => some ((s.storeAt pa l).wake pa l.length)

/-! ### The host's own accesses (R417 to R419) -/

/-- Hands a value to the host. -/
def State.toHost (s : State) (pa : Nat) (l : List Byte) (poison : Bool) : State :=
  { s with out := s.out ++ [{ port := 9, kind := .answer, addr := pa, bytes := l, poison := poison }] }

/-- The name of an access from outside that waits at its home (R412). -/
def State.extNamed (s : State) (e : Ext) : Option Nat := (s.ext.find? fun x => x.2 == e).map Prod.fst

/-- An access from outside may perform at its home now (R124, R412). -/
def State.extReady (s : State) (pa : Nat) (e : Ext) : Bool := s.present pa && s.homeTakes 4096 pa (s.extNamed e)

/-- It performs: it waits no more, and is counted at its home (R408, R412). -/
def State.takeExt (s : State) (pa : Nat) (e : Ext) : State :=
  match s.extNamed e with
  | some n => let s := s.takeAt 4096 pa n
              { s with ext := del s.ext n }
  | none => s.countArrival 4096 pa

/-- A write from outside to a register that parks: the access waits with it (R419). -/
def State.extParks (s : State) (pa : Nat) (e : Ext) : State := if (s.extNamed e).isSome then s else s.waitOutside pa e

/-- CXL_MEM_ACCESS (R418): within one 64-byte line, as CXL.mem transfers are.  It waits at an absent line, and in the queue of a
frozen core's home (R412); the event that performs it then is the same access. -/
def execCxlMemAccess (x size : Nat) (wr : Option (List (BitVec 8))) (s : State) : Result :=
  let e : Ext := .host x size wr
  if size = 0 ∨ 64 < x % 64 + size then .next s
  else if 2 ^ 48 ≤ x ∨ (s.homeOf x).isNone then
    match wr with
    | some _ => .next (s.takeExt x e).hostError
    | none => .next ((s.takeExt x e).hostError.toHost x (List.replicate size 0xFF) true)
  else if !s.extReady x e then .next (s.waitOutside x e)
  else
    match wr with
    | some l =>
      (match regionOf x with
       | .host _ => .next (s.takeExt x e).hostError
       | _ => match (s.takeExt x e).homeWrite x (l.take size) with
         | some s => .next s
         | none => .next (s.extParks x e))
    | none =>
      let s := s.takeExt x e
      match regionOf x with
      | .launch _ _ => .next (s.toHost x (natLe size 0) false)
      | .mgmt off => let r := s.mgmtLoad off size; .next (r.2.toHost x (natLe size r.1.toNat) false)
      | .host _ => let r := s.outsideBytes x size; .next (r.2.toHost x r.1 false)
      | _ => let s := s.correct x size; .next (s.toHost x (readBytes s.mem x size) (s.poisoned x size))

/-- LAUNCH_WINDOW_WRITE (R359, R424): a write of the host at a physical address in a launch window. -/
def execLaunchWindowWrite (pa : Nat) (bytes : List (BitVec 8)) (s : State) : Result :=
  match regionOf pa with
  | .launch h off => if s.served (h / 64) then .next (s.launchWrite h off bytes) else .next s.hostError
  | _ => .next s

/-- MANAGEMENT_WINDOW_ACCESS (R419). -/
def execManagementWindowAccess (core : Nat) (num : BitVec 14) (size : Nat) (wr : Option (BitVec 64)) (s : State) : Result :=
  match wr with
  | some v => (match s.mgmtWrite core num.toNat size v with
    | some s => .next s
    | none => .next s)
  | none => let r := s.mgmtRead core num.toNat size
            .next (r.2.toHost (deviceBase + 0x40000000 + core * 0x20000 + 8 * num.toNat) (natLe size r.1.toNat) false)

/-! ### Accesses of threads and engines at their homes -/

/-- An access to a register through the management window, from a thread: loads, stores and atomics of 8 bytes reach the
register (R162, R419); an access of another size reads zero and writes nothing. -/
def State.performMgmt (s : State) (f : Flight) (off : Nat) : Option State :=
  match f.op with
  | .ld signed _ => let r := s.mgmtLoad off f.size; some (r.2.answer f (extend signed f.size r.1.toNat) 0 false)
  | .vld .. => some (s.answer f 0 0 false)
  | .st v => (s.mgmtStore off f.size v).map fun s => s.dropFlight f.id
  | .atom op _ b c =>
    if f.size ≠ 8 then some (s.answer f 0 0 false) else
    let r := s.mgmtLoad off 8
    (match (atomNew op 8 r.1.toNat b.toNat c.toNat).1 with
     | some v => (r.2.mgmtStore off 8 (w64 v)).map fun s => s.answer f r.1 0 false
     | none => some (r.2.answer f r.1 0 false))
  | _ => some (s.dropFlight f.id)

/-- An atomic on a launch window, which reads zero: its write is refused, if there is one (R162, R359). -/
def State.refuseAtomic (s : State) (h op size : Nat) (b c : W64) : State :=
  if (atomNew op size 0 b.toNat c.toNat).1.isSome then s.countDrop h else s

/-- An access to a launch window: it reads zero, and each of its writes is refused (R359). -/
def State.performLaunch (s : State) (f : Flight) (h : Nat) : State :=
  match f.op with
  | .ld .. => s.answer f 0 0 false
  | .vld .. => s.answer f 0 0 false
  | .st _ => (s.countDrop h).dropFlight f.id
  | .atom op _ b c => (s.refuseAtomic h op f.size b c).answer f 0 0 false
  | _ => s.dropFlight f.id

/-- Whether an access carries data to its home. -/
def FOp.writes (o : FOp) : Bool :=
  match o with
  | .st _ => true
  | .stfe _ => true
  | .stff _ => true
  | .atom .. => true
  | .barinit _ => true
  | .bararr _ => true
  | .sptagWrite _ => true
  | .tileStore .. => true
  | _ => false

/-- The value of an access returns with a poison mark. -/
def Flight.spoilt (f : Flight) : Flight := match f.stage with | .returning v fl _ => { f with stage := .returning v fl true } | _ => f

/-- The data of an access crossed a link whose flit failed on two rails: what was written is poisoned, and what returns
carries the mark (R400, R403). -/
def State.spoil (s : State) (f : Flight) : State :=
  let s := if f.op.writes && inMemory f.pa then s.addPoison f.pa f.size else s
  let mark (id : Nat) (q : MxCmd) : MxCmd := if q.id = id then { q with poison := true } else q
  let s := match f.op with
    | .tileLoad id => s.modCore f.core fun x => { x with mx := x.mx.map (mark id) }
    | _ => s
  { s with flights := s.flights.map fun g => if g.id == f.id then g.spoilt else g }

/-- One access at its home, by what stands there; `none` while it waits there. -/
def State.performHome (s : State) (f : Flight) : Option State :=
  match f.op, regionOf f.pa with
  | .tileLoad _, _ => some (s.performTile f)
  | .tileStore .., _ => some (s.performTile f)
  | _, .launch h _ => some (s.performLaunch f h)
  | _, .mgmt off => s.performMgmt f off
  | _, .host _ => some (s.performOutside f)
  | _, .peer _ => some (s.performOutside f)
  | _, _ => some (s.performAt f)

/-- One access at its home; `none` while it waits there. -/
def State.performFlight (s : State) (f : Flight) : Option State :=
  if !s.mayPerform f then none else
  let x := s.crossLink (s.linkOf f.core f.pa)
  let s := match s.homeOf f.pa with
    | some c => if c < 4096 then x.2.takeArrival f.core c f.id else x.2
    | none => x.2
  if x.1 then (s.performHome f).map fun s => s.spoil f else s.performHome f

/-- An access that reaches a frozen core joins its queue, and one that was queued leaves it where it cannot perform yet, and
is held at its line (R124, R412). -/
def State.arriveFlight (s : State) (f : Flight) : State := if f.stage = .sent then s.arrives f.core f.pa f.id else s

/-- ACCESS_PERFORM (R175): the access with id `num` is performed at its home. -/
def execAccessPerform (num : Nat) (s : State) : Result :=
  match s.flights.find? fun f => f.id == num with
  | some f => (match s.performFlight f with
    | some s => .next s
    | none => .next (s.arriveFlight f))
  | none => .next s

/-- SPTAG_READ (R141): the read of a line's bits at its home. -/
def execSptagRead (num : Nat) (s : State) : Result :=
  match s.flights.find? fun f => f.id == num with
  | some f => (match f.op with
    | .sptagRead _ => .next ((s.performFlight f).getD (s.arriveFlight f))
    | _ => .next s)
  | none => .next s

/-- SPTAG_WRITE (R141): the write of a line's full bits at its home. -/
def execSptagWrite (num : Nat) (s : State) : Result :=
  match s.flights.find? fun f => f.id == num with
  | some f => (match f.op with
    | .sptagWrite _ => .next ((s.performFlight f).getD (s.arriveFlight f))
    | _ => .next s)
  | none => .next s

end Sys2Proof.Machine
end

