-- ==== Sys2Proof/Machine/Divergence.lean ====
section
/-! DEFINITION. The divergence stack (major 0x15, R334 to R337). -/

namespace Sys2Proof.Machine

/-- CONVERGENCE with a reason; ESTAT[15:0] holds A (R336). -/
def convergence {α : Type} (reason : Nat) : M α := fun s => .error (.trap 9 0 (w64 (reason * 65536 + s.me.act.toNat)))

/-- A spill access that fails traps with SPILLFAULT (R337). -/
def spill {α : Type} (va : W64) (m : M α) : M α := fun s =>
  match m s with
  | .error (.trap c _ _) => .error (.trap 0x0E va (w64 c))
  | r => r

/-- Pushes an entry; with 16 entries in the core, the oldest is stored first (R337). -/
def pushD (e : DEnt) : M Unit := do
  let t ← getMe
  if 65535 ≤ t.depth then convergence 4 else pure ()
  if 16 ≤ t.depth then
    let va := t.dspill + w64 (8 * (t.depth - 16))
    spill va (sendStore va 8 (t.dstk.getD 15 {}).word)
  else pure ()
  modMe fun t => { t with dstk := (e :: t.dstk).take 16, depth := t.depth + 1 }

/-- Pops the top entry; the one that the core then lacks is loaded as part of the instruction (R337). -/
def popD : M DEnt := do
  let t ← getMe
  let top := t.dstk.headD {}
  if 17 ≤ t.depth then
    let va := t.dspill + w64 (8 * (t.depth - 17))
    let v ← spill va (input va (do let l ← readNow va 8 8 fun off s => s.mgmtLoad off 8; pure (w64 (leNat l))))
    modMe fun t => { t with dstk := t.dstk.tail ++ [DEnt.ofWord v], depth := t.depth - 1 }
  else modMe fun t => { t with dstk := t.dstk.tail, depth := t.depth - 1 }
  pure top

/-- The kind of the top entry; none for an empty stack. -/
def Slot.topKind (t : Slot) : Option Nat := if t.depth = 0 then none else some (t.dstk.headD {}).kind.toNat

/-- Replaces the top entry. -/
def Slot.setTop (t : Slot) (e : DEnt) : Slot := { t with dstk := e :: t.dstk.tail }

/-- DIF (R335). -/
def execDif (k : BitVec 3) (s : State) : Result :=
  run (do soundK k
          let t ← getMe
          let m := t.mask k
          pushD ⟨t.act, t.act &&& ~~~m, 0⟩
          modMe fun t => { t with act := t.act &&& m }) s
/-- DELSE (R335). -/
def execDelse (s : State) : Result :=
  run (do let t ← getMe
          if t.topKind = some 0 then
            let e := t.dstk.headD {}
            modMe fun t => { t.setTop ⟨e.m, 0, 1⟩ with act := e.e }
          else convergence 1) s
/-- DEND (R335). -/
def execDend (s : State) : Result :=
  run (do let t ← getMe
          if t.topKind = some 0 ∨ t.topKind = some 1 then
            let e ← popD
            modMe fun t => { t with act := e.m }
          else convergence 2) s
/-- DBRK (R335). -/
def execDbrk (k : BitVec 3) (s : State) : Result :=
  run (do soundK k
          let t ← getMe
          if t.topKind = some 0 ∨ t.topKind = some 1 then
            let e := t.dstk.headD {}
            let l := t.act &&& t.mask k
            modMe fun t => { t.setTop ⟨e.m, e.e &&& ~~~l, e.kind⟩ with act := t.act &&& ~~~l }
          else convergence 5) s
/-- WHOLE (R335). -/
def execWhole (s : State) : Result :=
  run (do let t ← getMe
          pushD ⟨t.act, t.hlp, 2⟩
          modMe fun t => { t with act := 0xFFFF, hlp := 0 }) s
/-- WHOLE.H (R335). -/
def execWholeH (s : State) : Result :=
  run (do let t ← getMe
          pushD ⟨t.act, t.hlp, 3⟩
          modMe fun t => { t with hlp := ~~~t.act }) s
/-- ENDWHOLE (R335). -/
def execEndwhole (s : State) : Result :=
  run (do let t ← getMe
          if t.topKind = some 2 ∨ t.topKind = some 3 then
            let e ← popD
            modMe fun t => { t with act := e.m, hlp := e.e }
          else convergence 3) s

end Sys2Proof.Machine
end

