-- ==== Sys2Proof/Machine/Walker.lean ====
section
/-! DEFINITION. The walker of a cluster (R69 to R75): its tables' entries, its eight engines, its FIFO of 64 misses. -/

namespace Sys2Proof.Machine

/-- Low bit of the index at a level, and number of index bits (R69). -/
def levelLow (l : Nat) : Nat := if l = 1 then 46 else if l = 2 then 36 else if l = 3 then 26 else 16
/-- Index bits at a level. -/
def levelBits (l : Nat) : Nat := if l = 1 then 11 else 10

/-- What a walk finds in one entry (R70, R71). -/
inductive Walked where
  | fault (cause detail : Nat)
  | down (table : Nat)
  | leaf (e : Tlb)
  deriving DecidableEq, Repr

/-- The address of the entry that a walk reads next (R69). -/
def Walk.entryAt (w : Walk) : Nat := w.table + w.page * 65536 / 2 ^ levelLow w.level % 2 ^ levelBits w.level * 8

/-- The checks of R71 on an entry `e`, read at the walk's present level, for the access that started the walk; bits [12:2] of
a pointer entry are ignored (R70). -/
def Walk.check (w : Walk) (e : Nat) : Walked :=
  let addr := e / 2 ^ 13 % 2 ^ 39 * 2 ^ 13
  let low := levelLow w.level
  if e % 2 = 0 || decide (e / 2 ^ 52 ≠ 0) then .fault 4 0
  else if Nat.testBit e 1 then
    if w.level = 1 ∨ e / 2 ^ 7 % 2 ^ 6 ≠ 0 ∨ addr % 2 ^ low ≠ 0 then .fault 4 0
    else if !permOk (e % 128) w.acc w.privS then .fault 5 0
    else .leaf { base := w.page * 65536 / 2 ^ low * 2 ^ low, bits := low, pa := addr, perm := e % 128, asp := w.asp }
  else if w.level = 4 then .fault 4 0
  else .down addr

/-- The walk of engine `n` reads its next entry as an ordinary load at its home, which corrects errors (R72, R399): what it
finds, and the state after the read; none while the line is absent or the home takes no arrivals.  An entry whose address
has no home fails (R379), and a poisoned entry fails as an invalid one does (assumption 48). -/
def State.walkRead (s : State) (w : Walk) : Option (Walked × State) :=
  let a := w.entryAt
  if (s.homeOf a).isNone then some (.fault 4 0x100, s)
  else if w.level == 1 && decide (w.root.toNat % 2 ^ 14 ≠ 0) then some (.fault 4 0, s)
  else if !s.present a || !s.homeTakes 4096 a (some w.id) then none
  else
    let r := s.homeRead 4096 a 8 w.id
    some (if r.1.2 then .fault 4 0 else w.check r.1.1, r.2)

/-- Fills a core's translation buffer; a full buffer displaces an entry of its choice (R73). -/
def State.fillTlb (s : State) (c : Nat) (e : Tlb) : State :=
  let l := (s.core c).tlb.filter fun x => !(x.base == e.base && x.bits == e.bits && x.asp == e.asp)
  if l.length < 128 then s.modCore c fun x => { x with tlb := l ++ [e] }
  else (s.modCore c fun x => { x with tlb := l.eraseIdx (Config.freeNat s.free % 128) ++ [e] }).bump

/-- Gives a walk's fault to a waiter: the thread of a slot that still waits for it, a sluice command (0x10000 + its name), a task's
reply (0x1000 + handle), or an access to a command image (0x2000) (R68, R76, R133, R367). -/
def State.walkFault (s : State) (c w asp page cause d : Nat) : State :=
  if w < 16 then s.modSlot c w fun t =>
    if t.missed = some (page, asp) then { t with walkRes := t.walkRes ++ [(page, asp, cause, d)] } else t
  else if w = 0x2000 then s.modCore c fun x => { x with slWalk := some (page, cause, d) }
  else if 0x10000 ≤ w then
    s.modCore c fun x => { x with slcmds := x.slcmds.map fun q => if q.uid = w - 0x10000 then { q with walkRes := some (page, cause, d) } else q }
  else s.modTask c (w - 0x1000) fun t => { t with walkRes := some page }

/-- An engine is free: the misses at the head of the FIFO join the walk in flight for their page, or take the engine (R74).
Walks started are counted at the core of the miss (R408). -/
def State.startWalks (s : State) (h : Nat) (l : List QMiss) : State :=
  match l with
  | [] => s.modHub h fun x => { x with fifo := [] }
  | m :: r =>
    match (s.hub h).takeMiss m s.nextId with
    | some x =>
      let s' := { s with nextId := s.nextId + 1 }.modHub h fun _ => x
      State.startWalks (if x.walks.length = (s.hub h).walks.length then s' else s'.countIn m.waiter.1 10 none 1) h r
    | none => s.modHub h fun x => { x with fifo := m :: r }

/-- A walk ends: its engine takes the next miss. -/
def State.endWalk (s : State) (h n : Nat) : State :=
  let s := s.modHub h fun x => { x with walks := x.walks.eraseIdx n }
  s.startWalks h (s.hub h).fifo

/-- One step of a walk of cluster `h`: its next entry is read; at a leaf or a fault the walk ends and its waiters take the
result, and a walk that a TLBINV has overtaken fills nothing (R72, R74, R75). -/
def State.walkStep (s : State) (h n : Nat) : State :=
  match (s.hub h).walks[n]? with
  | none => s
  | some w =>
    match s.walkRead w with
    | none => s.arrives 4096 w.entryAt w.id
    | some (.down t, s) => s.modHub h fun x => { x with walks := x.walks.set n { w with table := t, level := w.level + 1 } }
    | some (.leaf e, s) =>
      let s := s.endWalk h n
      if w.stale then s else w.waiters.foldl (fun s q => s.fillTlb q.1 e) s
    | some (.fault cause d, s) =>
      let s := s.endWalk h n
      if w.stale then s else w.waiters.foldl (fun s q => s.walkFault q.1 q.2 w.asp w.page cause d) s

/-- WALK_COMPLETE (R72 to R75): a walk takes its next step; the last one fills the buffers or faults. -/
def execWalkComplete (cluster n : Nat) (s : State) : Result := .next (s.walkStep cluster n)

end Sys2Proof.Machine
end

