-- ==== Sys2Proof/Machine/SluiceBase.lean ====
section
/-! DEFINITION. What every sluice command shares (chapter 04): the context it translates with, claims and presence, failure
and discard, batches and barrier arrivals. -/

namespace Sys2Proof.Machine

/-! ### Commands of a core -/

/-- The command of a core with a name: numbers come again after 256 issues (R117). -/
def State.slCmd (s : State) (c uid : Nat) : Option SlCmd := (s.core c).slcmds.find? fun q => q.uid == uid
/-- Replaces a command. -/
def State.setSl (s : State) (c : Nat) (q : SlCmd) : State :=
  s.modCore c fun x => { x with slcmds := x.slcmds.map fun p => if p.uid = q.uid then q else p }
/-- Removes a command. -/
def State.dropSl (s : State) (c : Nat) (q : SlCmd) : State :=
  s.modCore c fun x => { x with slcmds := x.slcmds.filter fun p => p.uid != q.uid }

/-- How a step of the sluice ends when it does not go on: it waits, for a walk of a page, at a place under a name, or for another
event, or its command fails with a status and EADDR. -/
inductive SlStop where
  | wait
  | at_ (pa id : Nat)
  | walk (w : Want)
  | fail (status va : Nat)
  deriving DecidableEq, Repr

/-- The context a command translates with (R68, R111). -/
def SlCmd.ctx (q : SlCmd) (c : Nat) : Ctx := { core := c, task := q.task, root := q.root, asp := q.asp.toNat, privS := q.privS }

/-- The status of a failed address (R127): TRANS, PERM, NOHOME or REVOKED. -/
def slStatus (cause d : Nat) : Nat := if cause = 7 then 7 else if cause = 5 then 2 else if d = 0x100 then 3 else 1

/-- Resolves an address in a context; `known` is the fault of a walk that has ended. -/
def State.slResolve (s : State) (x : Ctx) (known : Option (Nat × Nat × Nat)) (va : Nat) (a : Acc) : Except SlStop Loc :=
  let va := va % 2 ^ 64
  match s.resolve x (w64 va) a with
  | .ok l =>
    (match regionOf l.pa, a with
     | .host _, .load => .ok l
     | .host _, _ => .error (.fail 2 va)
     | _, _ => .ok l)
  | .error (.trap cause d) => .error (.fail (slStatus cause d) va)
  | .error (.walk p) =>
    match known with
    | some (page, cause, d) => if page = p.page then .error (.fail (slStatus cause d) va) else .error (.walk p)
    | none => .error (.walk p)

/-- Resolves an address for a command. -/
def State.slLoc (s : State) (c : Nat) (q : SlCmd) (va : Nat) (a : Acc) : Except SlStop Loc := s.slResolve (q.ctx c) q.walkRes va a

/-! ### Batches, faults, discards (R126, R127, R131, R133) -/

/-- Changes the batches of a command's requester. -/
def State.slBat (s : State) (c : Nat) (q : SlCmd) (f : Batches → Batches) : State := s.modBat c q.slot q.tid f

/-- The thread that a command's fault goes to: the slot named at issue while it runs the task, else the task's thread in the
lowest slot (R380). -/
def State.faultSlot (s : State) (c slot task : Nat) : Option Nat :=
  let t := s.slot c slot
  if t.live && t.task == task && t.wait != .dumping then some slot
  else (s.threadsOf c task).find? fun k => (s.slot c k).wait != .dumping

/-- The flags that a command has raised and the mark of writes discarded enter BSTAT (R98, R101, R127). -/
def State.report (s : State) (c : Nat) (q : SlCmd) : State :=
  s.slBat c q fun b => { b with flags := b.flags ||| q.flags, disc := b.disc || q.disc }

/-- The arrival that a command sends to its barrier object's home with `n` bytes (R129, R130): an access of slot 16 + that of the
requester, whose `seq` names the command. -/
def State.arriveAt (s : State) (c : Nat) (q : SlCmd) (pa n : Nat) : State :=
  let va := look 0 q.desc 6
  { s with flights := s.flights ++ [{ id := s.nextId, core := c, slot := 16 + q.slot, tid := 2 ^ 40 + s.nextId, task := q.task, va := va,
                                      pa := pa, size := 16, op := .bararr n, topinf := (s.core c).topinf, privS := q.privS,
                                      seq := q.uid, polder := polderSlot va.toNat, page := q.barPage }],
           nextId := s.nextId + 1 }

/-- The command's arrival, where it names an object that has resolved (R129). -/
def State.slArrive (s : State) (c : Nat) (q : SlCmd) (n : Nat) : State :=
  match q.bar with
  | some pa => if q.fl % 2 = 1 then s.arriveAt c q pa n else s
  | none => s

/-- An arrival of a command of one of these slots, or of a task, is still to be performed, and its line is present. -/
def State.arriving (s : State) (c : Nat) (p : Flight → Bool) : Bool :=
  s.flights.any fun f => f.core == c && decide (16 ≤ f.slot) && f.stage == .sent && s.present f.pa && p f && (match f.op with | .bararr _ => true | _ => false)

/-- Sets those lines present that are absent under command `num` of core `c`. -/
def State.presentLines (s : State) (c num : Nat) (l : List Nat) : State :=
  { s with absent := s.absent.filter fun p => !(l.contains p.1 && p.2 == (c, num, false)) }

/-- A command ends: it leaves the sluice, and its batch's count. -/
def State.endSl (s : State) (c : Nat) (q : SlCmd) : State := (s.slBat c q fun b => b.sub q.batch.toNat).dropSl c q

/-- The part of a discard that the command's round sees: a discarded sender ends its own stream, with CUT in the round's
records, and a discarded receipt is dropped (R324). -/
def State.leaveRound (s : State) (c : Nat) (q : SlCmd) : State :=
  match q.round with
  | none => s
  | some k =>
    let g := fieldN q.op1 0 6
    s.modGroup g fun x =>
      match find x.rounds k with
      | none => x
      | some r =>
      if r.cut then x else
      let r := if q.cmd = 7 then { r with taken := insNat c r.taken }
        else
          let st := look {} r.streams c
          let r := if r.sent.contains c then r else
            { r with streams := put r.streams c { st with ended := true }, sent := insNat c r.sent,
                     flags := r.flags ||| 128, drops := r.drops + q.drops }
          if q.cmd = 8 then { r with taken := insNat c r.taken } else r
      { x with rounds := put x.rounds k r }

/-- A discard (R133): an arrival with 0 bytes where SLBAR has resolved, the claimed lines present, FAILED and DISCARDED in
BSTAT, the count gone. -/
def State.discardSl (s : State) (c : Nat) (q : SlCmd) : State :=
  let s := (s.report c q).leaveRound c q
  let s := s.slArrive c q 0
  let s := s.presentLines c q.num q.claimed
  (s.slBat c q fun b => b.fail q.batch 9).endSl c q

/-- COPYFAULT or MERGEFAULT reaches a thread of the task, or the command's requester has gone: the failed command is
discarded, and the task's reply carries the cause (R380). -/
def State.postFault (s : State) (c slot task cause va stat : Nat) : State :=
  let p : Post := ⟨cause, w64 va, w64 stat⟩
  match s.faultSlot c slot task with
  | some k => s.modSlot c k fun t => if cause = 0x0D then { t with pendCopy := t.pendCopy ++ [p] } else { t with pendMerge := t.pendMerge ++ [p] }
  | none => s.modTask c task fun t => { t with endStatus := cause }

/-- A command fails (R131): it stops with its offset and status, BSTAT takes the failure with the flags raised so far, COPYFAULT is
delivered. -/
def State.failSl (s : State) (c uid status va : Nat) : State :=
  match s.slCmd c uid with
  | none => s
  | some q =>
    let gone := (s.faultSlot c q.slot q.task).isNone
    let s := s.report c q
    let q := { q with stopped := true, status := status, walkRes := none, idx := none, val := none, flags := 0, disc := false }
    let s := (s.setSl c q).slBat c q fun b => b.fail q.batch status
    let s := s.postFault c q.slot q.task 0x0D va (status + q.num * 256)
    if gone then s.discardSl c q else s

/-- What an attempted step of a command comes to: none when nothing changes.  It fails once every write that it has sent has been
performed (R131). -/
def State.slTry (s : State) (c uid : Nat) (r : Except SlStop State) : Option State :=
  match r with
  | .ok s => some s
  | .error .wait => none
  | .error (.at_ pa id) => some (s.arrives c pa id)
  | .error (.fail status va) =>
    (match s.slCmd c uid with
     | none => none
     | some q => if q.pend.isEmpty then some (s.failSl c uid status va) else none)
  | .error (.walk p) =>
    match s.slCmd c uid with
    | none => none
    | some q =>
      if s.walking c (0x10000 + uid) q.asp.toNat p.page then none else some (s.requestWalk c (0x10000 + uid) q.asp.toNat q.root p)

/-- A count that stands in an image returns to its batch, or is counted anew in the batch of another thread. -/
def Batches.back (b : Batches) (n : Nat) : Batches :=
  let k := look 0 b.imaged n
  if k = 0 then b.add n else { b with imaged := if k = 1 then del b.imaged n else put b.imaged n (k - 1) }

/-- The lines held for an image entry pass to command `num` of core `c` without becoming present (R125). -/
def State.takeLines (s : State) (origin old c num : Nat) : State × List Nat :=
  ({ s with absent := s.absent.map fun p => if p.2 = (origin, old, true) then (p.1, (c, num, false)) else p },
   (s.absent.filter fun p => p.2 == (origin, old, true)).map Prod.fst)

/-! ### The barrier object (R129) -/

/-- Resolves SLBAR of a command with fl[0] set: BADDESC, arriving nowhere, when it is unaligned or no scratchpad. -/
def State.slBar (s : State) (c : Nat) (q : SlCmd) : Except SlStop (Option Loc) := do
  if q.fl % 2 = 0 then pure none
  else
    let a := (look 0 q.desc 6).toNat
    if a % 16 ≠ 0 then .error (.fail 4 0)
    else
      let l ← s.slLoc c q a .store
      if isScratch l.pa then pure (some l) else .error (.fail 4 0)

/-- The command with its barrier object. -/
def SlCmd.withBar (q : SlCmd) (b : Option Loc) : SlCmd := { q with bar := b.map Loc.pa, barPage := b.bind Loc.page }

/-! ### Claims (R123, R125) -/

/-- An earlier command of the same core still has to claim one of these lines. -/
def State.claimBehind (s : State) (c : Nat) (q : SlCmd) (lines : List Nat) : Bool :=
  ((s.core c).slcmds.takeWhile fun p => p.uid != q.uid).any fun p =>
    p.started && !p.stopped && p.toClaim.any fun h => h.2.any lines.contains

/-- The claim of a command's lines at one home in one step: presence clears (R123). -/
def State.claimHome (s : State) (c : Nat) (q : SlCmd) (home : Nat) (lines : List Nat) : State :=
  let s := s.takeAt c (lines.headD 0 * 64) q.uid
  ({ s with absent := lines.foldl (fun m l => put m l (c, q.num, false)) s.absent }).setSl c
    { q with toClaim := q.toClaim.filter fun h => h.1 != home, claimed := lines.foldl (fun l x => insNat x l) q.claimed }

/-- A command can claim its lines at a home now (R123). -/
def State.mayClaim (s : State) (c : Nat) (q : SlCmd) (h : Nat × List Nat) : Bool :=
  (h.2.all fun l => s.present (l * 64)) && !s.claimBehind c q h.2 && s.homeTakes c (h.2.headD 0 * 64) (some q.uid)

/-- The first home whose lines a command can claim now. -/
def State.claimable (s : State) (c : Nat) (q : SlCmd) : Option (Nat × List Nat) := q.toClaim.find? (s.mayClaim c q)

/-- Groups lines by their homes, in order. -/
def State.byHome (s : State) (lines : List Nat) : List (Nat × List Nat) :=
  lines.foldl (fun g l =>
    let h := (s.homeOf (l * 64)).getD homeMgmt
    if g.any fun x => x.1 == h then g.map fun x => if x.1 = h then (h, x.2 ++ [l]) else x else g ++ [(h, [l])]) []

/-! ### Elements (R97, R98, R115) -/

/-- Bytes that one access of a side moves: its width, or a doubleword for TAP6. -/
def unitOf (w : Nat) : Nat := if w = 0 then 8 else w

/-- Element `k` of a side of width code `w` from address `a`: its doubleword and code for TAP6 codes, else its address. -/
def elemAt (a w k : Nat) : Nat × Nat := if w = 0 then ((a + k / 10 * 8) % 2 ^ 64, k % 10) else ((a + k * unitOf w) % 2 ^ 64, 0)

/-- The width code of a format: bytes; 0 for TAP6 codes. -/
def fmtWidth (f : Fmt) (esz : Nat) : Nat := match f with | .raw => 2 ^ esz | .tap6 => 0 | f => f.bytes

/-- Width codes of source and destination (R97, R115): beside a RAW side, TAP6 moves whole doublewords. -/
def sideWidths (sf df : Fmt) (esz : Nat) : Nat × Nat :=
  let whole (f : Fmt) : Nat := if f = .tap6 then 8 else f.bytes
  match sf, df with
  | .raw, .raw => (2 ^ esz, 2 ^ esz)
  | .raw, f => (whole f, whole f)
  | f, .raw => (whole f, whole f)
  | f, g => (fmtWidth f esz, fmtWidth g esz)

/-- Format and scale of a side at an address: the governing BFMT in a scratchpad, else the command's (R115). -/
def State.sideFmt (s : State) (q : SlCmd) (src : Bool) (pa : Nat) : Fmt × Int :=
  if isScratch pa then (bfmtFmt (s.bfmtAt pa), bfmtScale (s.bfmtAt pa))
  else
    let f := look 0 q.desc 4
    if src then (Fmt.ofCode (fieldN f 0 3), toSigned 8 (fieldN f 8 8)) else (Fmt.ofCode (fieldN f 3 3), toSigned 8 (fieldN f 16 8))

/-- A sluice conversion of one element (R97, R98): the bits unchanged where formats, and scales of tapered formats, agree or
either side is RAW.  `ti` is the core's TOPINF as the element is read, `tw` as it is written. -/
def convertElem (sf df : Fmt × Int) (ti tw : Bool) (x : Nat) : Nat × Flags :=
  if sf.1 = .raw ∨ df.1 = .raw ∨ (sf.1 = df.1 ∧ (¬ sf.1.tapered ∨ sf.2 = df.2)) then (x, 0)
  else encodeNum df.1 .rne false true tw df.2 (decodeNum sf.1 ti sf.2 x)

/-! ### Writes (R101, R118, R400, R403) -/

/-- Marks what the last write to a peer port carries: the sender's TOPINF and a poison mark (R101, R400). -/
def State.markOut (s : State) (ti poison : Bool) : State :=
  match s.out.getLast? with
  | some o => { s with out := s.out.dropLast ++ [{ o with topinf := ti, poison := poison }] }
  | none => s

/-- One write of a sluice at its home, under a name and a TOPINF, and whether it was discarded: under another TOPINF (R101); else
performed, with poison that its data carry, that a link brings (R403), or that stands where the write changes only a `part` of the
granule (R400).  `none` while the write waits. -/
def State.sluiceWrite (s : State) (c pa id : Nat) (ti : Bool) (l : List Byte) (poison part : Bool) : Option (State × Bool) :=
  if s.discards c ti pa then some ((s.discardWrite c pa).takeAt c pa id, true)
  else
    let was := part && s.poisoned pa l.length
    let x := s.crossLink (s.linkOf c pa)
    (x.2.homeWrite pa l).map fun s =>
      let s := (s.takeAt c pa id).countIn c 6 none l.length
      let bad := poison || x.1
      (match regionOf pa with
       | .peer _ => s.markOut ti bad
       | _ => if inMemory pa && (bad || was) then s.addPoison pa l.length else s, false)

/-- NV, OF, UF, NX of a conversion, as BSTAT.FLAGS orders them (R127). -/
def copyFlags (f : Flags) : BitVec 4 := BitVec.ofNat 4 (b2n (bitAt f 4) * 8 + b2n (bitAt f 2) * 4 + b2n (bitAt f 1) * 2 + b2n (bitAt f 0))

end Sys2Proof.Machine
end

