-- ==== Sys2Proof/Machine/WeirBase.lean ====
section
/-! DEFINITION. The reduction plane (chapter 13): the tree of weirs, streams and rounds, the merge, delivery, cuts. -/

namespace Sys2Proof.Machine

/-! ### The tree (R302, R303) -/

/-- Hubs by number: cluster hub `c / 16` of its cores, die hub 256 + die, package hub 260.  Inputs of a hub. -/
def hubInputs (h : Nat) : Nat := if h < 256 then 16 else if h < 260 then 36 else 4
/-- Levels of a hub's tree. -/
def hubLevels (h : Nat) : Nat := if h < 256 then 4 else if h < 260 then 6 else 2
/-- Nodes at a level. -/
def levelNodes (h l : Nat) : Nat := (hubInputs h + 2 ^ l - 1) / 2 ^ l
/-- The number of the weir at level `l`, node `j` of a hub. -/
def weirId (h l j : Nat) : Nat := 0x10000 + h * 4096 + l * 64 + j
/-- A weir stands at a node: the level below has both of its inputs (R303). -/
def weirAt (h l j : Nat) : Bool := decide (1 ≤ l) && decide (l ≤ hubLevels h) && decide (2 * j + 1 < levelNodes h (l - 1))

/-- The stream that node `j` of level `l` puts out, over the hub's inputs `inp`: a lone last node passes up (R303). -/
def nodeStream (inp : Nat → Nat) (h l j : Nat) : Nat :=
  match l with
  | 0 => inp j
  | k + 1 => if weirAt h (k + 1) j then weirId h (k + 1) j else nodeStream inp h k (2 * j)

/-- Input `i` of a cluster hub is a core's stream. -/
def clusterIn (h i : Nat) : Nat := h * 16 + i
/-- Input `i` of a die hub is the output of its cluster hub `i`. -/
def dieIn (h i : Nat) : Nat := let k := (h - 256) * 64 + i; nodeStream (clusterIn k) k 4 0
/-- Input `i` of the package hub is the output of die hub `i`. -/
def packageIn (i : Nat) : Nat := nodeStream (dieIn (256 + i)) (256 + i) 6 0
/-- Input `i` of a hub. -/
def hubIn (h i : Nat) : Nat := if h < 256 then clusterIn h i else if h < 260 then dieIn h i else packageIn i
/-- The module's result: the output of the package hub. -/
def moduleStream : Nat := weirId 260 2 0
/-- The stream that arrives from peer port `p`, and the weir that merges it (R322). -/
def peerStream (p : Nat) : Nat := 0x400000 + p
/-- The weir of a peer port. -/
def peerWeir (p : Nat) : Nat := 0x500000 + p

/-- Ports that carry a group's rounds, ascending. -/
def Group.ports (g : Group) : List Nat := (upto 0 8).filter fun p => Nat.testBit g.peers p
/-- The stream that a group's receivers read. -/
def Group.result (g : Group) : Nat := match g.ports.getLast? with | some p => peerWeir p | none => moduleStream

/-- The two inputs of a weir of a group. -/
def Group.inputs (g : Group) (n : Nat) : Option (Nat × Nat) :=
  if 0x500000 ≤ n then
    let p := n - 0x500000
    if g.ports.contains p then
      some (match (g.ports.takeWhile fun x => x != p).getLast? with | some x => peerWeir x | none => moduleStream, peerStream p)
    else none
  else if 0x10000 ≤ n ∧ n < 0x400000 then
    let h := (n - 0x10000) / 4096
    let l := n / 64 % 64
    let j := n % 64
    if h ≤ 260 && weirAt h l j then some (nodeStream (hubIn h) h (l - 1) (2 * j), nodeStream (hubIn h) h (l - 1) (2 * j + 1)) else none
  else none

/-- A core lies below a stream of the module's tree. -/
def under (n c : Nat) : Bool :=
  if n < 0x10000 then n == c
  else
    let h := (n - 0x10000) / 4096
    let l := n / 64 % 64
    let j := n % 64
    if h < 256 then c / 16 == h && c % 16 / 2 ^ l == j
    else if h < 260 then c / 1024 == h - 256 && c / 16 % 64 / 2 ^ l == j
    else c / 1024 / 2 ^ l == j

/-- A side with no member below it is an empty stream (R303). -/
def Group.fed (g : Group) (n : Nat) : Bool := decide (0x400000 ≤ n) || g.members.any (under n)

/-! ### Streams (R305, R308) -/

/-- Entries, 64-bit words, of a stream that a weir's input buffer holds (R304, R305). -/
def Stream.entries (x : Stream) : Nat := (x.load.map Prod.snd).foldl (· + ·) 0
/-- `n` more words of window `q` enter the buffer. -/
def Stream.held (x : Stream) (q n : Nat) : Stream := { x with load := put x.load q (look 0 x.load q + n) }
/-- A stream has passed a window, or ended. -/
def Stream.passed (x : Stream) (q : Nat) : Bool := x.ended || decide (q < x.floor)

/-- The stream `n` of a round: an empty one where no member lies below. -/
def Round.stream (r : Round) (g : Group) (n : Nat) : Stream := if g.fed n then look {} r.streams n else { ended := true }

/-- Puts an index of a stream, dense or sparse; index 64q + 63 passes window q (R308). -/
def Stream.add (x : Stream) (i : Nat) (v : W32) (dense : Bool) : Stream :=
  let w := look (false, []) x.wins (i / 64)
  { x with wins := put x.wins (i / 64) (w.1 || dense, put w.2 (i % 64) v), floor := (i + 1) / 64 }

/-- A dense segment carries a window even where its mask selects nothing of it (R308). -/
def Stream.touch (x : Stream) (q : Nat) : Stream := { x with wins := put x.wins q (true, (look (false, []) x.wins q).2), floor := q }

/-- The last index of a window has come, present or absent (R306, R308). -/
def Stream.pass (x : Stream) (q : Nat) : Stream := { x with floor := q + 1 }

/-- Takes word number `i` after the dense header `h` into a stream, with the mask of its window; and the mask after it (R306). -/
def Stream.value (x : Stream) (h : W64) (i : Nat) (mask w : W64) : Stream × W64 :=
  let base := fieldN h 32 30
  let lo : W32 := w.setWidth 32
  let hi : W32 := w32 (fieldN w 32 32)
  if bitAt h 16 then
    let win := base / 64 + i / 33
    if i % 33 = 0 then (x.touch win, w)
    else
      let j := 2 * (i % 33 - 1)
      let x := if bitAt mask j then x.add (64 * win + j) lo true else x
      let x := if bitAt mask (j + 1) then x.add (64 * win + j + 1) hi true else x
      (if j = 62 then x.pass win else x, mask)
  else
    let x := x.add (base + 2 * i) lo true
    (if 2 * i + 1 < fieldN h 0 16 then x.add (base + 2 * i + 1) hi true else x, mask)

/-- Words that follow a dense header: value words, and masks where it is masked (R306). -/
def segWords (h : W64) : Nat := if bitAt h 16 then (fieldN h 0 16 + 63) / 64 * 33 else (fieldN h 0 16 + 1) / 2

/-- Takes the next word of a stream: a sparse pair, a dense header, or a word of the segment that is open (R305, R306). -/
def Stream.word (x : Stream) (w : W64) : Stream :=
  match x.hdr with
  | none =>
    let i := fieldN w 32 30
    if fieldN w 62 2 = 0 then (x.add i (w.setWidth 32) false).held (i / 64) 1
    else if fieldN w 62 2 = 1 then { x.held (i / 64) 1 with hdr := if segWords w = 0 then none else some w, seg := 0, mask := 0 }
    else x
  | some h =>
    let base := fieldN h 32 30
    let v := x.value h x.seg x.mask w
    { v.1.held (if bitAt h 16 then base / 64 + x.seg / 33 else (base + 2 * x.seg) / 64) 1 with
      seg := x.seg + 1, mask := v.2, hdr := if x.seg + 1 = segWords h then none else some h }

/-- FLAGS bits of a receive record (R318). -/
def recFlags (f : Flags) : Nat := b2n (bitAt f 2) * 2 + b2n (bitAt f 4) * 8 + b2n (bitAt f 0) * 16 + b2n (bitAt f 1) * 32

/-- add(l, r, mode): left + right, and the flags to the round (R309). -/
def weirAdd (mode : Nat) (l r : W32) : W32 × Nat :=
  if mode = 0 then
    let x := fadd .rne false l.toNat r.toNat
    (w32 x.1, recFlags x.2)
  else
    let x := l.toInt + r.toInt
    if x < -(2 ^ 31) then (BitVec.ofInt 32 (-(2 ^ 31)), 4) else if 2 ^ 31 - 1 < x then (BitVec.ofInt 32 (2 ^ 31 - 1), 4) else (BitVec.ofInt 32 x, 0)

/-- Merges window `q` of two inputs: the present indices with their values, and the flags (R308). -/
def mergeWin (mode : Nat) (l r : Map W32) : Map W32 × Nat :=
  (upto 0 64).foldl (fun (m, f) i =>
    match find l i, find r i with
    | some a, some b => let x := weirAdd mode a b; (put m i x.1, f ||| x.2)
    | some a, none => (put m i a, f)
    | none, some b => (put m i b, f)
    | none, none => (m, f)) ([], 0)

/-- The least window that two streams hold. -/
def nextWin (l r : Stream) : Option Nat :=
  match l.wins, r.wins with
  | (a, _) :: _, (b, _) :: _ => some (Nat.min a b)
  | (a, _) :: _, [] => some a
  | [], (b, _) :: _ => some b
  | [], [] => none

/-- The least window that a stream may still bring. -/
def floorMin (l r : Stream) : Nat := if l.ended then r.floor else if r.ended then l.floor else Nat.min l.floor r.floor

/-- The windows of a stream that a weir has still to take. -/
def Stream.from_ (x : Stream) (n : Nat) : Stream :=
  { x with wins := x.wins.filter fun w => decide (n ≤ w.1), load := x.load.filter fun w => decide (n ≤ w.1) }

/-- A weir has taken window `q` of an input: its words leave the buffer. -/
def Stream.take (x : Stream) (q : Nat) : Stream := { x with wins := del x.wins q, load := x.load.filter fun w => decide (q < w.1) }

/-- A weir puts out window `q`: sparse pairs, or a masked window, which joins the segment of the window before it or opens one
(R308). -/
def Stream.emit (x : Stream) (q : Nat) (dense : Bool) (v : Map W32) : Stream :=
  let joins : Option Nat := match x.tail with | some (p, n) => if p + 1 = q ∧ n < 1023 then some n else none | none => none
  { x with wins := put x.wins q (dense, v), floor := q + 1,
           load := put x.load q (if dense then (if joins.isSome then 33 else 34) else v.length),
           tail := if dense then some (q, joins.getD 0 + 1) else none }

/-- What a weir does in one step on its inputs and its output: the new left, right and output streams, and flags. -/
def weirStep (mode thr : Nat) (l r o : Stream) : Option (Stream × Stream × Stream × Nat) :=
  if o.ended then none else
  match nextWin (l.from_ o.floor) (r.from_ o.floor) with
  | some q =>
    if l.passed q && r.passed q then
      let a := look (false, []) l.wins q
      let b := look (false, []) r.wins q
      let m := mergeWin mode a.2 b.2
      let n := m.1.length
      let dense := decide (thr ≤ n) || a.1 || b.1
      some (l.take q, r.take q, if n = 0 then { o with floor := q + 1 } else o.emit q dense m.1, m.2)
    else if o.floor < floorMin l r ∧ floorMin l r ≤ q then some (l, r, { o with floor := floorMin l r }, 0)
    else none
  | none =>
    if l.ended && r.ended then some (l, r, { o with ended := true }, 0)
    else if o.floor < floorMin l r then some (l, r, { o with floor := floorMin l r }, 0)
    else none

/-! ### Streams as words (R305, R306, R308, R317) -/

/-- The 33 words of a masked window. -/
def winWords (v : Map W32) : List W64 :=
  w64 ((upto 0 64).foldl (fun a i => if (find v i).isSome then a + 2 ^ i else a) 0)
    :: (upto 0 32).map fun j => w64 ((look 0 v (2 * j)).toNat + (look 0 v (2 * j + 1)).toNat * 2 ^ 32)
/-- A masked header. -/
def headerWord (base n : Nat) : W64 := w64 (2 ^ 62 + base * 2 ^ 32 + 2 ^ 16 + 64 * n)
/-- A sparse pair. -/
def pairWord (i : Nat) (v : W32) : W64 := w64 (i * 2 ^ 32 + v.toNat)
/-- An end entry. -/
def endWord (n : Nat) : W64 := w64 (2 ^ 63 + n)

/-- A stream on its way into a buffer: bytes used, present indices written, the writes in their order (offset, word, present
indices that it brings), the open segment
(its offset, base and windows), whether the buffer is full, the bytes that the whole stream needs and its last window. -/
structure Delivery where
  off : Nat := 0
  count : Nat := 0
  writes : List (Nat × W64 × Nat) := []
  seg : Option (Nat × Nat × Nat) := none
  full : Bool := false
  need : Nat := 0
  last : Option (Nat × Nat) := none
  deriving DecidableEq, Repr

/-- A segment closes: its header is written last (R317). -/
def Delivery.close (d : Delivery) : Delivery :=
  match d.seg with
  | some (o, b, n) => { d with writes := d.writes ++ [(o, headerWord b n, 0)], seg := none }
  | none => d

/-- The end entry is written at once (R317). -/
def Delivery.fin (d : Delivery) : Delivery :=
  let d := d.close
  { d with writes := d.writes ++ [(d.off, endWord d.count, 0)], off := d.off + 8, full := true }

/-- Words at consecutive offsets, the first of them bringing `n` present indices. -/
def placeWords (o n : Nat) (l : List W64) : List (Nat × W64 × Nat) :=
  (upto 0 l.length).map fun i => (o + 8 * i, l.getD i 0, if i = 0 then n else 0)

/-- A window joins the delivery into `cap` bytes (R308, R317). -/
def Delivery.window (cap : Nat) (d : Delivery) (w : Nat × (Bool × Map W32)) : Delivery :=
  let q := w.1
  let v := w.2.2
  if w.2.1 then
    let joins := match d.last with | some (p, n) => decide (p + 1 = q) && decide (n < 1023) | none => false
    let d := { d with need := d.need + (if joins then 264 else 272),
                      last := some (q, if joins then (match d.last with | some (_, n) => n + 1 | none => 1) else 1) }
    if d.full then d
    else
      let d := if joins then d else d.close
      let size := if joins then 264 else 272
      if cap < d.off + size + 8 then d.fin
      else
        let o := if joins then d.off else d.off + 8
        { d with writes := d.writes ++ placeWords o v.length (winWords v), off := d.off + size, count := d.count + v.length,
                 seg := match d.seg with | some (a, b, n) => some (a, b, n + 1) | none => some (d.off, 64 * q, 1) }
  else
    let d := { d with need := d.need + 8 * v.length, last := none }
    if d.full then d
    else v.foldl (fun d e =>
      if d.full then d
      else if cap < d.off + 16 then d.fin
      else { d with writes := d.writes ++ [(d.off, pairWord (64 * q + e.1) e.2, 1)], off := d.off + 8, count := d.count + 1 }) d.close

/-- The delivery of what a stream has brought so far, into `cap` bytes. -/
def Stream.deliver (x : Stream) (cap : Nat) : Delivery :=
  let d := x.wins.foldl (Delivery.window cap) {}
  if x.ended then
    let d := { d with need := d.need + 8 }
    if d.full then d else d.fin
  else d

/-- Whether a delivery was cut short: OVFL (R318). -/
def Delivery.overflow (d : Delivery) : Bool := d.off != d.need

/-! ### Rounds -/

/-- Replaces a round of a group. -/
def State.setRound (s : State) (g k : Nat) (r : Round) : State := s.modGroup g fun x => { x with rounds := put x.rounds k r }
/-- A round of a group. -/
def State.round (s : State) (g k : Nat) : Round := look {} (s.group g).rounds k

/-- The round of a command. -/
def SlCmd.group (q : SlCmd) : Nat := fieldN q.op1 0 6

/-- The result stream of a command's round. -/
def State.resultOf (s : State) (q : SlCmd) : Stream := let g := s.group q.group; (s.round q.group (q.round.getD 0)).stream g g.result

/-- The receivers of a round (R312, R314, R319): every member's SLDRED of a dense round waits for the result. -/
def Group.receivers (g : Group) (r : Round) : List Nat :=
  if r.kind = some 1 then g.members else if g.bcast then g.members else [g.root]

/-- The commands of a round on the cores, with their cores. -/
def State.roundCmds (s : State) (g k : Nat) : List (Nat × SlCmd) :=
  s.cores.flatMap fun x => (x.2.slcmds.filter fun q => decide (6 ≤ q.cmd ∧ q.cmd ≤ 8) && q.round == some k && fieldN q.op1 0 6 == g).map fun q => (x.1, q)

/-- SRCFG fields that a command latched (R313). -/
def SlCmd.mode (q : SlCmd) : Nat := if q.cmd = 8 then 0 else fieldN q.srcfg 0 1
/-- THR. -/
def SlCmd.thr (q : SlCmd) : Nat := if q.cmd = 8 then 65 else fieldN q.srcfg 8 7
/-- WDOG in reference ticks. -/
def SlCmd.wdog (q : SlCmd) : Nat := fieldN q.srcfg 48 16 * 65536
/-- SLLEN. -/
def SlCmd.len (q : SlCmd) : Nat := fieldN (look 0 q.desc 0) 0 32

/-- A command of a cut round ends: a receiver and an SLDRED first write their records (R321). -/
def State.cutCmd (s : State) (c : Nat) (q : SlCmd) : State :=
  let d := (s.resultOf q).deliver q.len
  s.setSl c { q with cut := true, stopped := false, toClaim := [], walkRes := none, cutShort := q.cmd == 7 && d.full && d.overflow }

/-- A command of a cut round that stands in an image ends as well (R321): it returns to its sluice for its record, its arrival and its
lines; its image entry is void. -/
def State.cutAway (s : State) (c : Nat) (q : SlCmd) : State :=
  let s := s.modCore c fun x => { x with slGone := insNat q.num x.slGone }
  let r := s.takeLines c q.num c q.num
  let s := (r.1.slBat c q fun b => b.back q.batch.toNat).modCore c fun x => { x with slcmds := x.slcmds ++ [q] }
  s.cutCmd c { q with claimed := r.2 }

/-- The requester of a command that stands in an image is still there. -/
def State.asked (s : State) (c : Nat) (q : SlCmd) : Bool := (s.slot c q.slot).live && (s.slot c q.slot).tid == q.tid

/-- Cuts a round (R321): its commands end as discarded, the weirs drop what they hold, records show the reason, and the drops of
every sender so far.  A command in an image whose requester has gone ends when its entry is issued again. -/
def State.cutRound (s : State) (g k reason code : Nat) : State :=
  let r := s.round g k
  if r.cut then s else
  let on := s.roundCmds g k
  let away := (s.group g).away.filter fun p => p.2.round == some k
  let drops := (on ++ away).foldl (fun n p => if p.2.cmd = 6 ∧ ¬ r.sent.contains p.1 then n + p.2.drops else n) r.drops
  let s := on.foldl (fun s p => s.cutCmd p.1 p.2) s
  let short (q : SlCmd) : SlCmd := let d := (s.resultOf q).deliver q.len; { q with cut := true, cutShort := q.cmd == 7 && d.full && d.overflow }
  let stay := (s.group g).away.map fun p => if p.2.round = some k then (p.1, short p.2) else p
  let s := (away.filter fun p => s.asked p.1 p.2).foldl (fun s p => s.cutAway p.1 p.2) s
  s.modGroup g fun x => { x with
    rounds := put x.rounds k { r with cut := true, code := code, streams := [], flags := r.flags ||| reason, drops := satAt (2 ^ 32 - 1) drops },
    away := stay.filter fun p => !(p.2.round == some k) || !s.asked p.1 p.2 }

/-- MERGEFAULT for the requester of a command of a round whose streams disagree (R320): core, slot, task, command number. -/
def State.postMerge (s : State) (code : Nat) (r : Nat × Nat × Nat × Nat) : State :=
  s.postFault r.1 r.2.1 r.2.2.1 0x15 0 (code + r.2.2.2 * 256)

/-- A round whose streams disagree is cut with MERGE, and the requester of each of its commands receives MERGEFAULT
(R320). -/
def State.mergeFault (s : State) (g k code : Nat) : State :=
  let reqs := (s.round g k).reqs
  reqs.foldl (fun s r => s.postMerge code r) (s.cutRound g k 1024 code)

/-- How a sender's stream differs from the round's (R320): 2 kind, 1 configuration, 3 length; 0 when it agrees. -/
def Round.differs (r : Round) (kind mode thr : Nat) (base : W64) (len : Nat) : Nat :=
  match r.kind with
  | none => 0
  | some x =>
    if x ≠ kind then 2
    else if kind = 0 ∧ (r.mode ≠ mode ∨ r.thr ≠ thr ∨ r.base ≠ base) then 1
    else if kind = 1 ∧ r.len ≠ len then 3 else 0

/-- The limits of R316 that fail a command with BADDESC, or with ALIGN and the address; 0 when it may join. -/
def State.joinFails (s : State) (c : Nat) (q : SlCmd) : Option (Nat × Nat) :=
  let g := s.group (fieldN q.op1 0 6)
  let thr := fieldN q.srcfg 8 7
  let idx := (look 0 q.desc 5).toNat
  let may := if q.cmd = 7 ∧ ¬ g.bcast then g.root == c else g.members.contains c
  let lenBad := if q.cmd = 6 then q.len % 8 != 0 else if q.cmd = 7 then q.len % 8 != 0 || q.len == 0 else q.len == 0 || decide (2 ^ 30 < q.len)
  if 64 ≤ q.op1.toNat ∨ ¬ g.open_ ∨ ¬ may ∨ lenBad ∨ thr = 0 ∨ 65 < thr then some (4, 0)
  else if q.cmd ≠ 8 ∧ q.op2.toNat % 8 ≠ 0 then some (5, q.op2.toNat)
  else if q.cmd ≠ 6 ∧ idx % 8 ≠ 0 then some (5, idx)
  else none

/-- A command joins its round (R312, R321): the k-th sender or receiver of its core joins round k; a round already cut ends
it, with MERGEFAULT where its streams disagreed (R320), and one whose streams disagree now is cut. -/
def State.joinRound (s : State) (c : Nat) (q : SlCmd) : State :=
  let g := fieldN q.op1 0 6
  let x := s.group g
  let k := if q.cmd = 7 then look 0 x.recvs c else look 0 x.sends c
  let s := s.modGroup g fun x => if q.cmd = 7 then { x with recvs := put x.recvs c (k + 1) } else { x with sends := put x.sends c (k + 1) }
  let q := { q with round := some k }
  let s := s.setSl c q
  let r := s.round g k
  if r.cut then
    let s := s.cutCmd c q
    if r.code = 0 then s else s.postMerge r.code (c, q.slot, q.task, q.num)
  else
    let kind := if q.cmd = 8 then 1 else 0
    let r' := { r with reqs := r.reqs ++ [(c, q.slot, q.task, q.num)] }
    if q.cmd = 7 then s.setRound g k r'
    else
      let d := r.differs kind q.mode q.thr q.srbase q.len
      let s := s.setRound g k (if r.kind.isSome then r' else
        { r' with kind := some kind, mode := q.mode, thr := q.thr, base := q.srbase, len := q.len })
      if d = 0 then s else s.mergeFault g k d

end Sys2Proof.Machine
end

