-- ==== Sys2Proof/Machine/Sluice.lean ====
section
/-! DEFINITION. How the sluice runs a command (R115, R118 to R125, R316 to R319): its geometry, its claims, one element at a
time, its completion. -/

namespace Sys2Proof.Machine

/-! ### Geometry (R115, R119, R121, R122) -/

/-- A shadow register as a command latched it. -/
def SlCmd.reg (q : SlCmd) (j : Nat) : Nat := (look 0 q.desc j).toNat
/-- ESZ. -/
def SlCmd.esz (q : SlCmd) : Nat := fieldN (look 0 q.desc 4) 24 2
/-- SLROWS. -/
def SlCmd.rows (q : SlCmd) : Nat := q.reg 1 % 65536
/-- Multicast (R122). -/
def SlCmd.mc (q : SlCmd) : Bool := decide (q.cmd ≤ 1) && Nat.testBit q.fl 1
/-- SLPAT expands (R121). -/
def SlCmd.expand (q : SlCmd) : Bool := Nat.testBit (q.reg 7) 2

/-- Elements of a row. -/
def SlCmd.rowElems (q : SlCmd) : Nat := if q.cmd = 5 then q.len else if q.sw = 0 then q.len / 8 * 10 else q.len / unitOf q.sw

/-- Kept coordinates of a pattern inside SLPAT's tile, in forward order, with their ranks in the window (0, 0, SLROWS, SLLEN)
(R121, R276, R300). -/
def SlCmd.kept (q : SlCmd) : List (Nat × Nat × Nat) :=
  match q.ps.prog with
  | none => []
  | some g =>
    (upto 0 (Nat.min g.r q.rows)).flatMap fun r =>
      ((upto 0 (Nat.min g.c q.len)).filter (g.keep r)).map fun c => (r, c, g.wrank 0 0 q.len r c)

/-- Source address and code of element `i`, `x` its index word; none where SLPAT writes zero (R119 to R121). -/
def SlCmd.srcAt (q : SlCmd) (i x : Nat) : Option (Nat × Nat) :=
  let src := q.op2.toNat
  if q.cmd = 1 then
    let m := q.rowElems
    some (elemAt ((src + i / m * q.reg 2) % 2 ^ 64) q.sw (i % m))
  else if q.cmd = 2 then some (elemAt src q.sw x)
  else if q.cmd = 5 then
    if q.expand then
      (match q.ps.prog with
       | some g => if g.keep (i / q.len) (i % q.len) then some (elemAt (q.reg 5) q.sw (g.wrank 0 0 q.len (i / q.len) (i % q.len))) else none
       | none => none)
    else (q.kept[i]?).map fun k => elemAt ((q.op1.toNat + k.1 * q.reg 2) % 2 ^ 64) q.sw k.2.1
  else some (elemAt src q.sw i)

/-- Destination address and code of element `i` before multicast. -/
def SlCmd.dstAt (q : SlCmd) (i x : Nat) : Nat × Nat :=
  let dst := q.op1.toNat
  if q.cmd = 1 then
    let m := q.rowElems
    elemAt ((dst + i / m * q.reg 3) % 2 ^ 64) q.dw (i % m)
  else if q.cmd = 3 then elemAt dst q.dw x
  else if q.cmd = 4 then ((dst + i) % 2 ^ 64, 0)
  else if q.cmd = 5 then
    if q.expand then elemAt ((dst + i / q.len * q.reg 2) % 2 ^ 64) q.dw (i % q.len)
    else (match q.kept[i]? with | some k => elemAt (q.reg 5) q.dw k.2.2 | none => (q.reg 5, 0))
  else elemAt dst q.dw i

/-- Polder slots that a multicast writes (R122). -/
def SlCmd.members (q : SlCmd) : List Nat := (upto 0 64).filter fun m => Nat.testBit (q.reg 7) m

/-- Where an element goes: its address, or its offset in a polder slot within every member slot (R122). -/
def SlCmd.dests (q : SlCmd) (va : Nat) : List Nat :=
  if q.mc then q.members.map fun m => 0x10000000 + m * 2 ^ 19 + va % 2 ^ 19 else [va]

/-- An address lies in the polder window, where a multicast writes (R122).  DESIGN CHOICE: a destination outside it fails the
command with BADDESC, for which the manual names no status. -/
def SlCmd.mcOk (q : SlCmd) (va : Nat) : Bool := !q.mc || (polderSlot va).isSome

/-- First bytes of source and destination (R115). -/
def SlCmd.firsts (q : SlCmd) : Nat × Nat :=
  if q.cmd = 5 then (if q.expand then (q.reg 5, q.op1.toNat) else (q.op1.toNat, q.reg 5))
  else if q.mc then (q.op2.toNat, (q.dests q.op1.toNat).headD q.op1.toNat)
  else (q.op2.toNat, q.op1.toNat)

/-- A copy of no elements (R119). -/
def SlCmd.nothing (q : SlCmd) : Bool := decide (q.len = 0) || ((decide (q.cmd = 1) || decide (q.cmd = 5)) && decide (q.rows = 0))

/-- The alignment that a geometry needs (R115, R119, R151): the misaligned address, or 0 for a length. -/
def SlCmd.misaligned (q : SlCmd) : Option Nat :=
  let (a, b) := q.firsts
  let rowed := (decide (q.cmd = 1) || decide (q.cmd = 5)) && decide (1 < q.rows)
  if a % unitOf q.sw ≠ 0 then some a
  else if b % unitOf q.dw ≠ 0 then some b
  else if q.cmd ≤ 1 ∧ q.len % unitOf q.sw ≠ 0 then some 0
  else if rowed ∧ q.cmd = 1 ∧ q.reg 2 % unitOf q.sw ≠ 0 then some ((a + q.reg 2) % 2 ^ 64)
  else if rowed ∧ q.cmd = 1 ∧ q.reg 3 % unitOf q.dw ≠ 0 then some ((b + q.reg 3) % 2 ^ 64)
  else if rowed ∧ q.cmd = 5 ∧ q.reg 2 % unitOf (if q.expand then q.dw else q.sw) ≠ 0 then some ((q.op1.toNat + q.reg 2) % 2 ^ 64)
  else if (q.cmd = 2 ∨ q.cmd = 3) ∧ q.reg 5 % 4 ≠ 0 then some (q.reg 5)
  else none

/-- The format of a side's first byte; a source that cannot be resolved yet takes the command's format, and fails at its
element. -/
def State.firstFmt (s : State) (c : Nat) (q : SlCmd) (src : Bool) (va : Nat) : Except SlStop Fmt :=
  match s.slLoc c q va (if src then .load else .store) with
  | .ok l => .ok (s.sideFmt q src l.pa).1
  | .error (.fail st a) => if src then .ok (s.sideFmt q true 0).1 else .error (.fail st a)
  | .error e => .error e

/-- The pattern slot that SLPAT names, as it stands (R121, R300).  DESIGN CHOICE: a slot beyond the task's allocation fails the
command with BADDESC, for which the manual names no status. -/
def State.slPattern (s : State) (c : Nat) (q : SlCmd) : Except SlStop PSlot :=
  if q.cmd ≠ 5 then .ok {} else
  match s.patSlot c q.task (q.reg 7 % 4) with
  | none => .error (.fail 4 0)
  | some p =>
    let ps := look {} (s.core c).pslots p
    if ps.prog.isNone then .error (.fail 6 0) else .ok ps

/-- Fixes the geometry of a copy at its first start (R115). -/
def State.slFix (s : State) (c : Nat) (q : SlCmd) : Except SlStop SlCmd := do
  if !q.mcOk q.op1.toNat then .error (.fail 4 0) else pure ()
  let ps ← s.slPattern c q
  let q := { q with ps := ps, fixed := true }
  if q.nothing then pure { q with n := 0, sw := 1, dw := 1 }
  else if q.cmd = 4 then pure { q with n := q.len, sw := 1, dw := 1 }
  else
    let f := q.firsts
    let sf ← s.firstFmt c q true f.1
    let df ← s.firstFmt c q false f.2
    let w := sideWidths sf df q.esz
    let q := { q with sw := w.1, dw := w.2, srcFmt := sf }
    match q.misaligned with
    | some va => .error (.fail 5 va)
    | none => pure { q with n := if q.cmd = 1 then q.rows * q.rowElems else if q.cmd = 0 then q.rowElems
        else if q.cmd = 5 then (if q.expand then q.rows * q.len else q.kept.length) else q.len }

/-- The core receives the result of its group. -/
def State.receives (s : State) (c : Nat) (q : SlCmd) : Bool :=
  let g := s.group (fieldN q.op1 0 6)
  g.bcast || g.root == c

/-- Fixes the element widths of SLDRED's buffer (R319): elements are read to FP32 and written from it. -/
def State.dredFix (s : State) (c : Nat) (q : SlCmd) : Except SlStop SlCmd := do
  let a := q.op2.toNat
  let sf ← s.firstFmt c q true a
  let df ← if s.receives c q then s.firstFmt c q false a else pure sf
  let q := { q with fixed := true, sw := (sideWidths sf .fp32 q.esz).1, dw := (sideWidths .fp32 df q.esz).2, n := q.len }
  if a % unitOf q.sw ≠ 0 ∨ a % unitOf q.dw ≠ 0 then .error (.fail 5 a) else pure q

/-- The places that a command's writes to come go to, as addresses, in order (R118, R122, R317, R319): of an SLRECV those in lines
that its delivery has not finished. -/
def State.writesOf (s : State) (c : Nat) (q : SlCmd) : List Nat :=
  if q.cmd = 7 then ((upto 0 (q.len / 8)).map fun i => (q.op2.toNat + 8 * i) % 2 ^ 64).filter fun va => !q.doneV.contains (va / 64)
  else if q.cmd = 8 then (if s.receives c q then (upto q.given (q.n - q.given)).map fun i => (elemAt q.op2.toNat q.dw i).1 else [])
  else if q.cmd = 3 ∨ q.cmd = 6 then []
  else (upto q.pos (q.n - q.pos)).flatMap fun i => q.dests (q.dstAt i 0).1

/-- What a command claims: lines with how many writes each has to come, the polder slots and pages that the claims pass, and whether
an address has failed at which the command will stop. -/
structure Scan where
  lines : Map Nat := []
  slots : List Nat := []
  pages : List Nat := []
  cut : Bool := false
  deriving DecidableEq, Repr

/-- A write at a place, counted in its line. -/
def Scan.place (m : Scan) (x : Loc) : Scan :=
  let l := x.pa / 64
  if !isScratch x.pa || (m.cut && (find m.lines l).isNone) then m
  else { m with lines := put m.lines l (look 0 m.lines l + 1), slots := x.polder.toList.foldl (fun a i => insNat i a) m.slots,
                pages := x.page.toList.foldl (fun a i => insNat i a) m.pages }

/-- The scratchpad lines of a command's writes (R118).  A polder slot without a mapping is passed over, so that lines at every other
home are claimed (R122); behind another address that fails, only writes into lines already claimed are counted. -/
def State.scanLines (s : State) (c : Nat) (q : SlCmd) (w : List Nat) (m : Scan) : Except SlStop Scan :=
  match w with
  | [] => .ok m
  | va :: r =>
    match s.slLoc c q va .store with
    | .ok x => State.scanLines s c q r (m.place x)
    | .error (.fail 7 _) => State.scanLines s c q r m
    | .error (.walk p) => if m.cut then State.scanLines s c q r m else .error (.walk p)
    | .error _ => State.scanLines s c q r { m with cut := true }

/-- Starts a command, or restarts it after a resume (R118, R129, R132): SLBAR resolves, the geometry is fixed once, and the
lines of its writes to come that it does not hold are to be claimed.  A claim of lines of its own core reaches them at once
(R123). -/
def State.slStart (s : State) (c num : Nat) : Except SlStop State :=
  match s.slCmd c num with
  | none => .ok s
  | some q => do
    let bar ← s.slBar c q
    let q := q.withBar bar
    let q ← if q.fixed ∨ q.cmd = 6 ∨ q.cmd = 7 then pure q else if q.cmd = 8 then s.dredFix c q else s.slFix c q
    let q := if q.off = 0 ∨ 6 ≤ q.cmd then q
      else { q with pos := if 2 ≤ q.cmd then q.off else if q.sw = 0 then q.off / 8 * 10 else q.off / unitOf q.sw, off := 0 }
    let m ← s.scanLines c q (s.writesOf c q) {}
    let lines := (keys m.lines).filter fun l => !q.claimed.contains l
    let q := { q with fixed := true, started := true, left := m.lines, slots := m.slots, pages := m.pages, walkRes := none,
                      toClaim := s.byHome lines }
    let s := s.setSl c q
    match q.toClaim.find? fun h => h.1 == c with
    | some h => pure (if s.mayClaim c q h then s.claimHome c q h.1 h.2 else s)
    | none => pure s

/-- An attempt of a command's start.  One whose SLBAR is unaligned or names no scratchpad arrives nowhere from then on
(R129). -/
def State.slFirst (s : State) (c num : Nat) : Option State :=
  match s.slCmd c num with
  | none => none
  | some q =>
    match s.slBar c q with
    | .error (.fail 4 va) => some ((s.setSl c { q with bar := none, barPage := none }).failSl c num 4 va)
    | _ => s.slTry c num (s.slStart c num)

/-- The next step towards a command's claims: its start, or the claim of one home's lines, which joins the queues of homes that are
frozen (R118, R123, R412). -/
def State.slClaim (s : State) (c num : Nat) : Option State :=
  match s.slCmd c num with
  | none => none
  | some q =>
    if q.stopped || q.cut || (s.core c).dbg.freeze then none
    else if !q.started then s.slFirst c num
    else match s.claimable c q with
      | some h => some (s.claimHome c q h.1 h.2)
      | none => some (q.toClaim.foldl (fun s h => s.arrives c (h.2.headD 0 * 64) q.uid) s)

/-- SLUICE_CLAIM (R123). -/
def execSluiceClaim (core num : Nat) (s : State) : Result := .next ((s.slClaim core num).getD s)

/-! ### Elements of copies (R118 to R122) -/

/-- The line of an access of a command is present, or the command's own (R118). -/
def State.slOpen (s : State) (q : SlCmd) (pa : Nat) : Bool := s.present pa || q.claimed.contains (pa / 64)

/-- Waits until the line of an access is present, unless the command claimed it, and its home takes the access. -/
def State.slAccess (s : State) (c : Nat) (q : SlCmd) (pa : Nat) : Except SlStop Unit :=
  if s.slOpen q pa && s.homeTakes c pa (some q.uid) then .ok () else .error (.at_ pa q.uid)

/-- The same for a read of `n` bytes, which comes after the command's own writes of these bytes. -/
def State.srcReady (s : State) (c : Nat) (q : SlCmd) (pa n : Nat) : Except SlStop Unit :=
  if q.pend.any fun w => decide (w.pa < pa + n) && decide (pa < w.pa + w.val.count * unitOf q.dw) then .error .wait else s.slAccess c q pa

/-- Reads `n` bytes of a source; in a line that the command claimed, the value from before it or the value that it wrote. -/
def State.slRead (s : State) (c : Nat) (q : SlCmd) (pa n : Nat) : (Nat × Bool) × State :=
  let r := s.homeRead c pa n q.uid
  let bytes := (upto 0 n).map fun i => (find q.old (pa + i)).getD (readByte s.mem (pa + i))
  if (upto 0 n).any fun i => (find q.old (pa + i)).isSome then
    ((if Config.freeBit r.2.free then leNat bytes else r.1.1, r.1.2), r.2.bump)
  else r

/-- The doubleword that a TAP6 write changes (R89): what stands there; beyond a peer port, what this module last wrote there, or
else a free value. -/
def State.oldDword (s : State) (pa : Nat) : Nat :=
  match regionOf pa with
  | .peer _ =>
    (match s.out.reverse.find? fun o => o.addr == pa && o.bytes.length == 8 && o.kind == .write with
     | some o => leNat o.bytes
     | none => (Config.freeW64 s.free).toNat)
  | .launch _ _ => 0
  | .mgmt _ => 0
  | .host _ => 0
  | _ => s.loadN pa 8

/-- Element `i` is the last of a run of TAP6 codes, whose doubleword zero codes complete (R119). -/
def SlCmd.lastCode (q : SlCmd) (i : Nat) : Bool :=
  if q.cmd = 3 then false
  else if q.cmd = 1 then i % q.rowElems + 1 == q.rowElems
  else if q.cmd = 5 ∧ q.expand then i % q.len + 1 == q.len
  else i + 1 == q.n

/-- The bytes that the write of element `i` leaves, `count` elements wide: for TAP6 the doubleword, its other codes kept, but for
those that complete the last doubleword of a run (R89, R119). -/
def State.elemBytes (s : State) (q : SlCmd) (pa code i count v : Nat) : List Byte :=
  if q.dw = 0 then
    let d := s.oldDword pa % 2 ^ 60
    let above := d / 2 ^ (6 * code + 6) * 2 ^ (6 * code + 6)
    natLe 8 (d % 2 ^ (6 * code) + v * 2 ^ (6 * code) + (if q.lastCode i then 0 else above))
  else natLe (count * unitOf q.dw) v

/-- What a write of `count` elements into a claimed line does to the command: bytes it overwrites are kept for its own reads, and
the last write of the line sets it present (R118). -/
def State.lineWritten (s : State) (c : Nat) (q : SlCmd) (pa n count : Nat) (before : List Byte) (gone : Bool) : State × SlCmd :=
  let line := pa / 64
  if !q.claimed.contains line then (s, q) else
  let old := (upto 0 n).foldl (fun m i => if (find m (pa + i)).isSome then m else put m (pa + i) (before.getD i 0)) q.old
  let k := look 0 q.left line
  if gone ∨ k ≤ count then
    (s.presentLines c q.num [line], { q with old := old, claimed := rmNat line q.claimed, left := del q.left line })
  else (s, { q with old := old, left := put q.left line (k - count) })

/-- Writes the bits `v` of a sent element at its place, discarded under another TOPINF (R101). -/
def State.slPut (s : State) (c : Nat) (q : SlCmd) (w : SlWrite) (v : Nat) : Option (State × SlCmd) :=
  let bytes := s.elemBytes q w.pa w.code w.elem w.val.count v
  let before := readBytes s.mem w.pa bytes.length
  (s.sluiceWrite c w.pa w.id w.topinf bytes w.val.poison (q.dw == 0 && (w.code != 0 || q.cmd == 3))).map fun r =>
    r.1.lineWritten c { q with disc := q.disc || r.2 } w.pa bytes.length w.val.count before r.2

/-- The index word of an element, read once (R120), with its poison mark (R400).  DESIGN CHOICE: where the manual leaves the order
and the moment of the index reads open, index word i is read just before element i, in ascending i. -/
def State.slIndex (s : State) (c : Nat) (q : SlCmd) : Except SlStop State := do
  let l ← s.slLoc c q (q.reg 5 + 4 * q.pos) .load
  s.srcReady c q l.pa 4
  let r := s.slRead c q l.pa 4
  pure (r.2.setSl c { q with idx := some r.1 })

/-- Elements that one step moves: the bytes of one aligned word, where a copy from a RAW source moves bytes (R97); else one. -/
def SlCmd.span (q : SlCmd) (fmt : Fmt) (src dst : Nat) : Nat :=
  if q.cmd ≤ 1 ∧ fmt = .raw ∧ (q.sw = 1 ∨ q.sw = 2) ∧ q.dw = q.sw then
    let row := if q.cmd = 1 then q.rowElems - q.pos % q.rowElems else q.n - q.pos
    Nat.max 1 (Nat.min row (Nat.min ((4 - dst % 4) / q.sw) ((64 - src % 64) / q.sw)))
  else 1

/-- The source of the next element, read at its home (R99, R118): zero where SLPAT keeps nothing, a byte of SLAUX for SLFILL. -/
def State.readElem (s : State) (c : Nat) (q : SlCmd) : Except SlStop State := do
  let x := q.idx.getD (0, false)
  let ti := (s.core c).topinf
  if q.cmd = 4 then pure (s.setSl c { q with val := some { bits := q.reg 7 / 2 ^ (8 * ((q.op1.toNat + q.pos) % 8)) % 256, topinf := ti } })
  else
    match q.srcAt q.pos x.1 with
    | none => pure (s.setSl c { q with val := some { topinf := ti } })
    | some (va, code) => do
      let l ← s.slLoc c q va .load
      let f := s.sideFmt q true l.pa
      let n := q.span f.1 l.pa (q.dstAt q.pos x.1).1
      s.srcReady c q l.pa (n * unitOf q.sw)
      let r := s.slRead c q l.pa (n * unitOf q.sw)
      pure (r.2.setSl c { q with val := some { bits := if q.sw = 0 then r.1.1 / 2 ^ (6 * code) % 64 else r.1.1, poison := r.1.2 || x.2,
                                               fmt := f.1, scale := f.2, topinf := ti, count := n } })

/-- A side keeps the width that the start fixed (R115): BADDESC where a format has come to have another.  A zero element of SLPAT has
the width that the source's format at the start gives beside the destination's. -/
def State.slWidth (s : State) (q : SlCmd) (w : SlWrite) : Bool :=
  let df := (s.sideFmt q false w.pa).1
  if q.cmd = 4 then true
  else if q.cmd = 5 ∧ (q.srcAt w.elem 0).isNone then (sideWidths q.srcFmt df q.esz).2 == q.dw
  else sideWidths w.val.fmt df q.esz == (q.sw, q.dw)

/-- The element in progress has gone to all its destinations. -/
def SlCmd.elemSent (q : SlCmd) (v : SlVal) : SlCmd := { q with pos := q.pos + v.count, idx := none, val := none }

/-- Sends the element that a command has read to the next of its destinations (R118); after the last the command goes on to the
next element, whether or not the write has been performed (R183). -/
def State.sendElement (s : State) (c : Nat) (q : SlCmd) (v : SlVal) : Except SlStop State := do
  let d := q.dstAt q.pos (q.idx.getD (0, false)).1
  let ds := q.dests d.1
  match ds[v.wrote]? with
  | none => pure (s.setSl c (q.elemSent v))
  | some va =>
    if !q.mcOk d.1 then .error (.fail 4 0) else pure ()
    let l ← s.slLoc c q va .store
    let w : SlWrite := { id := s.nextId, elem := q.pos, val := v, code := d.2, topinf := (s.core c).topinf, pa := l.pa, polder := l.polder, page := l.page }
    let q := { q with pend := q.pend ++ [w] }
    pure ({ s with nextId := s.nextId + 1 }.setSl c
      (if v.wrote + 1 < ds.length then { q with val := some { v with wrote := v.wrote + 1 } } else q.elemSent v))

/-- A sent write can be performed, as far as its line and the command's earlier writes at its home go (R118, R120). -/
def State.writeOpen (s : State) (q : SlCmd) (w : SlWrite) : Bool :=
  s.slOpen q w.pa && !(q.pend.takeWhile fun p => p.id != w.id).any fun p => s.homeOf p.pa == s.homeOf w.pa

/-- A sent write is performed at its home: the element is converted under the destination's format as it stands (R98, R99).  Where
that format has another width, the command fails once every earlier element has been performed (R115). -/
def State.performWrite (s : State) (c : Nat) (q : SlCmd) (w : SlWrite) : Option State :=
  if !s.writeOpen q w || !s.homeTakes c w.pa (some w.id) then some (s.arrives c w.pa w.id)
  else if !s.slWidth q w then
    (if q.pend.any fun p => decide (p.elem < w.elem) then none
     else some ((s.setSl c { q with pos := w.elem, pend := [], idx := none, val := none }).failSl c q.uid 4 0))
  else
    let b := if q.cmd = 4 then (w.val.bits, 0)
      else convertElem (w.val.fmt, w.val.scale) (s.sideFmt q false w.pa) w.val.topinf w.topinf w.val.bits
    (s.slPut c { q with flags := q.flags ||| copyFlags b.2, pend := q.pend.filter fun p => p.id != w.id } w b.1).map fun r => r.1.setSl c r.2

/-- The next access of a copy that its engine sends (R118, R175): the read of an index word, of a source element, or the write of the
element that has been read. -/
def State.copyElem (s : State) (c : Nat) (q : SlCmd) : Except SlStop State :=
  if (q.cmd = 2 ∨ q.cmd = 3) ∧ q.idx.isNone then s.slIndex c q
  else match q.val with
    | none => s.readElem c q
    | some v => s.sendElement c q v

/-! ### Elements of reductions (R306, R307, R317, R319) -/

/-- Changes the stream that core `c` feeds into the round of a command. -/
def State.modLeaf (s : State) (c : Nat) (q : SlCmd) (f : Stream → Stream) : State :=
  let k := q.round.getD 0
  let r := s.round q.group k
  (s.setRound q.group k { r with streams := put r.streams c (f (look {} r.streams c)) }).countIn c 26 none 1

/-- A sender has sent its round: its stream ends with an end entry, and its drop count joins the round's (R307, R318). -/
def State.sendDone (s : State) (c : Nat) (q : SlCmd) : State :=
  let k := q.round.getD 0
  let r := s.round q.group k
  let st := look {} r.streams c
  ((s.setRound q.group k { r with
    streams := put r.streams c { st with ended := true }, sent := insNat c r.sent, drops := satAt (2 ^ 32 - 1) (r.drops + q.drops) }).countIn
      c 26 none 1).setSl c { q with fin := true }

/-- Entries of the module's groups that stand in the buffer of the weir input that takes stream `n` (R304). -/
def State.buffered (s : State) (n : Nat) : Nat :=
  (s.groups.flatMap fun g => g.2.rounds.map fun r => (look {} r.2.streams n).entries).foldl (· + ·) 0

/-- The buffer of the weir that core `c` feeds is full (R304).  DESIGN CHOICE: where all that it holds belongs to one window that has
not passed yet, and that the weir cannot take before (R308), it takes the rest of that window (log entry 71). -/
def State.leafFull (s : State) (c : Nat) (x : Stream) : Bool :=
  decide (64 ≤ s.buffered c) && !(decide (x.load.length = 1) && x.load.all fun w => decide (x.floor ≤ w.1 ∧ w.2 = s.buffered c))

/-- The weir that a core feeds has room for its next entry, and the core's earlier rounds of the group have gone before it
(R304, R312). -/
def State.leafOpen (s : State) (c : Nat) (q : SlCmd) : Bool :=
  let g := s.group q.group
  !q.held && !s.leafFull c (look {} (s.round q.group (q.round.getD 0)).streams c)
    && g.rounds.all fun r => decide (q.round.getD 0 ≤ r.1) || r.2.cut || r.2.sent.contains c

/-- A header that R307 drops. -/
def headerBad (h : W64) (last : Option Nat) : Bool :=
  let base := fieldN h 32 30
  let n := fieldN h 0 16
  decide (fieldN h 17 15 ≠ 0) || (if bitAt h 16 then decide (base % 64 ≠ 0 ∨ n % 64 ≠ 0 ∨ n = 0 ∨ 65472 < n) else decide (n = 0))
    || (match last with | some x => decide (base ≤ x) | none => false) || decide (2 ^ 30 < base + n)

/-- SLSEND takes the word `w` of its stream (R305 to R307). -/
def State.sendWord (s : State) (c : Nat) (q : SlCmd) (w : W64) : State :=
  match q.hdr with
  | none =>
    let tag := fieldN w 62 2
    let i := fieldN w 32 30
    if tag = 2 then s.sendDone c { q with pos := q.pos + 8 }
    else if tag = 0 then
      if (match q.last with | some x => decide (i ≤ x) | none => false) then s.setSl c { q with pos := q.pos + 8, drops := q.drops + 1 }
      else (s.modLeaf c q fun x => x.word w).setSl c { q with pos := q.pos + 8, last := some i }
    else if tag = 3 then s.setSl c { q with pos := q.pos + 8, drops := q.drops + 1 }
    else if q.len < q.pos + 8 + 8 * segWords w then s.sendDone c { q with pos := q.len, drops := q.drops + 1 }
    else if headerBad w q.last then s.setSl c { q with pos := q.pos + 8 + 8 * segWords w, drops := q.drops + 1 }
    else (s.modLeaf c q fun x => x.word w).setSl c { q with pos := q.pos + 8, hdr := some w, seg := 0 }
  | some h =>
    let fin := q.seg + 1 = segWords h
    (s.modLeaf c q fun x => x.word w).setSl c
      { q with pos := q.pos + 8, seg := q.seg + 1, hdr := if fin then none else some h,
               last := if fin then some (fieldN h 32 30 + fieldN h 0 16 - 1) else q.last }

/-- One word of SLSEND's stream; poison cuts the round (R400). -/
def State.sendElem (s : State) (c : Nat) (q : SlCmd) : Except SlStop State := do
  if q.fin then .error .wait
  else if q.len ≤ q.pos then pure (s.sendDone c q)
  else if !s.leafOpen c q then .error .wait
  else
    let l ← s.slLoc c q (q.op2.toNat + q.pos) .load
    s.slAccess c q l.pa
    let r := s.homeRead c l.pa 8 q.uid
    pure (if r.1.2 then r.2.cutRound q.group (q.round.getD 0) 0 0 else r.2.sendWord c q (w64 r.1.1))

/-- One write of a reduction command at an address. -/
def State.redWrite (s : State) (c : Nat) (q : SlCmd) (va : Nat) (bytes : Nat → List Byte) (code : Nat) : Except SlStop (State × SlCmd × Nat) := do
  let l ← s.slLoc c q va .store
  s.slAccess c q l.pa
  match s.sluiceWrite c l.pa q.uid (s.core c).topinf (bytes l.pa) false (q.dw == 0 && code != 0 && q.cmd == 8) with
  | none => .error .wait
  | some (s, d) => pure (s, { q with disc := d || q.disc }, l.pa)

/-- The line at `pa` takes no more words of a delivery, after its write number `n` (R317, R118). -/
def lineDone (d : Delivery) (base n off : Nat) : Bool :=
  let line := (base + off) / 64
  let inLine (o : Nat) : Bool := (base + o) / 64 == line
  (d.full || decide (line * 64 + 64 ≤ base + d.off)) && !((d.writes.drop (n + 1)).any fun w => inLine w.1)
    && (match d.seg with | some (o, _, _) => !inLine o | none => true)

/-- SLRECV writes the next word of its delivery (R317). -/
def State.recvElem (s : State) (c : Nat) (q : SlCmd) : Except SlStop State := do
  let x := s.resultOf q
  let d := x.deliver q.len
  match d.writes[q.given]? with
  | none => if x.ended && !q.fin then pure (s.setSl c { q with fin := true }) else .error .wait
  | some (o, w, n) =>
    let r ← s.redWrite c q (q.op2.toNat + o) (fun _ => natLe 8 w.toNat) 0
    let line := r.2.2 / 64
    let q := { r.2.1 with given := q.given + 1, written := q.written + n }
    pure (if lineDone d q.op2.toNat (q.given - 1) o then
        (r.1.presentLines c q.num [line]).setSl c
          { q with claimed := rmNat line q.claimed, left := del q.left line, doneV := insNat ((q.op2.toNat + o) % 2 ^ 64 / 64) q.doneV }
      else r.1.setSl c q)

/-- SLDRED sends its elements, then takes the result (R319). -/
def State.dredElem (s : State) (c : Nat) (q : SlCmd) : Except SlStop State := do
  if q.pos < q.n then
    if !s.leafOpen c q then .error .wait
    else
      let e := elemAt q.op2.toNat q.sw q.pos
      let l ← s.slLoc c q e.1 .load
      s.slAccess c q l.pa
      let sf := s.sideFmt q true l.pa
      if (sideWidths sf.1 .fp32 q.esz).1 ≠ q.sw then .error (.fail 4 0)
      else
        let r := s.homeRead c l.pa (unitOf q.sw) q.uid
        let v := convertElem sf (.fp32, 0) (s.core c).topinf (s.core c).topinf (if q.sw = 0 then r.1.1 / 2 ^ (6 * e.2) % 64 else r.1.1)
        if r.1.2 then pure (r.2.cutRound q.group (q.round.getD 0) 0 0)
        else
          let q' := { q with pos := q.pos + 1, flags := q.flags ||| copyFlags v.2 }
          let s := r.2.modLeaf c q fun x => (x.add q.pos (w32 v.1) true).held (q.pos / 64) (1 - q.pos % 2)
          pure (if q'.pos = q.n then s.sendDone c q' else s.setSl c q')
  else if s.receives c q ∧ q.given < q.n ∧ (s.resultOf q).passed (q.given / 64) then
    match find (look (false, []) (s.resultOf q).wins (q.given / 64)).2 (q.given % 64) with
    | none => pure (s.setSl c { q with given := q.given + 1 })
    | some v =>
      let e := elemAt q.op2.toNat q.dw q.given
      let l ← s.slLoc c q e.1 .store
      let df := s.sideFmt q false l.pa
      if (sideWidths .fp32 df.1 q.esz).2 ≠ q.dw then .error (.fail 4 0)
      else
        let b := convertElem (.fp32, 0) df (s.core c).topinf (s.core c).topinf v.toNat
        let before := readBytes s.mem l.pa (unitOf q.dw)
        let r ← s.redWrite c q e.1 (fun pa => s.elemBytes q pa e.2 q.given 1 b.1) e.2
        let x := r.1.lineWritten c { r.2.1 with given := q.given + 1, written := q.written + 1, flags := q.flags ||| copyFlags b.2 } r.2.2
          (unitOf q.dw) 1 before (s.discards c (s.core c).topinf l.pa)
        pure (x.1.setSl c x.2)
  else .error .wait

/-- The next access of a command (R118): act 0 is the next that its engine sends, act `k + 1` the performance of the write that
stands `k`-th among those sent.  A stopped command's writes, and a frozen core's, are still performed (R133, R412). -/
def State.slElement (s : State) (c num act : Nat) : Option State :=
  match s.slCmd c num with
  | none => none
  | some q =>
    if 0 < act then (q.pend[act - 1]?).bind (s.performWrite c q)
    else if q.stopped || q.cut || !q.started || !q.toClaim.isEmpty || (s.core c).dbg.freeze then none
    else if q.cmd = 6 then s.slTry c num (s.sendElem c q)
    else if q.cmd = 7 then s.slTry c num (s.recvElem c q)
    else if q.cmd = 8 then s.slTry c num (s.dredElem c q)
    else if q.pos < q.n then s.slTry c num (s.copyElem c q)
    else none

/-- SLUICE_ELEMENT (R118): a command's next access at its homes. -/
def execSluiceElement (core : Nat) (num : SlTurn) (s : State) : Result := .next ((s.slElement core num.uid num.act).getD s)

/-! ### Completion (R118, R126, R129, R318) -/

/-- `⌈n / 10⌉` doublewords of TAP6 codes, in bytes. -/
def tap6Bytes (n : Nat) : Nat := (n + 9) / 10 * 8

/-- Destination bytes that a command has written, which its arrival carries (R129, R316).  DESIGN CHOICE: an SLSCAT into TAP6 counts
the 8 bytes of a doubleword for each element, of which it changes six bits (log entry 72). -/
def State.slBytes (s : State) (c : Nat) (q : SlCmd) : Nat :=
  let members := if q.mc then q.members.length else 1
  if q.cmd = 6 then q.pos
  else if q.cmd = 7 then 8 * q.given
  else if q.cmd = 8 then (if s.receives c q then (if q.dw = 0 then tap6Bytes q.n else q.n * unitOf q.dw) else 0)
  else if q.dw ≠ 0 then q.n * unitOf q.dw * members
  else if q.cmd = 3 then 8 * q.n
  else if q.cmd = 1 then q.rows * tap6Bytes q.rowElems * members
  else if q.cmd = 5 ∧ q.expand then q.rows * tap6Bytes q.len
  else tap6Bytes q.n * members

/-- A command has nothing left to do but to complete. -/
def State.slReady (s : State) (c : Nat) (q : SlCmd) : Bool :=
  if q.cmd = 6 then q.fin
  else if q.cmd = 7 then q.fin
  else if q.cmd = 8 then decide (q.pos = q.n) && (s.resultOf q).ended && (!s.receives c q || decide (q.n ≤ q.given))
  else decide (q.n ≤ q.pos) && q.pend.isEmpty

/-- Bytes of `n` elements of SLDRED's buffer, for NEED; a free value where a cut came before its format could be read (R318,
R319). -/
def State.dredBytes (s : State) (c : Nat) (q : SlCmd) : Nat :=
  match (if q.fixed then .ok q else s.dredFix c q) with
  | .ok q => if q.dw = 0 then tap6Bytes q.len else q.len * unitOf q.dw
  | .error _ => Config.freeNat s.free

/-- The receive record of a command (R318).  What a cut SLRECV's whole output would have needed is not known: a free value. -/
def State.recordOf (s : State) (c : Nat) (q : SlCmd) : List Byte :=
  let g := s.group q.group
  let r := s.round q.group (q.round.getD 0)
  let d := (s.resultOf q).deliver q.len
  let wrote := if q.cmd = 7 then 8 * q.given else if q.cut then (if q.dw = 0 then tap6Bytes q.given else q.given * unitOf q.dw) else s.slBytes c q
  let nodest := q.cmd == 8 && !g.bcast && !g.members.contains g.root
  let need := if q.cmd = 8 then s.dredBytes c q else if q.cut then Config.freeNat s.free else d.need
  let flags := r.flags ||| (if q.cmd = 7 ∧ (if q.cut then q.cutShort else d.overflow) then 1 else 0) ||| (if nodest then 256 else 0)
  natLe 4 flags ++ natLe 4 (satAt (2 ^ 32 - 1) r.drops) ++ natLe 8 need ++ natLe 8 wrote ++ natLe 8 q.written

/-- Writes the four words of a receive record, each resolved with the command's context (R318), and whether one was discarded. -/
def State.putRecord (s : State) (c : Nat) (q : SlCmd) : Except SlStop (State × Bool) := do
  let l := s.recordOf c q
  let locs ← (upto 0 4).mapM fun i => s.slLoc c q (q.reg 5 + 8 * i) .store
  if locs.all fun x => s.slOpen q x.pa && s.homeTakes c x.pa (some q.uid) then
    let r := (upto 0 4).foldl (fun (r : State × Bool) i =>
      match r.1.sluiceWrite c (locs.getD i { pa := 0 }).pa q.uid (s.core c).topinf ((l.drop (8 * i)).take 8) false false with
      | some (s, d) => (s, r.2 || d)
      | none => r) (s, false)
    pure (r.1.bump, r.2)
  else .error (.at_ (locs.headD { pa := 0 }).pa q.uid)

/-- Flags of a round that enter BSTAT: NV, OF, UF, NX (R318). -/
def roundFlags (f : Nat) : BitVec 4 := BitVec.ofNat 4 (b2n (Nat.testBit f 3) * 8 + b2n (Nat.testBit f 1) * 4 + b2n (Nat.testBit f 5) * 2 + b2n (Nat.testBit f 4))

/-- A command that its round's cut ends (R321): SLBAR resolves where it has not yet, an SLRECV or SLDRED writes its record unless
the record's address fails (R318), BSTAT takes the flags reached, and the command is discarded. -/
def State.finishCut (s : State) (c : Nat) (q : SlCmd) : Except SlStop State := do
  let q ← if q.bar.isSome then pure q else match s.slBar c q with
    | .ok b => pure (q.withBar b)
    | .error (.fail _ _) => pure q
    | .error e => .error e
  let r ← if q.cmd = 6 then pure (s, false) else match s.putRecord c q with
    | .ok r => pure r
    | .error (.fail _ _) => pure (s, false)
    | .error e => .error e
  let fl := q.flags ||| (if q.cmd = 6 then 0 else roundFlags (s.round q.group (q.round.getD 0)).flags)
  pure (r.1.discardSl c { q with flags := fl, disc := q.disc || r.2 })

/-- Completion (R118): the record of a receipt, BSTAT, the barrier's arrival, presence, the batch. -/
def State.finishSl (s : State) (c : Nat) (q : SlCmd) : Except SlStop State := do
  let red := q.cmd = 7 ∨ q.cmd = 8
  let rec_ ← if red then s.putRecord c q else pure (s, false)
  let r := s.round q.group (q.round.getD 0)
  let n := s.slBytes c q
  let fl := q.flags ||| (if red then roundFlags r.flags else 0)
  let s := rec_.1.report c { q with flags := fl, disc := q.disc || rec_.2 }
  let s := if red then s.setRound q.group (q.round.getD 0) { r with taken := insNat c r.taken } else s
  pure ((((s.slArrive c q n).presentLines c q.num q.claimed).countIn c 7 none 1).endSl c q)

/-- A command that has ended completes; one that its round's cut ends is discarded. -/
def State.slComplete (s : State) (c num : Nat) : Option State :=
  match s.slCmd c num with
  | none => none
  | some q =>
    if q.stopped || (s.core c).dbg.freeze then none
    else if q.cut then s.slTry c num (s.finishCut c q)
    else if q.started && q.toClaim.isEmpty && s.slReady c q then s.slTry c num (s.finishSl c q)
    else none

/-- SLUICE_COMPLETE (R118). -/
def execSluiceComplete (core num : Nat) (s : State) : Result := .next ((s.slComplete core num).getD s)

end Sys2Proof.Machine
end

