-- ==== Sys2Proof/Machine/SluiceCmd.lean ====
section
/-! DEFINITION. Issuing sluice commands (R109 to R117, R131 to R135): the requester, the copies, quiesce and resume, the status
word, the standard dispatcher. -/

namespace Sys2Proof.Machine

/-! ### Issue (R111, R117) -/

/-- How an attempt to issue a command ends: done, parked with a run state, or parked after a change. -/
inductive SlOut where
  | done (s : State)
  | park (code : Nat)
  | again (s : State) (code : Nat)

/-- The requester that SLREQ names for the next command of a core; the one that an SLQUIESCE or SLRESUME latched, while slot 15 waits
in it (R111). -/
def State.requester (s : State) (c : Nat) : Req :=
  let r := (s.core c).slreq
  let t := s.slot c r.slot
  let own := s.slot c 15
  (s.core c).slHold.getD
    { slot := r.slot, live := t.live, tid := t.tid, task := t.task, batch := if r.open_ then r.batch else t.bat.openN,
      privS := if r.open_ then r.privS else !own.live || own.privS, root := t.ptroot, asp := t.aspace }

/-- SLQUIESCE and SLRESUME are refused as they are issued: slot 15 issues them at U, or under an open request stamped U (R131). -/
def State.slRefused (s : State) (c : Nat) : Bool :=
  let own := s.slot c 15
  (s.core c).slHold.isNone && ((own.live && !own.privS) || ((s.core c).slreq.open_ && !(s.core c).slreq.privS))

/-- A requester's context. -/
def Req.ctx (r : Req) (c : Nat) : Ctx := { core := c, task := r.task, root := r.root, asp := r.asp.toNat, privS := r.privS }

/-- The number of the next command: a counter that advances by one at each issue (R117). -/
def State.slNum (s : State) (c : Nat) : Nat := (s.core c).slnum

/-- An issue under number `n`: the counter advances, and END ends the open request (R111, R117). -/
def State.slNumbered (s : State) (c fl n : Nat) : State :=
  let s := s.modCore c fun x => { x with slnum := (n + 1) % 256 }
  if Nat.testBit fl 2 then s.endRequest c else s

/-- An issue of a command that does not stay in the sluice. -/
def State.slIssued (s : State) (c fl : Nat) : State := s.slNumbered c fl (s.slNum c)

/-- A command joins its round where it is a reduction, and makes its first start; an entry of another core's image fails
(R324). -/
def State.slBegin (s : State) (c uid : Nat) : State :=
  match s.slCmd c uid with
  | none => s
  | some q =>
    let s := if q.cmd < 6 ∨ q.round.isSome then s
      else if q.foreign then s.failSl c uid 4 0
      else match s.joinFails c q with
        | some (st, va) => s.failSl c uid st va
        | none => s.joinRound c q
    match s.slCmd c uid with
    | some q => if q.stopped || q.cut then s else (s.slFirst c uid).getD s
    | none => s

/-- Puts a command of a requester into the sluice: it counts into the batch, latches its descriptor, and starts. -/
def State.slAdd (s : State) (c cmd fl : Nat) (op1 op2 : W64) (r : Req) : State :=
  let x := s.core c
  let num := s.slNum c
  let q : SlCmd := { uid := s.nextId, num := num, cmd := cmd, fl := fl, slot := r.slot, tid := r.tid, task := r.task, batch := r.batch, privS := r.privS,
                     op1 := op1, op2 := op2, desc := x.slsh, root := r.root, asp := r.asp, srcfg := x.srcfg, srbase := x.srbase, time := s.time }
  ({ s with nextId := s.nextId + 1 }.slBat c q fun b => b.add r.batch.toNat).modCore c fun x => { x with slcmds := x.slcmds ++ [q] }

/-- Issues a copy or reduction command (R117); without a requester it ends at once (R111). -/
def State.slIssue (s : State) (c cmd fl : Nat) (op1 op2 : W64) : SlOut :=
  let r := s.requester c
  if 8 ≤ (s.core c).slcmds.length ∨ (s.slot c r.slot).quiesced then .park 8
  else if !r.live then .done (s.slIssued c fl)
  else
    let num := s.slNum c
    .done (((s.slAdd c cmd fl op1 op2 r).slNumbered c fl num).slBegin c s.nextId)

/-! ### SLQUIESCE (R131, R133) -/

/-- Ends an attempt of SLQUIESCE or SLRESUME that has to wait: for a walk, or for another event, with run state `code`.  While
slot 15 waits in the command, its requester and context stay as latched, and it counts into the requester's batch (R111, R126). -/
def State.slWait (s : State) (c : Nat) (r : Req) (code : Nat) (w : Option Want) (changed : Bool) : SlOut :=
  let new := (s.core c).slHold.isNone
  let s := if new then (s.modBat c r.slot r.tid fun b => b.add r.batch.toNat).modCore c fun x => { x with slHold := some r } else s
  match w with
  | some p => if s.walking c 0x2000 r.asp.toNat p.page then (if changed || new then .again s code else .park code)
              else .again (s.requestWalk c 0x2000 r.asp.toNat r.root p) code
  | none => if changed || new then .again s code else .park code

/-- The SLRESUME that slot 15 stands in, by its thread and PC; the standard dispatcher's is one of its own. -/
def State.slHere (s : State) (c : Nat) : Nat × W64 := let t := s.slot c 15; if t.live then (t.tid, t.pc) else (0, 0)

/-- Ends an SLQUIESCE or SLRESUME: what it keeps while it waits goes, its count leaves its batch, its number is used (R111,
R117). -/
def State.slEnd (s : State) (c fl : Nat) : State :=
  ((s.modCore c fun x => { x with slWalk := none, slMail := x.slMail.filter fun m => m.1 != s.slHere c }).slUncount c).slIssued c fl

/-- The recorded offset of a command (R131, R133, R324).  A copy that has failed has no write left to be performed. -/
def SlCmd.offset (q : SlCmd) : Nat :=
  if q.cmd = 6 then q.pos else if q.cmd = 7 then q.given else if q.cmd = 8 then q.pos
  else if q.status = 0 then 0
  else if !q.fixed then q.off
  else if q.cmd ≤ 1 then (if q.sw = 0 then q.pos / 10 * 8 else q.pos * unitOf q.sw)
  else q.pos

/-- A command entry of an image (R133). -/
def SlCmd.entry (q : SlCmd) : List Byte :=
  natLe 1 q.cmd ++ natLe 1 q.fl ++ natLe 1 q.slot ++ natLe 1 (if q.status = 0 then 0 else 1) ++ natLe 2 q.batch.toNat ++ natLe 1 (b2n q.privS)
    ++ natLe 1 q.num ++ natLe 8 q.op1.toNat ++ natLe 8 q.op2.toNat ++ (upto 0 8).flatMap (fun j => natLe 8 (q.reg j)) ++ natLe 8 q.offset

/-- A mail entry of an image (R133). -/
def mailEntry (m : Nat) (b : Mailbox) : List Byte :=
  natLe 1 m ++ natLe 1 b.slot ++ natLe 1 (b2n b.privS) ++ natLe 1 0 ++ natLe 2 b.batch.toNat ++ natLe 2 0
    ++ (upto 0 8).flatMap fun i => natLe 8 (b.words.getD i 0).toNat

/-- Commands and full mailboxes of quiesced slots. -/
def Core.ofSlots (x : Core) (mask : Nat) : List SlCmd × List (Nat × Mailbox) :=
  (x.slcmds.filter fun q => Nat.testBit mask q.slot,
   (upto 0 8).filterMap fun m => let b := look {} x.mail m; if b.full && Nat.testBit mask b.slot then some (m, b) else none)

/-- The command image (R133). -/
def State.slImage (s : State) (c mask : Nat) : List Byte :=
  let l := (s.core c).ofSlots mask
  natLe 2 l.1.length ++ natLe 2 l.2.length ++ natLe 2 mask ++ natLe 2 1 ++ natLe 2 c ++ natLe 6 0
    ++ l.1.flatMap SlCmd.entry ++ l.2.flatMap fun m => mailEntry m.1 m.2

/-- Resolves the lines of an image of `n` bytes. -/
def State.imageLines (s : State) (c : Nat) (r : Req) (a n : Nat) (acc : Acc) : Except SlStop (List Loc) :=
  (upto 0 ((n + 63) / 64)).mapM fun i => s.slResolve (r.ctx c) (s.core c).slWalk (a + 64 * i) acc

/-- A command goes into its image: BSTAT takes its flags and its mark of discarded writes, its batch count stands, its lines stay
absent, held for the entry (R98, R101, R125, R127, R133). -/
def State.slAway (s : State) (c : Nat) (q : SlCmd) : State :=
  let hold (p : Nat × Nat × Nat × Bool) : Nat × Nat × Nat × Bool :=
    if p.2 = (c, q.num, false) ∧ q.claimed.contains p.1 then (p.1, (c, q.num, true)) else p
  let s := { s.report c q with absent := s.absent.map hold }
  let q := { q with flags := 0, disc := false, pend := [] }
  let s := (s.slBat c q fun b => { b with imaged := put b.imaged q.batch.toNat (look 0 b.imaged q.batch.toNat + 1) }).dropSl c q
  let s := s.modCore c fun x => { x with slGone := rmNat q.num x.slGone }
  if 6 ≤ q.cmd then s.modGroup q.group fun x => { x with away := x.away ++ [(c, q)] } else s

/-- A mailbox goes into an image: it is empty, its request's count stands. -/
def State.mailAway (s : State) (c m : Nat) (b : Mailbox) : State :=
  (s.modBat c b.slot b.tid fun x => { x with imaged := put x.imaged b.batch.toNat (look 0 x.imaged b.batch.toNat + 1) }).modCore c
    fun x => { x with mail := del x.mail m }

/-- Writes doublewords of one line from a place on, and whether any was discarded (R101). -/
def State.putDwords (s : State) (c pa n : Nat) (bytes : List Byte) : State × Bool :=
  (upto 0 n).foldl (fun r i =>
    match r.1.sluiceWrite c (pa + 8 * i) 0 (s.core c).topinf ((bytes.drop (8 * i)).take 8) false false with
    | some (s, d) => (s, r.2 || d)
    | none => r) (s, false)

/-- Writes bytes at resolved lines with ordinary writes, none wider than a doubleword (R133, R359), and whether any was
discarded. -/
def State.putLines (s : State) (c : Nat) (l : List Loc) (bytes : List Byte) : State × Bool :=
  match l with
  | [] => (s, false)
  | x :: r =>
    let b := bytes.take 64
    let w := s.putDwords c x.pa ((b.length + 7) / 8) b
    let t := State.putLines w.1 c r (bytes.drop 64)
    (t.1, w.2 || t.2)

/-- Marks slots quiesced and stops their commands (R133). -/
def State.slStop (s : State) (c mask : Nat) : State :=
  let s := (upto 0 16).foldl (fun s k => if Nat.testBit mask k then s.modSlot c k fun t => { t with quiesced := true } else s) s
  s.modCore c fun x => { x with slcmds := x.slcmds.map fun q => if Nat.testBit mask q.slot then { q with stopped := true } else q }

/-- An SLQUIESCE or SLRESUME fails: it ends, and its requester learns of it (R131). -/
def State.slFailNow (s : State) (c fl status va : Nat) : SlOut :=
  let r := s.requester c
  let num := s.slNum c
  let s := s.modBat c r.slot r.tid fun b => b.fail r.batch status
  .done ((s.postFault c r.slot r.task 0x0D va (status + num * 256)).slEnd c fl)

/-- A write that a command of these slots has sent can still be performed.  DESIGN CHOICE: a write held at an absent line is not
waited for, and goes with its command (log entry 73). -/
def State.writing (s : State) (c mask : Nat) : Bool :=
  (s.core c).slcmds.any fun q => Nat.testBit mask q.slot && q.pend.any (s.writeOpen q)

/-- SLQUIESCE (R131, R133).  It waits for writes that its commands have sent, and for arrivals that completed commands of its slots
have sent.  DESIGN CHOICE: an image address that is not 64-byte-aligned fails it with ALIGN and EADDR the address; the manual names no
status for that. -/
def State.slQuiesce (s : State) (c fl : Nat) (op1 op2 : W64) : SlOut :=
  let r := s.requester c
  if !r.live then .done (s.slEnd c fl)
  else if s.slRefused c then s.slFailNow c fl 8 0
  else
    let mask := fieldN op2 0 16
    let changed := ((upto 0 16).any fun k => Nat.testBit mask k && !(s.slot c k).quiesced)
      || ((s.core c).slcmds.any fun q => Nat.testBit mask q.slot && !q.stopped)
    let s := s.slStop c mask
    let l := (s.core c).ofSlots mask
    if s.writing c mask || s.arriving c fun f => Nat.testBit mask (f.slot - 16) then s.slWait c r 8 none changed
    else if Nat.testBit fl 0 then .done ((l.1.foldl (fun s q => s.discardSl c q) s).slEnd c fl)
    else if op1.toNat % 64 ≠ 0 then s.slFailNow c fl 5 op1.toNat
    else
      let bytes := s.slImage c mask
      match s.imageLines c r op1.toNat bytes.length .store with
      | .error (.fail st va) => s.slFailNow c fl st va
      | .error (.walk p) => s.slWait c r 8 (some p) changed
      | .error _ => s.slWait c r 8 none changed
      | .ok locs =>
        if locs.all fun x => s.present x.pa && s.homeOpen c x.pa then
          let w := s.putLines c locs bytes
          let s := w.1.modBat c r.slot r.tid fun b => { b with disc := b.disc || w.2 }
          let s := l.1.foldl (fun s q => s.slAway c q) s
          let s := l.2.foldl (fun s m => s.mailAway c m.1 m.2) s
          .done (s.slEnd c fl)
        else s.slWait c r 8 none changed

/-! ### SLRESUME (R132, R134) -/

/-- Restarts a stopped command (R132). -/
def State.slRestart (s : State) (c : Nat) (q : SlCmd) : State :=
  (s.setSl c { q with stopped := false, status := 0, started := false, walkRes := none, val := none }).slBegin c q.uid

/-- A command as its image entry gives it, under number `num` of the sluice and slot `k` (R134). -/
def State.entryCmd (s : State) (c num k : Nat) (e : List Byte) (held : List Nat) : SlCmd :=
  let x := s.core c
  let t := s.slot c k
  { uid := s.nextId, num := num, cmd := fieldAt e 0 1, fl := fieldAt e 1 1 % 8, slot := k, tid := t.tid, task := t.task,
    batch := BitVec.ofNat 16 (fieldAt e 4 2), privS := Nat.testBit (fieldAt e 6 1) 0, op1 := w64 (fieldAt e 8 8), op2 := w64 (fieldAt e 16 8),
    desc := (upto 0 8).foldl (fun m j => put m j (w64 (fieldAt e (24 + 8 * j) 8))) [], root := t.ptroot, asp := t.aspace,
    srcfg := x.srcfg, srbase := x.srbase, time := s.time, off := fieldAt e 88 8, claimed := held }

/-- The requester of a command that joined a round is now another slot, and its number another (R320). -/
def Round.moved (r : Round) (old new : Nat × Nat × Nat × Nat) : Round :=
  { r with reqs := r.reqs.map fun x => if x.1 = old.1 ∧ x.2.2.2 = old.2.2.2 then new else x }

/-- Re-issues one entry of an image under a mapped slot (R134).  An entry whose command a cut has ended is void (R321); one whose round
was cut while its requester was away comes back for its end.  An entry of a reduction on another core fails, and its command stands in
no image any more (R324).  DESIGN CHOICE: an entry whose mapped slot holds no thread uses a number and is dropped, and the lines held for it stay absent: the
manual gives no case for it. -/
def State.slReissue (s : State) (c origin : Nat) (map : W64) (e : List Byte) : State :=
  let k := fieldN map (4 * (fieldAt e 2 1 % 16)) 4
  let t := s.slot c k
  let num := s.slNum c
  let cmd := fieldAt e 0 1
  let old := fieldAt e 7 1
  if 6 ≤ cmd ∧ c = origin ∧ (s.core c).slGone.contains old then s.modCore c fun x => { x with slGone := rmNat old x.slGone }
  else if !t.live then s.modCore c fun x => { x with slnum := (num + 1) % 256 }
  else
    let r := s.takeLines origin old c num
    let base := s.entryCmd c num k e r.2
    let away := if 6 ≤ cmd then (s.group base.group).away.find? fun p => p.1 == origin && p.2.num == old else none
    let stash := if c = origin then away else none
    let q := match stash with
      | some (_, p) => { p with uid := base.uid, num := num, slot := k, tid := t.tid, task := t.task, batch := base.batch,
                                privS := base.privS, root := t.ptroot, asp := t.aspace, stopped := false, status := 0, started := false,
                                walkRes := none, claimed := r.2 }
      | none => { base with foreign := decide (6 ≤ cmd) }
    let s := ({ r.1 with nextId := s.nextId + 1 }.slBat c q fun b => b.back q.batch.toNat).modCore c
      fun x => { x with slcmds := x.slcmds ++ [q], slnum := (num + 1) % 256 }
    let s := match away with
      | some p => s.modGroup base.group fun x =>
          let n := p.2.round.getD 0
          { x with away := x.away.filter fun y => y != p,
                   rounds := match find x.rounds n with
                     | some y => if c = origin then put x.rounds n (y.moved (c, p.2.slot, p.2.task, old) (c, k, t.task, num)) else x.rounds
                     | none => x.rounds }
      | none => s
    s.slBegin c q.uid

/-- An image's header is valid (R134). -/
def imageOk (h : List Byte) : Bool :=
  fieldAt h 6 2 == 1 && decide (fieldAt h 0 2 ≤ 8) && decide (fieldAt h 2 2 ≤ 8) && decide (fieldAt h 8 2 < 4096) && fieldAt h 10 6 == 0
    && coreExists (fieldAt h 8 2)

/-- A mail entry as a mailbox under its mapped slot (R134). -/
def State.mailOf (s : State) (c : Nat) (map : W64) (e : List Byte) : Nat × Mailbox :=
  let k := fieldN map (4 * (fieldAt e 1 1 % 16)) 4
  (fieldAt e 0 1 % 8, { full := true, words := (upto 0 8).map fun i => w64 (fieldAt e (8 + 8 * i) 8), slot := k, tid := (s.slot c k).tid,
                        privS := Nat.testBit (fieldAt e 2 1) 0, batch := BitVec.ofNat 16 (fieldAt e 4 2) })

/-- Places mail entries back, in order, while their mailboxes are empty (R134). -/
def State.placeMails (s : State) (c : Nat) (l : List (Nat × Mailbox)) : State × List (Nat × Mailbox) :=
  match l with
  | [] => (s, [])
  | (m, b) :: r =>
    if (look {} (s.core c).mail m).full then (s, (m, b) :: r)
    else State.placeMails ((s.modCore c fun x => { x with mail := put x.mail m b }).modBat c b.slot b.tid fun x => x.back b.batch.toNat) c r

/-- The last part of an image's resume: its mails; it parks while a mailbox is full. -/
def State.slMails (s : State) (c fl : Nat) (l : List (Nat × Mailbox)) (changed : Bool) : SlOut :=
  match s.placeMails c l with
  | (s, []) => .done (s.slEnd c fl)
  | (s, r) =>
    let k := s.slHere c
    (s.modCore c fun x => { x with slMail := (k, r) :: x.slMail.filter fun m => m.1 != k, slWalk := none }).slWait c (s.requester c) 9 none
      (changed || r.length != l.length)

/-- Reads `n` doublewords of an image at resolved lines, as loads at their homes (R134, R399). -/
def State.readImage (s : State) (c n : Nat) (l : List Loc) : List Byte × State :=
  (upto 0 n).foldl (fun r i =>
    let v := r.2.homeRead c ((l.getD (i / 8) { pa := 0 }).pa + 8 * (i % 8)) 8 0
    (r.1 ++ natLe 8 v.1.1, v.2)) ([], s)

/-- SLRESUME of an image whose lines are at `locs`, with `n` commands and `m` mails (R134). -/
def State.slTakeImage (s : State) (c fl : Nat) (map : W64) (locs : List Loc) (n m : Nat) : SlOut :=
  let x := s.readImage c (2 + 12 * n + 9 * m) locs
  let l := x.1
  let mask := fieldAt l 4 2
  let s := (upto 0 16).foldl (fun s j => if Nat.testBit mask j then
    s.modSlot c (fieldN map (4 * j) 4) fun t => { t with quiesced := false } else s) x.2
  let s := (upto 0 n).foldl (fun s i => s.slReissue c (fieldAt l 8 2) map ((l.drop (16 + 96 * i)).take 96)) s
  s.slMails c fl ((upto 0 m).map fun i => s.mailOf c map ((l.drop (16 + 96 * n + 72 * i)).take 72)) true

/-- SLRESUME (R131, R132, R134).  DESIGN CHOICES: an image address that is not 64-byte-aligned fails it with ALIGN and EADDR the
address; while the sluice lacks room for all entries of an image, it parks before step 1. -/
def State.slResume (s : State) (c fl : Nat) (op1 op2 : W64) : SlOut :=
  let r := s.requester c
  if !r.live then .done (s.slEnd c fl)
  else if s.slRefused c then s.slFailNow c fl 8 0
  else if !Nat.testBit fl 0 then
    match (s.core c).slcmds.find? fun q => q.stopped && q.num == fieldN op1 0 8 with
    | none => s.slFailNow c fl 4 0
    | some q => .done ((s.slRestart c q).slEnd c fl)
  else
    match (s.core c).slMail.find? fun m => m.1 == s.slHere c with
    | some m => s.slMails c fl m.2 false
    | none =>
      let ready (l : List Loc) : Bool := l.all fun x => s.present x.pa && s.homeOpen c x.pa
      if op1.toNat % 64 ≠ 0 then s.slFailNow c fl 5 op1.toNat
      else
        match s.imageLines c r op1.toNat 64 .load with
        | .error (.fail st va) => s.slFailNow c fl st va
        | .error (.walk p) => s.slWait c r 8 (some p) false
        | .error _ => s.slWait c r 8 none false
        | .ok hl =>
          if !ready hl then s.slWait c r 8 none false
          else
            let h := s.readImage c 2 hl
            let n := fieldAt h.1 0 2
            let m := fieldAt h.1 2 2
            if !imageOk h.1 then h.2.slFailNow c fl 4 0
            else
              match s.imageLines c r op1.toNat (16 + 96 * n + 72 * m) .load with
              | .error (.fail st va) => s.slFailNow c fl st va
              | .error (.walk p) => s.slWait c r 8 (some p) false
              | .error _ => s.slWait c r 8 none false
              | .ok locs =>
                if !ready locs || decide (8 < (s.core c).slcmds.length + n) then s.slWait c r 8 none false
                else s.slTakeImage c fl op2 locs n m

/-! ### The instructions -/

/-- Runs a command of the sluice's issuer for the running thread. -/
def slRun (f : State → SlOut) : M Unit := fun s =>
  match f s with
  | .done s => .ok ((), s)
  | .park n => .error (.park n)
  | .again s n => .error (.fin (s.tryAgain n))

/-- The flags field of a command word: fl[0], fl[1] (MC), fl[2] (END). -/
def slFlags (f m e : BitVec 1) : Nat := f.toNat + 2 * m.toNat + 4 * e.toNat

/-- A command of two register operands, from slot 15 alone (R48, R109), after the thread's acquires (R182). -/
def slTwo (a b : BitVec 6) (f : W64 → W64 → State → SlOut) : M Unit := do
  needSlot15
  let x ← readS a
  let y ← readS b
  afterAcquires
  slRun (f x y)

/-- The running core issues a copy command. -/
def issueCopy (cmd fl : Nat) (x y : W64) (s : State) : SlOut := s.slIssue s.cur.core cmd fl x y

/-- SLCOPY (R119). -/
def execSlcopy (d u : BitVec 6) (e m f : BitVec 1) (s : State) : Result := run (slTwo d u (issueCopy 0 (slFlags f m e))) s
/-- SLCOPY2 (R119). -/
def execSlcopy2 (d u : BitVec 6) (e m f : BitVec 1) (s : State) : Result := run (slTwo d u (issueCopy 1 (slFlags f m e))) s
/-- SLGATH (R120). -/
def execSlgath (d u : BitVec 6) (e f : BitVec 1) (s : State) : Result := run (slTwo d u (issueCopy 2 (slFlags f 0 e))) s
/-- SLSCAT (R120). -/
def execSlscat (d u : BitVec 6) (e f : BitVec 1) (s : State) : Result := run (slTwo d u (issueCopy 3 (slFlags f 0 e))) s
/-- SLFILL (R119). -/
def execSlfill (d : BitVec 6) (e f : BitVec 1) (s : State) : Result := run (slTwo d 0 (issueCopy 4 (slFlags f 0 e))) s
/-- SLPAT (R121). -/
def execSlpat (d : BitVec 6) (e f : BitVec 1) (s : State) : Result := run (slTwo d 0 (issueCopy 5 (slFlags f 0 e))) s
/-- SLSEND (R316). -/
def execSlsend (g u : BitVec 6) (e f : BitVec 1) (s : State) : Result := run (slTwo g u (issueCopy 6 (slFlags f 0 e))) s
/-- SLRECV (R317). -/
def execSlrecv (g d : BitVec 6) (e f : BitVec 1) (s : State) : Result := run (slTwo g d (issueCopy 7 (slFlags f 0 e))) s
/-- SLDRED (R319). -/
def execSldred (g u : BitVec 6) (e f : BitVec 1) (s : State) : Result := run (slTwo g u (issueCopy 8 (slFlags f 0 e))) s
/-- SLQUIESCE (R133). -/
def execSlquiesce (a b : BitVec 6) (e x : BitVec 1) (s : State) : Result :=
  run (slTwo a b fun v w s => s.slQuiesce s.cur.core (slFlags x 0 e) v w) s
/-- SLRESUME (R132, R134). -/
def execSlresume (a b : BitVec 6) (e x : BitVec 1) (s : State) : Result :=
  run (slTwo a b fun v w s => s.slResume s.cur.core (slFlags x 0 e) v w) s
/-- SLSTAT (R135): without a requester it writes nothing (R111). -/
def execSlstat (d : BitVec 6) (e : BitVec 1) (s : State) : Result :=
  run (do needSlot15
          let v ← askM fun s => s.slsts s.cur.core
          let live ← askM fun s => (s.requester s.cur.core).live
          if live then writeS d v else pure ()
          doM fun s => s.slIssued s.cur.core (slFlags 0 0 e)) s

/-! ### The standard dispatcher (R112) -/

/-- The flags that a command defines, of those a request asks for, and END. -/
def dispFlags (cmd fl : Nat) : Nat := 4 + (if cmd ≤ 1 then fl % 4 else if cmd ≤ 0x0A then fl % 2 else 0)

/-- Values of the shadow registers of a request: supplied ones in ascending order from its fourth word, at most five, the
others zero. -/
def dispShadow (mask : Nat) (words : List W64) (j : Nat) : W64 :=
  let n := ((upto 0 j).filter fun i => Nat.testBit mask i).length
  if Nat.testBit mask j ∧ n < 5 then words.getD (3 + n) 0 else 0

/-- The dispatcher takes a request: SLREQ, the shadow set and the command to issue. -/
def State.dispTake (s : State) (c m : Nat) : State :=
  let l := (look {} (s.core c).mail m).words
  let w := l.getD 0 0
  let cmd := if fieldN w 0 8 ≤ 0x0B then fieldN w 0 8 else 0x0B
  let s := s.takeMail c m
  let s := (upto 0 8).foldl (fun s j => s.writeShadow c j (dispShadow (fieldN w 16 8) l j)) s
  let op2 : W64 := if cmd = 4 ∨ cmd = 5 ∨ cmd = 0x0B then 0 else l.getD 2 0
  s.modCore c fun x => { x with dispNext := (m + 1) % 8, dispCmd := some (cmd, dispFlags cmd (fieldN w 8 3), l.getD 1 0, op2) }

/-- The dispatcher issues a command. -/
def State.dispIssue (s : State) (c cmd fl : Nat) (a b : W64) : SlOut :=
  if cmd = 0x0B then .done (s.slIssued c fl)
  else if cmd = 0x0A then s.slResume c fl a b
  else if cmd = 9 then s.slQuiesce c fl a b
  else s.slIssue c cmd fl a b

/-- Slot 15 of a core runs the standard dispatcher (R109). -/
def State.dispatcherRuns (s : State) (c : Nat) : Bool :=
  !(s.slot c 15).live && (match (s.core c).dump with | some d => d.slot != 15 | none => true) && s.coreActive c

/-- One step of the standard dispatcher of a core: the command it holds, or the next full mailbox in rotation (R112). -/
def State.dispatcherStep (s : State) (c : Nat) : Option State :=
  let x := s.core c
  if !s.dispatcherRuns c then none else
  match x.dispCmd with
  | some (cmd, fl, a, b) =>
    (match s.dispIssue c cmd fl a b with
     | .done s => some (s.modCore c fun x => { x with dispCmd := none })
     | .again s _ => some s
     | .park _ => none)
  | none =>
    match (upto x.dispNext 8).find? fun m => (look {} x.mail (m % 8)).full with
    | some m => some (s.dispTake c (m % 8))
    | none => none

end Sys2Proof.Machine
end

