-- ==== Sys2Proof/Machine/Weir.lean ====
section
/-! DEFINITION. Reduction groups (R311 to R315, R320, R321), the weirs' steps, the ends of rounds. -/

namespace Sys2Proof.Machine

/-! ### RGOPEN, RGCLOSE, RGSTAT (R314, R315) -/

/-- A group is open, or RGOPEN is setting it up. -/
def Group.taken (g : Group) : Bool := g.open_ || !g.members.isEmpty

/-- Cores with bit `g` of SRGRP set, ascending (R311). -/
def State.memberSet (s : State) (g : Nat) : List Nat := (keys s.cores).filter fun c => coreExists c && bitAt (s.core c).srgrp g

/-- Bits of RGOPEN's configuration word that must be zero (R314). -/
def rgReserved : W64 := w64 (2 ^ 64 - 2 ^ 24 + 7 * 2 ^ 13)

/-- RGOPEN (R315). -/
def execRgopen (a b : BitVec 6) (s : State) : Result :=
  run (do needS
          let g ← readS a
          let v ← readS b
          if 63 < g.toNat then resource 28 else pure ()
          if v &&& rgReserved ≠ 0 then resource 29 else pure ()
          if ¬ bitAt v 12 ∧ ¬ coreExists (fieldN v 0 12) then resource 25 else pure ()
          let taken ← askM fun s => (s.group g.toNat).taken
          let l ← askM fun s => s.memberSet g.toNat
          checks do
            if taken then resource 24 else pure ()
            if l.isEmpty then resource 26 else pure ()
          let go ← output 90 g 8 [v]
          if go then do
            doM fun s => s.modGroup g.toNat fun _ =>
              { root := fieldN v 0 12, bcast := bitAt v 12, peers := fieldN v 16 8, members := l }
            busyM 3 (.rgopen g.toNat)
          else pure ()) s

/-- GROUP_SETUP_COMPLETE (R315): the weirs on the members' paths are set up, and the group is open. -/
def execGroupSetupComplete (core slot : Nat) (s : State) : Result :=
  match (s.slot core slot).wait with
  | .busy _ (.rgopen g) => .next ((s.modGroup g fun x => { x with open_ := true }).complete core slot fun t => t)
  | _ => .next s

/-- Rounds that a command has joined and no cut has ended. -/
def Group.running (g : Group) : List Nat := (g.rounds.filter fun r => !r.2.cut && !r.2.reqs.isEmpty).map Prod.fst

/-- A command of a group has not ended: it stands in some sluice, or in an image (R133, R315). -/
def State.groupBusy (s : State) (g : Nat) : Bool :=
  !(s.group g).away.isEmpty || s.cores.any fun x => x.2.slcmds.any fun q => decide (6 ≤ q.cmd ∧ q.cmd ≤ 8) && q.round.isSome && q.group == g

/-- RGCLOSE (R315): rounds in progress are cut, and the group closes when its commands have ended. -/
def execRgclose (g : BitVec 6) (i : BitVec 1) (s : State) : Result :=
  run (do needS
          let v ← if i = 1 then pure (w64 g.toNat) else readS g
          if 63 < v.toNat then resource 28 else pure ()
          let n := v.toNat
          let x ← askM fun s => s.group n
          checks (if x.open_ then pure () else resource 27)
          let go ← output 91 v 8 []
          if !go then pure ()
          else if !x.running.isEmpty then do
            doM fun s => (x.running.foldl (fun s k => s.cutRound n k 512 0) s).tryAgain 3
            finM
          else do
            let busy ← askM fun s => s.groupBusy n
            if busy then parkReg else doM fun s => s.modGroup n fun _ => {}) s

/-- A round waits on an input (R315): one has begun, and a member has not sent it, or the stream of a peer port has not ended. -/
def Group.stalled (g : Group) : Bool :=
  g.running.any fun k =>
    let r := look {} g.rounds k
    (g.members.any fun c => !r.sent.contains c) || g.ports.any fun p => !(look {} r.streams (peerStream p)).ended

/-- A round has been sent by every member and taken by every receiver (R312). -/
def Group.roundDone (g : Group) (r : Round) : Bool :=
  !r.cut && !r.reqs.isEmpty && g.members.all r.sent.contains && (g.receivers r).all r.taken.contains

/-- Rounds completed since the open: a round is complete as soon as all have sent and taken it (R312). -/
def Group.done (g : Group) : Nat := g.completed + (g.rounds.filter fun r => g.roundDone r.2).length

/-- A group's status word (R315). -/
def Group.word (g : Group) : W64 :=
  if !g.open_ then 0 else
  w64 (1 + b2n g.bcast * 2 + g.members.length * 2 ^ 8 + g.root * 2 ^ 20 + g.done % 65536 * 2 ^ 32 + b2n g.stalled * 2 ^ 48)

/-- RGSTAT (R315). -/
def execRgstat (d b : BitVec 6) (s : State) : Result :=
  run (do let g ← readS b
          if 63 < g.toNat then resource 28 else pure ()
          freeS d.toNat
          let v ← input (w64 (2 ^ 60 + 65)) (askM fun s => (s.group g.toNat).word)
          writeS d v) s

/-! ### The weirs (R303, R304, R308, R322) -/

/-- No earlier round of a group is still to pass a weir (R312). -/
def Group.inOrder (g : Group) (k n : Nat) : Bool := g.rounds.all fun r => decide (k ≤ r.1) || r.2.cut || (look {} r.2.streams n).ended

/-- The words of a stream's windows from `from_` on, in the order of R305, with its end entry where it has ended. -/
def Stream.words (x : Stream) (from_ : Nat) : List W64 :=
  let d := ({ x with wins := x.wins.filter fun w => decide (from_ ≤ w.1), ended := false }.deliver (2 ^ 62)).close
  (d.writes.foldl (fun m w => put m w.1 w.2.1) ([] : Map W64)).map Prod.snd
    ++ if x.ended then [endWord (x.wins.map fun w => w.2.2.length).sum] else []

/-- Sends what a module's result of a round has gained out on the peer ports of its group (R322): the windows put out since the last
time, and its end.  DESIGN CHOICE: a masked window so sent opens a segment of its own, since the header of R306 counts windows that
have not come yet (log entry 71). -/
def State.peerOut (s : State) (g k : Nat) : State :=
  let x := s.group g
  let r := s.round g k
  let o := look {} r.streams moduleStream
  let l := o.words r.outTo
  if l.isEmpty then s else
  { s.setRound g k { r with outTo := o.floor } with out := s.out ++ x.ports.map fun p =>
      { port := p, kind := .words, addr := g * 2 ^ 32 + k, bytes := l.flatMap fun w => natLe 8 w.toNat } }

/-- Entries of a round's result that a receiver has still to take into its delivery: of an SLRECV, those of what it has not
written; all, where it has not issued (R304, R317). -/
def State.untaken (s : State) (g k c : Nat) (x : Stream) : Nat :=
  if (s.round g k).taken.contains c then 0 else
  match ((s.roundCmds g k) ++ (s.group g).away.filter fun p => p.2.round == some k).find? fun p => p.1 == c && p.2.cmd == 7 with
  | none => x.entries
  | some p =>
    let d := x.deliver p.2.len
    if d.full then d.writes.length - p.2.given else x.entries - Nat.min x.entries p.2.given

/-- Entries of a round's module result that the weir of its group's first peer port has still to take (R304, R322). -/
def Group.waiting (x : Group) (r : Round) (o : Stream) : Nat := (o.from_ (look {} r.streams (peerWeir (x.ports.headD 0))).floor).entries

/-- The same of all groups whose results that weir takes. -/
def State.modBuffered (s : State) (port : Nat) : Nat :=
  (s.groups.flatMap fun g => if g.2.ports.head? = some port then g.2.rounds.map fun r => g.2.waiting r.2 (look {} r.2.streams moduleStream) else []).sum

/-- What takes the output of weir `n` has room for what a step adds to it, `o` before and `o'` after: the buffer of the weir above,
of 64 entries for all groups; for a result that SLRECVs take, what the slowest has still to take; a dense round's result waits in its
receivers' buffers (R304, R319).  An empty buffer takes any step, which is at most a window. -/
def State.weirRoom (s : State) (g k n : Nat) (o o' : Stream) : Bool :=
  let x := s.group g
  let r := s.round g k
  if n = x.result then
    r.kind == some 1 || (x.receivers r).all fun c => s.untaken g k c o == 0 || decide (s.untaken g k c o' ≤ 64)
  else if n = moduleStream then
    let b := s.modBuffered (x.ports.headD 0)
    b == 0 || decide (b - x.waiting r o + x.waiting r o' ≤ 64)
  else s.buffered n == 0 || decide (s.buffered n - o.entries + o'.entries ≤ 64)

/-- One step of the weir `n` for round `k` of group `g` (R308): none when it waits for an input or for room. -/
def State.weirMerge (s : State) (g k n : Nat) : Option State :=
  let x := s.group g
  match find x.rounds k with
  | none => none
  | some r =>
    if r.cut || !x.open_ || !x.inOrder k n then none else
    match x.inputs n with
    | none => none
    | some (a, b) =>
      if !(decide (0x500000 ≤ n) || x.fed n) then none else
      let o := look {} r.streams n
      match weirStep r.mode r.thr (r.stream x a) (r.stream x b) o with
      | none => none
      | some (l, t, o', fl) =>
        if !s.weirRoom g k n o o' then none
        else
          let keepS (m : Map Stream) (i : Nat) (y : Stream) : Map Stream := if x.fed i && i != moduleStream then put m i y else m
          let s := s.setRound g k { r with streams := put (keepS (keepS r.streams a l) b t) n o', flags := r.flags ||| fl }
          some (if n = moduleStream ∧ !x.ports.isEmpty then s.peerOut g k else s)

/-- WEIR_MERGE (R308). -/
def execWeirMerge (group round node : Nat) (s : State) : Result := .next ((s.weirMerge group round node).getD s)

/-- Whether a weir's full input buffer asks for a hold of a command's stream that does not stand, or the reverse (R304). -/
def State.holdChange (s : State) (c : Nat) (q : SlCmd) : Bool :=
  (q.cmd == 6 || q.cmd == 8) && q.round.isSome
    && q.held != s.leafFull c (look {} (s.round q.group (q.round.getD 0)).streams c)

/-- WEIR_HOLD (R304): the hold of the weir that a core feeds reaches the sending sluice, or drops. -/
def execWeirHold (core num : Nat) (s : State) : Result :=
  match s.slCmd core num with
  | some q => .next (if s.holdChange core q then s.setSl core { q with held := !q.held } else s)
  | none => .next s

/-- ROUND_COMPLETE (R312). -/
def execRoundComplete (group round : Nat) (s : State) : Result :=
  let x := s.group group
  match find x.rounds round with
  | some r => .next (if x.roundDone r then s.modGroup group fun x => { x with rounds := del x.rounds round, completed := x.completed + 1 } else s)
  | none => .next s

/-- A command's watchdog has expired (R321). -/
def State.watchdogDue (s : State) (q : SlCmd) : Bool :=
  decide (6 ≤ q.cmd ∧ q.cmd ≤ 8) && q.round.isSome && !q.cut && decide (q.wdog ≠ 0) && decide (q.time + q.wdog ≤ s.time)

/-- A reduction command of a core that stands in an image, by its name (R321, R324). -/
def State.awayCmd (s : State) (c uid : Nat) : Option SlCmd :=
  s.groups.findSome? fun g => (g.2.away.find? fun p => p.1 == c && p.2.uid == uid).map Prod.snd

/-- WATCHDOG_EXPIRY (R321): of a command in the sluice or in an image. -/
def execWatchdogExpiry (core num : Nat) (s : State) : Result :=
  match (match (s.slCmd core num).filter s.watchdogDue with
    | some q => some q
    | none => (s.awayCmd core num).filter s.watchdogDue) with
  | some q => .next (s.cutRound q.group (q.round.getD 0) 64 0)
  | none => .next s

end Sys2Proof.Machine
end

