-- ==== Sys2Proof/Machine/TaskEnd.lean ====
section
/-! DEFINITION. The end of a task (R125, R367, R368, R389). -/

namespace Sys2Proof.Machine

/-- Every access and every command of a task has ended (R368 step 2). -/
def State.taskQuiet (s : State) (c h : Nat) : Bool :=
  let x := s.core c
  !(s.flights.any fun f => f.core == c && f.task == h && f.pending)
    && !(x.mx.any fun q => q.task == h) && !(x.pg.any fun q => q.task == h) && !(x.slcmds.any fun q => q.task == h)
    && (match x.dump with | some d => d.taskN != h | none => true)

/-- Failed commands of a task without a thread are discarded, and the reply carries COPYFAULT (R368, R380). -/
def State.discardFailed (s : State) (c h : Nat) : State :=
  let l := (s.core c).slcmds.filter fun q => q.task == h && q.stopped && q.status != 0
  let s := if l.isEmpty then s else s.modTask c h fun t => { t with endStatus := 0x0D }
  l.foldl (fun s q => s.discardSl c q) s

/-- The thread of an access goes back to its instruction, which re-executes (R389). -/
def State.reExecute (s : State) (f : Flight) : State :=
  let t := s.slot f.core f.slot
  match t.wait with
  | .busy _ (.access id) => if id = f.id ∧ t.tid = f.tid then s.modSlot f.core f.slot Slot.again else s
  | _ => s

/-- The sluice of a core without some of the writes that its commands have sent. -/
def Core.dropWrites (x : Core) (f : SlCmd → SlWrite → Bool) : Core :=
  { x with slcmds := x.slcmds.map fun q => { q with pend := q.pend.filter fun w => !f q w } }

/-- Frees a bank (R125, R389): waits on its words are withdrawn, accesses and sluices' writes held at its lines are discarded, its lines
are present and no image entry holds them. -/
def State.freeBank (s : State) (c b : Nat) : State :=
  let lo := scratchAddr c (b * 4096)
  let here (f : Flight) : Bool := decide (lo ≤ f.pa) && decide (f.pa < lo + 4096)
  let gone := s.flights.filter fun f => here f && (f.order.isSome || (f.stage == .sent && !s.present f.pa))
  let s := gone.foldl (fun s f => (s.dropFlight f.id).reExecute f) s
  let held (q : SlCmd) (w : SlWrite) : Bool :=
    decide (lo ≤ w.pa) && decide (w.pa < lo + 4096) && !s.present w.pa && !q.claimed.contains (w.pa / 64)
  let s := { s with cores := s.cores.map fun (x : Nat × Core) => (x.1, x.2.dropWrites held) }
  let s := { s with absent := s.absent.filter fun p => !(decide (lo ≤ 64 * p.1) && decide (64 * p.1 < lo + 4096)) }
  s.rebalance c

/-- Frees a task's allocation and its handle (R368 step 5). -/
def State.freeTask (s : State) (c h : Nat) : State :=
  let s := (s.taskOf c h).banks.foldl (fun s b => s.freeBank c b) s
  s.modCore c fun x => { x with tasks := del x.tasks h }

/-- The context of a task that has no thread. -/
def State.taskCtx (s : State) (c h : Nat) : Ctx :=
  { core := c, task := h, root := (s.taskOf c h).ptroot, asp := (s.taskOf c h).aspace.toNat, privS := false }

/-- The PLEAVE that ends a task's membership (R142, R148, R368 step 4): the directory step, then the wait for its
acknowledgements and for accesses through the window; none while it waits.  DESIGN CHOICE: where the entry's home is absent,
which the manual gives no case for, the directory step and the removals are left out, and the end goes on. -/
def State.endMember (s : State) (c h : Nat) : Option State :=
  let t := s.taskOf c h
  match t.member with
  | some (p, i) =>
    let e := dirEntry (look 0 s.pdirbase (s.partOf c)) p
    if (s.homeOf e).isNone then some (s.modTask c h fun t => { t with member := none, leaving := true })
    else if s.dirOpen c e then some (s.leaveStep c h p i e 0)
    else none
  | none =>
    if t.leaving then (if s.polderPending (c * 16 + h) || s.polderFlights c h then none else some (s.clearWindow c h)) else some s

/-- The next step towards the end of a task (R368). -/
def State.endTask (s : State) (c h : Nat) : Option State :=
  let t := s.taskOf c h
  if !t.live || !t.ending || !(s.threadsOf c h).isEmpty then none
  else if (s.core c).slcmds.any fun q => q.task == h && q.stopped && q.status != 0 then some (s.discardFailed c h)
  else if t.preempted.isNone && !t.replied && t.reply != 0 then
    if !s.taskQuiet c h then none else
    match s.reply (s.taskCtx c h) (2 ^ 41 + c * 16 + h) 0 t.status (fun p => t.walkRes == some p) with
    | .ok s => some s
    | .error p => if s.walking c (0x1000 + h) t.aspace.toNat p.page then none else some (s.requestWalk c (0x1000 + h) t.aspace.toNat t.ptroot p)
  else if t.member.isSome || t.leaving then (if s.taskQuiet c h then s.endMember c h else none)
  else if s.taskQuiet c h then some (s.freeTask c h)
  else none

/-- TASK_END (R368). -/
def execTaskEnd (core task : Nat) (s : State) : Result := .next ((s.endTask core task).getD s)

end Sys2Proof.Machine
end

