-- ==== Sys2Proof/Machine/Observe.lean ====
section
/-! DEFINITION. Observation (chapter 17): sampling (R406, R407), dumps (R414 to R416), the scrubber (R402). -/

namespace Sys2Proof.Machine

/-! ### Sampling -/

/-- The cores of a die, ascending (R5). -/
def dieCores (d : Nat) : List Nat := (upto (d * 1024) 1024).filter coreExists

/-- How many words a PC lies from the previous one, when form 1 reaches it (R407). -/
def pcStep (prev pc : W64) : Option Int :=
  let d : Int := (pc.toNat : Int) - prev.toNat
  if d % 4 = 0 ∧ -(2 ^ 15) ≤ d / 4 ∧ d / 4 < 2 ^ 15 then some (d / 4) else none

/-- A slot's bytes in a core entry: run state and PC form, then what the form needs (R407). -/
def slotBytes (st : Nat) (prev : Option W64) (pc : W64) : List Byte :=
  let full := natLe 1 (st + 2 * 16) ++ natLe 7 (fieldN pc 2 55)
  match prev with
  | none => full
  | some p =>
    if p = pc then natLe 1 st
    else match pcStep p pc with
      | some d => natLe 1 (st + 16) ++ natLe 2 (ofSigned 16 d)
      | none => full

/-- A core's entry, and its PCs for the next record (R407). -/
def State.coreEntry (s : State) (c : Nat) (prev : Option (Map W64)) : List Byte × Map W64 :=
  let ks := (upto 0 16).filter fun k => s.runState c k != 0
  let pc (k : Nat) : W64 := (s.slot c k).nextPc
  (natLe 2 (ks.foldl (fun a k => a + 2 ^ k) 0)
    ++ ks.flatMap (fun k => slotBytes (s.runState c k) (match prev with | some m => find m (c * 16 + k) | none => none) (pc k)),
   ks.map fun k => (c * 16 + k, pc k))

/-- A die's record of a pulse, and its PCs (R407). -/
def State.dieRecord (s : State) (d seq : Nat) : List Byte × Map W64 :=
  let l := (dieCores d).map fun c => s.coreEntry c (s.die d).prevPc
  let body := l.flatMap Prod.fst
  let body := body ++ natLe ((8 - body.length % 8) % 8) 0
  (natLe 2 1 ++ natLe 1 d ++ natLe 1 0 ++ natLe 4 (32 + body.length) ++ natLe 8 s.time ++ natLe 8 seq ++ natLe 8 0 ++ body, l.flatMap Prod.snd)

/-- A record fits a ring (R407). -/
def ringFits (ring head tail len : Nat) : Bool :=
  decide (ring ≠ 0) && (if head = tail then decide (len < ring) else decide (len < (tail + ring - head % ring) % ring))

/-- A die writes its record, or discards it (R407). -/
def State.sampleDie (s : State) (d seq : Nat) : State :=
  let x := s.die d
  let ring := fieldN x.smpbuf 0 16 * 65536
  let base := fieldN x.smpbuf 16 36 * 65536
  let r := s.dieRecord d seq
  let len := r.1.length
  if ring ≠ 0 ∧ ringFits ring x.head x.tail len ∧ (s.homeOf (base + x.head % ring)).isSome ∧ (s.homeOf (base + (x.head + len - 1) % ring)).isSome then
    let n := Nat.min len (ring - x.head % ring)
    let s := s.devWrite 4096 (base + x.head % ring) (r.1.take n)
    let s := if n < len then s.devWrite 4096 base (r.1.drop n) else s
    s.modDie d fun x => { x with head := (x.head + len) % ring, prevPc := some r.2 }
  else s.modDie d fun x => { x with prevPc := none }

/-- A pulse is due at this tick (R406). -/
def State.pulseDue (s : State) : Bool :=
  decide (s.smpInterval ≠ 0) && decide (s.time % s.smpInterval.toNat = 0) && s.smpAt != some s.time

/-- SAMPLING_PULSE (R406, R407): every core latches its slots, and each served die writes its record. -/
def execSamplingPulse (s : State) : Result :=
  if s.pulseDue then
    let t := (upto 0 4).foldl (fun t d => if s.served d then t.sampleDie d s.smpSeq else t) s
    .next { t with smpSeq := s.smpSeq + 1, smpAt := some s.time }
  else .next s

/-! ### Dumps -/

/-- The thread's registers in the layout of R392. -/
def State.threadSection (s : State) (c k : Nat) : List Byte :=
  let u := { s with cur := { s.cur with core := c, slot := k } }
  let t := s.slot c k
  let regs (l : List Nat) : List Byte := l.flatMap fun n => natLe 8 (s.ownReg c k n).toNat
  (upto 0 64).flatMap (fun i => natLe 8 (if i ≠ 0 ∧ bitAt t.sFull i then (look 0 t.sr i).toNat else 0))
    ++ natLe 8 (bitsToNat u.scalarBit 64) ++ natLe 8 (bitsToNat u.vectorBit 32)
    ++ (upto 0 8).flatMap (fun i => natLe 2 (if i = 0 then 0 else (look 0 t.kr i).toNat)) ++ natLe 0xE0 0
    ++ (upto 0 16).flatMap (fun i => natLe 8 (look 0 t.afB i).toNat ++ natLe 8 ((look 0 t.afS i).signExtend 64).toNat)
    ++ regs [0x000, 0x001, 0x002, 0x003, 0x020, 0x005, 0x006, 0x007, 0x009, 0x00A, 0x2C0, 0x2C1, 0x2C2, 0x2C3, 0x2C4, 0x1DC, 0x1DD, 0x1DE, 0x1A0 + k]
    ++ regs (upto 0x1D0 12) ++ regs (upto 0x010 16) ++ natLe 0x88 0
    ++ (upto 0 32).flatMap (fun n => (upto 0 16).flatMap fun i => natLe 4 (if bitAt t.vFull n then (t.lane n i).toNat else 0)) ++ natLe 0x200 0

/-- What a dump writes in turn: offset, eight bytes, the granule of memory that they are read from, and whether they are read from a
granule of the register files with an uncorrectable error (R415, R416). -/
structure DumpWord where
  off : Nat
  bytes : List Byte
  src : Option Nat := none
  bad : Bool := false
  deriving DecidableEq, Repr

/-- Words of a section; `bad` tells which of them are read from an uncorrectable granule of a register file. -/
def dumpWords (off : Nat) (l : List Byte) (bad : Nat → Bool) : List DumpWord :=
  (upto 0 (l.length / 8)).map fun i => { off := off + 8 * i, bytes := (l.drop (8 * i)).take 8, bad := bad i }

/-- Words that no granule with an error gives. -/
def plainWords (off : Nat) (l : List Byte) : List DumpWord := dumpWords off l fun _ => false

/-- Word `i` of a thread section is read from an uncorrectable granule (R392, R399): a full scalar register, the masks, a base or a
stride, a full vector register. -/
def Slot.badWord (t : Slot) (i : Nat) : Bool :=
  if i < 64 then decide (i ≠ 0) && bitAt t.sFull i && bitAt t.sPoison i
  else if i = 66 ∨ i = 67 then find t.rErr (i - 66) == some true
  else if 96 ≤ i ∧ i < 128 then find t.rErr (if i % 2 = 0 then 16 + (i - 96) / 2 else 32 + (i - 96) / 4) == some true
  else decide (192 ≤ i) && decide (i < 448) && bitAt t.vFull ((i - 192) / 8) && bitAt t.vPoison ((i - 192) / 8)

/-- A dump reads every register of a thread: single-bit errors are corrected and counted (R399, R415). -/
def State.correctRegs (s : State) (c k : Nat) : State :=
  let t := s.slot c k
  let n := popBits t.sErr.toNat 64 + t.vErr.length + (t.rErr.filter fun e => !e.2).length
  if n = 0 then s else (s.modSlot c k fun t => { t with sErr := 0, vErr := [], rErr := t.rErr.filter Prod.snd }).corrected c n

/-- The barrier objects of a FULL dump: those that the drained commands named and those that the task's BARWAITs wait at, as
address and place (R415). -/
def State.dumpObjects (s : State) (c : Nat) (j : DumpJob) : List (W64 × Option Nat) :=
  let x := s.taskCtx c j.taskN
  let named := j.objs.map fun va => (va, match s.resolve x va .load with | .ok l => some l.pa | .error _ => none)
  let waits := (s.flights.filter fun f => f.core == c && f.task == j.taskN && (match f.op with | .barwait _ => true | _ => false)).map
    fun f => (f.va, some f.pa)
  (named ++ waits).eraseDups.take 64

/-- The barrier section (R415). -/
def State.dumpBarriers (s : State) (c : Nat) (j : DumpJob) : List DumpWord :=
  let l := s.dumpObjects c j
  plainWords 0x1400 (natLe 8 l.length ++ natLe 24 0)
    ++ (upto 0 l.length).flatMap fun i =>
        let o := l.getD i (0, none)
        let at_ := 0x1420 + 32 * i
        let obj (n : Nat) : DumpWord := match o.2 with
          | some pa => { off := at_ + 8 + 8 * n, bytes := readBytes s.mem (pa + 8 * n) 8, src := some (pa + 8 * n) }
          | none => { off := at_ + 8 + 8 * n, bytes := natLe 8 0 }
        [{ off := at_, bytes := natLe 8 o.1.toNat }, obj 0, obj 1, { off := at_ + 24, bytes := natLe 8 0 }]

/-- FULL bits of the window's lines, and the window's banks (R415). -/
def State.dumpBanks (s : State) (c : Nat) (j : DumpJob) : List DumpWord :=
  let banks := (s.taskOf c j.taskN).banks
  let tags := banks.flatMap fun b => (upto 0 64).flatMap fun l => natLe 2 (fieldN (s.tagOf (scratchAddr c (b * 4096 + 64 * l))) 0 16)
  plainWords 0x2400 ((upto 0 128).flatMap fun i => natLe 8 (match banks[i]? with | some b => (look 0 (s.core c).bfmt b).toNat | none => 0))
    ++ plainWords 0x2800 tags
    ++ (upto 0 (banks.length * 512)).map fun i =>
        let pa := scratchAddr c (banks.getD (i / 512) 0 * 4096 + i % 512 * 8)
        { off := 0x8000 + 8 * i, bytes := readBytes s.mem pa 8, src := some pa }

/-- Everything a dump writes before its header (R415). -/
def State.dumpBody (s : State) (c : Nat) (j : DumpJob) : List DumpWord :=
  let t := s.slot c j.slot
  plainWords 0x100 (j.fault.flatMap (fun v => natLe 8 v.toNat) ++ natLe 8 j.bstat.toNat
      ++ natLe 8 j.slsts.toNat ++ natLe 8 j.epend.toNat)
    ++ plainWords 0x140 (t.retired.reverse.flatMap (fun pc => natLe 8 pc.toNat) ++ natLe (8 * (64 - t.retired.length)) 0)
    ++ dumpWords 0x400 (s.threadSection c j.slot) t.badWord
    ++ (if bitAt (s.core c).dumpcfg 1 then s.dumpBarriers c j ++ s.dumpBanks c j else [])

/-- The truncation word of a cause and ESTAT: the cause in [7:0], ESTAT[23:0] in [31:8] (R446). -/
def cutWord (cause estat : Nat) : Nat := cause + estat % 2 ^ 24 * 256

/-- Writes words of a dump while nothing fails: the state, and the offset and truncation word of what cut it (R416, R446).  The
manual gives no cause for poison: that word is free. -/
def State.dumpRun (s : State) (base size : Nat) (l : List DumpWord) : State × Option (Nat × Nat) :=
  match l with
  | [] => (s, none)
  | w :: r =>
    let s := match w.src with | some pa => s.correct pa 8 | none => s
    let bad : Bool := w.bad || (match w.src with | some pa => s.poisoned pa 8 | none => false)
    if decide (size < w.off + 8) then (s, some (w.off, cutWord 5 0x100))
    else if bad then (s.bump, some (w.off, Config.freeNat s.free % 2 ^ 32))
    else if (s.homeOf (base + w.off)).isNone then (s, some (w.off, cutWord 4 0x100))
    else State.dumpRun (s.devWrite 4096 (base + w.off) w.bytes) base size r

/-- The offset of the first byte after the last section of a dump (R415, R446). -/
def State.dumpEnd (s : State) (c : Nat) (j : DumpJob) : Nat :=
  if bitAt (s.core c).dumpcfg 1 then 0x8000 + 4096 * (s.taskOf c j.taskN).banks.length else 0x1400

/-- The header of a dump (R415, R416, R446). -/
def State.dumpHeader (s : State) (c : Nat) (j : DumpJob) (cut : Option (Nat × Nat)) : List Byte :=
  let w : Nat × Nat × Nat := match cut with | some (o, e) => (o, e, o) | none => (0, 0, s.dumpEnd c j)
  natLe 8 (1 + (if bitAt (s.core c).dumpcfg 1 then 256 else 0) + (if cut.isSome then 512 else 0)) ++ natLe 8 s.time
    ++ natLe 8 (c + j.taskN * 2 ^ 16 + j.slot * 2 ^ 20) ++ (j.fault.take 4).flatMap (fun v => natLe 8 v.toNat)
    ++ natLe 8 w.1 ++ natLe 8 w.2.1 ++ natLe 8 w.2.2 ++ natLe (256 - 80) 0

/-- The commands that a FULL dump waits for have completed or stopped, and the arrivals of the task's commands have been performed
(R415, R448). -/
def State.dumpDrained (s : State) (c : Nat) (j : DumpJob) : Bool :=
  !bitAt (s.core c).dumpcfg 1
    || ((s.core c).slcmds.all fun q => q.stopped || !j.cmds.contains q.uid) && !s.arriving c (fun f => f.task == j.taskN)

/-- A dump is written, header last, and its slot goes on, or is freed (R414 to R416). -/
def State.runDump (s : State) (c : Nat) (j : DumpJob) : State :=
  let cfg := (s.core c).dumpcfg
  let base := fieldN cfg 16 36 * 65536
  let size := fieldN cfg 8 8 * 65536
  let s := s.correctRegs c j.slot
  let r := s.dumpRun base size (s.dumpBody c j)
  let h := plainWords 0 (r.1.dumpHeader c j r.2)
  let s := (r.1.dumpRun base size h).1
  let s := s.modCore c fun x => { x with dump := none, dumpDone := x.dumpDone + 1 }
  if j.ended then s.freeSlot c j.slot
  else s.modSlot c j.slot fun t => if t.wait = .dumping then { t with wait := .run } else t

/-- DUMP (R415). -/
def execDump (core : Nat) (s : State) : Result :=
  match (s.core core).dump with
  | some j => .next (if s.dumpDrained core j then s.runDump core j else s)
  | none => .next s

/-! ### The scrubber -/

/-- A granule of a core with one wrong bit is corrected and counted; one with more keeps its mark and sets RELSTAT.UEEV (R399, R402). -/
def State.scrubCore (s : State) (c : Nat) (hit : Option Bool) (fix : State → State) : State :=
  match hit with
  | none => s
  | some true => { s with relUeev := true }
  | some false => (fix s).corrected c 1

/-- SCRUB (R402): a granule is read, corrected, or marked poisoned; a scalar or vector register that holds a mark keeps it. -/
def execScrub (g : Granule) (s : State) : Result :=
  .next (match g with
    | .memory pa => s.correct (pa / 8 * 8) 8
    | .engine c n => s.scrubCore c (find (s.core c).engErr n) fun s => s.modCore c fun x => { x with engErr := del x.engErr n }
    | .mailbox c m w => s.scrubCore c (find (look {} (s.core c).mail m).err w) fun s => s.modCore c fun x =>
        { x with mail := put x.mail m { look {} x.mail m with err := del (look {} x.mail m).err w } }
    | .shared c n => s.scrubCore c (find (s.core c).gErr n) fun s => s.modCore c fun x => { x with gErr := del x.gErr n }
    | .scalar c k n =>
      s.scrubCore c (if bitAt (s.slot c k).sErr n then some false else none) fun s =>
        s.modSlot c k fun t => { t with sErr := setBit t.sErr n false }
    | .vector c k n i =>
      s.scrubCore c (if (s.slot c k).vErr.contains (8 * n + i) then some false else none) fun s =>
        s.modSlot c k fun t => { t with vErr := t.vErr.filter fun g => g != 8 * n + i }
    | .register c k n => s.scrubCore c (find (s.slot c k).rErr n) fun s => s.modSlot c k fun t => { t with rErr := del t.rErr n })

end Sys2Proof.Machine
end

