-- ==== Sys2Proof/Machine/Platform.lean ====
section
/-! DEFINITION. The module: reset and bring-up (R424, R452), links (R403, R420), what arrives from peers, identity (R425). -/

namespace Sys2Proof.Machine

/-! ### Reset and bring-up -/

/-- The two conditions under which the boot ROM accepts firmware (R425): its signature verifies, and its version is at least the
fused rollback counter. -/
def fwAccepted : Bool := Config.hssOk && decide (Config.rollback ≤ Config.fwVersion.toNat)

/-- The boot ROM verifies the firmware. -/
def State.verifyFw (s : State) : State := { s with fwok := fwAccepted, fwver := if fwAccepted then Config.fwVersion else 0 }

/-- MODULE_RESET (R452, R425): the state after reset; the boot ROM verifies the firmware.  What the model keeps of its own,
what has left the module and rails lost for good stay. -/
def execModuleReset (s : State) : Result :=
  .next { State.reset with agenda := s.agenda, free := s.free, epoch := s.epoch, nextTid := s.nextTid, nextId := s.nextId, out := s.out,
                           spdm := s.spdm, lost := s.lost }.verifyFw

/-- BRINGUP_LEVEL_RAISE (R424, R425): the level rises by one, from 0 only when the firmware verifies. -/
def execBringupLevelRaise (s : State) : Result :=
  let s := if s.level = 0 then s.verifyFw else s
  .next (if s.level < 3 ∧ s.fwok then { s with level := s.level + 1 }.readPower else s)

/-! ### Links -/

/-- Rails of a link that are lost for good. -/
def State.railsOf (s : State) (link : Nat) : Nat := (s.lost.filter fun x => x / 8 == link).length

/-- A rail is lost for good (R403, R404). -/
def State.loseRail (s : State) (link rail : Nat) : State :=
  let s := { s with lost := insNat (link * 8 + rail) s.lost, relRails := satAt 255 (s.relRails + 1) }.degrade
  if link < 8 then
    let p := look ({} : Peer) s.peer link
    { s with peer := put s.peer link { p with rails := satAt 5 (p.rails + 1) } }
  else s

/-- A link goes down: a peer port's window loses its home; a die-to-die pair goes on over its other link (R403). -/
def State.dropLink (s : State) (link : Nat) : State :=
  let s := { s with relLinkdn := true }.degrade
  if link < 8 then
    let p := look ({} : Peer) s.peer link
    { s with peer := put s.peer link { p with trained := false }.settle }
  else s

/-- RAIL_LOSS (R403): the first rail of a link is lost; its data go on, rebuilt from the others. -/
def execRailLoss (link rail : Nat) (s : State) : Result :=
  .next (if rail < 5 ∧ ¬ s.lost.contains (link * 8 + rail) ∧ s.railsOf link ≠ 1 then s.loseRail link rail else s)

/-- LINK_DOWN (R403): a second rail is lost, and the link goes down. -/
def execLinkDown (link rail : Nat) (s : State) : Result :=
  .next (if rail < 5 ∧ ¬ s.lost.contains (link * 8 + rail) ∧ s.railsOf link = 1 then (s.loseRail link rail).dropLink link else s)

/-- PEER_LINK_UP (R420): the link trains, with OPEN at the other end. -/
def execPeerLinkUp (port : Nat) (serial : BitVec 16) (s : State) : Result :=
  if 8 ≤ port ∨ 2 ≤ s.railsOf port then .next s
  else
    let p := look ({} : Peer) s.peer port
    .next { s with peer := put s.peer port { p with trained := true, openThere := true, remote := serial }.settle }

/-- REMOTE_OPEN_CLEAR (R420): the other end clears OPEN. -/
def execRemoteOpenClear (port : Nat) (s : State) : Result :=
  let p := look ({} : Peer) s.peer port
  .next (if 8 ≤ port then s else { s with peer := put s.peer port { p with openThere := false }.settle })

/-- FAR_PORT_UP (R424). -/
def execFarPortUp (port : Nat) (gib : BitVec 11) (s : State) : Result :=
  .next (if 4 ≤ port ∨ 1024 < gib.toNat then s else { s with far := put s.far port { up := true, gib := gib.toNat } })

/-- FAR_PORT_DOWN (R424). -/
def execFarPortDown (port : Nat) (s : State) : Result :=
  let f := look ({} : Far) s.far port
  .next (if 4 ≤ port ∨ ¬ f.up then s else { s with far := put s.far port { f with up := false }, relLinkdn := true }.degrade)

/-! ### What arrives from peers (R420, R322) -/

/-- Answers a peer's read. -/
def State.toPeer (s : State) (port pa : Nat) (l : List Byte) (poison : Bool) : State :=
  { s with out := s.out ++ [{ port := 10 + port, kind := .answer, addr := pa, bytes := l, poison := poison }] }

/-- A read of a peer under this module's map; it waits at an absent line. -/
def State.peerRead (s : State) (port x size : Nat) : State :=
  let e : Ext := .peer port (.read x size)
  if (s.homeOf x).isNone then (s.takeExt x e).toPeer port x (List.replicate size 0xFF) true
  else if !s.extReady x e then s.waitOutside x e
  else
    let s := s.takeExt x e
    match regionOf x with
    | .launch _ _ => s.toPeer port x (natLe size 0) false
    | .mgmt off => let r := s.mgmtLoad off size; r.2.toPeer port x (natLe size r.1.toNat) false
    | .host _ => let r := s.outsideBytes x size; r.2.toPeer port x r.1 false
    | _ => let s := s.correct x size; s.toPeer port x (readBytes s.mem x size) (s.poisoned x size)

/-- A write of a peer under this module's map and TOPINF; a record for a cluster that is not yet served is refused (R424); data
of a flit that failed on two rails are written poisoned (R403). -/
def State.peerWrite (s : State) (port x : Nat) (l : List Byte) (ti : Bool) (src : BitVec 12) : State :=
  let e : Ext := .peer port (.write x l ti src)
  if (s.homeOf x).isNone then (let s := s.takeExt x e
                               match regionOf x with | .launch _ _ => s.hostError | _ => s)
  else if !s.extReady x e then s.waitOutside x e
  else if s.discards 4096 ti x then (s.takeExt x e).discardWrite src.toNat x
  else
    let c := (s.takeExt x e).crossLink (some port)
    match c.2.homeWrite x l with
    | none => s.extParks x e
    | some s => if c.1 && inMemory x then s.addPoison x l.length else s

/-- An atomic of a peer: the old value returns (R162). -/
def State.peerAtomic (s : State) (port x op size : Nat) (b c : W64) (ti : Bool) (src : Nat) (e : Ext) : State :=
  if (s.homeOf x).isNone then (s.takeExt x e).toPeer port x (List.replicate size 0xFF) true
  else if !s.extReady x e then s.waitOutside x e
  else
    let u := s.takeExt x e
    match regionOf x with
    | .launch h _ => (u.refuseAtomic h op size b c).toPeer port x (natLe size 0) false
    | .mgmt off =>
      if size ≠ 8 then u.toPeer port x (natLe size 0) false else
      let r := u.mgmtLoad off 8
      let t := r.2.toPeer port x (natLe 8 r.1.toNat) false
      (match (atomNew op 8 r.1.toNat b.toNat c.toNat).1 with
       | some v => (t.mgmtStore off 8 (w64 v)).getD (s.extParks x e)
       | none => t)
    | .host _ => u.toPeer port x (natLe size 0) false
    | _ =>
      let k := u.crossLink (some port)
      let s := k.2.correct x size
      let m := s.loadN x size
      let t := s.toPeer port x (natLe size m) (s.poisoned x size)
      match (atomNew op size m b.toNat c.toNat).1 with
      | none => t
      | some v =>
        if s.discards 4096 ti x then t.discardWrite src x
        else
          let t := { t with mem := writeBytes t.mem x (natLe size v) }.clearPoison x size
          if k.1 then t.addPoison x size else t

/-- Changes the stream of a round that arrives from a peer port, where its weir's buffer has room for the `n` entries that come
(R304); an entry whose flit failed on two rails cuts the round (R400, R403). -/
def State.modPeerStream (s : State) (g k port n : Nat) (f : Stream → Stream) : State :=
  let r := s.round g k
  if r.cut || !(s.group g).open_ || decide (64 < s.buffered (peerStream port) + n) then s
  else if s.badFlits.contains port then (s.crossLink (some port)).2.cutRound g k 0 0
  else s.setRound g k { r with streams := put r.streams (peerStream port) (f (look {} r.streams (peerStream port))) }

/-- PEER_ACCESS (R420, R322): an access within one line, or an entry or the end of a round's stream, that arrives through a
peer port. -/
def execPeerAccess (port : Nat) (op : PeerOp) (s : State) : Result :=
  .next (match op with
    | .read x size => if size = 0 ∨ 64 < x % 64 + size then s else s.peerRead port x size
    | .write x bytes ti src => if bytes.isEmpty ∨ 64 < x % 64 + bytes.length then s else s.peerWrite port x bytes ti src
    | .atomic x o dbl b c ti src =>
      let size := if dbl then 8 else 4
      if x % size ≠ 0 ∨ 10 < o.toNat then s else s.peerAtomic port x o.toNat size b c ti src.toNat (.peer port op)
    | .entry g k words => s.modPeerStream g k port words.length fun x => words.foldl Stream.word x
    | .streamEnd g k => s.modPeerStream g k port 0 fun x => { x with ended := true })

/-! ### Identity (R425) -/

/-- An SPDM answer (R425); its bytes are free. -/
def State.answerSpdm (s : State) (code a : Nat) (offers : List ExtAsym) (covers : List Measured) : State :=
  { s.bump with spdm := s.spdm ++ [{ code := code, offers := offers, covers := covers, bytes := Config.spdm code a s.free }] }

/-- What the measurements cover (R425). -/
def State.measured (s : State) : List Measured :=
  [.bootRom, .firmware s.fwver, .fuses Config.rollback, .bringup (s.moduleReg 0 0x380)]

/-- GET_VERSION (R425). -/
def execGetVersion (s : State) : Result := .next (s.answerSpdm 0x84 0 [] [])
/-- GET_CAPABILITIES (R425). -/
def execGetCapabilities (s : State) : Result := .next (s.answerSpdm 0xE1 0 [] [])
/-- NEGOTIATE_ALGORITHMS (R425). -/
def execNegotiateAlgorithms (s : State) : Result := .next (s.answerSpdm 0xE3 0 [.lmsSha256] [])
/-- GET_DIGESTS (R425). -/
def execGetDigests (s : State) : Result := .next (s.answerSpdm 0x81 0 [] [])
/-- GET_CERTIFICATE (R425): a part of the certificate chain. -/
def execGetCertificate (offset length : Nat) (s : State) : Result := .next (s.answerSpdm 0x82 (offset * 2 ^ 16 + length) [] [])
/-- CHALLENGE (R425). -/
def execChallenge (nonce : BitVec 256) (s : State) : Result := .next (s.answerSpdm 0x83 nonce.toNat [] [])
/-- GET_MEASUREMENTS (R425). -/
def execGetMeasurements (nonce : BitVec 256) (s : State) : Result := .next (s.answerSpdm 0xE0 nonce.toNat [] s.measured)

end Sys2Proof.Machine
end

