-- ==== Sys2Proof/Machine/Dispatch.lean ====
section
/-! DEFINITION. What each instruction and each event does: one arm per row of the opcode table. -/

namespace Sys2Proof.Machine

/-- Executes an instruction of the running thread (State.cur), or lets an event happen. -/
def exec (i : Instr) (s : State) : Host.Outcome State Fault Refusal :=
  match i with
  | .add d a b => Sys2Proof.Machine.execAdd d a b s
  | .sub d a b => Sys2Proof.Machine.execSub d a b s
  | .and d a b => Sys2Proof.Machine.execAnd d a b s
  | .or d a b => Sys2Proof.Machine.execOr d a b s
  | .xor d a b => Sys2Proof.Machine.execXor d a b s
  | .andn d a b => Sys2Proof.Machine.execAndn d a b s
  | .sll d a b => Sys2Proof.Machine.execSll d a b s
  | .srl d a b => Sys2Proof.Machine.execSrl d a b s
  | .sra d a b => Sys2Proof.Machine.execSra d a b s
  | .rol d a b => Sys2Proof.Machine.execRol d a b s
  | .ror d a b => Sys2Proof.Machine.execRor d a b s
  | .slt d a b => Sys2Proof.Machine.execSlt d a b s
  | .sltu d a b => Sys2Proof.Machine.execSltu d a b s
  | .min d a b => Sys2Proof.Machine.execMin d a b s
  | .max d a b => Sys2Proof.Machine.execMax d a b s
  | .minu d a b => Sys2Proof.Machine.execMinu d a b s
  | .maxu d a b => Sys2Proof.Machine.execMaxu d a b s
  | .addw d a b => Sys2Proof.Machine.execAddw d a b s
  | .subw d a b => Sys2Proof.Machine.execSubw d a b s
  | .clz d a => Sys2Proof.Machine.execClz d a s
  | .ctz d a => Sys2Proof.Machine.execCtz d a s
  | .popc d a => Sys2Proof.Machine.execPopc d a s
  | .sextb d a => Sys2Proof.Machine.execSextb d a s
  | .sexth d a => Sys2Proof.Machine.execSexth d a s
  | .sextw d a => Sys2Proof.Machine.execSextw d a s
  | .mul d a b => Sys2Proof.Machine.execMul d a b s
  | .mulh d a b => Sys2Proof.Machine.execMulh d a b s
  | .mulhu d a b => Sys2Proof.Machine.execMulhu d a b s
  | .mulhsu d a b => Sys2Proof.Machine.execMulhsu d a b s
  | .div d a b => Sys2Proof.Machine.execDiv d a b s
  | .divu d a b => Sys2Proof.Machine.execDivu d a b s
  | .rem d a b => Sys2Proof.Machine.execRem d a b s
  | .remu d a b => Sys2Proof.Machine.execRemu d a b s
  | .mulw d a b => Sys2Proof.Machine.execMulw d a b s
  | .divw d a b => Sys2Proof.Machine.execDivw d a b s
  | .divwu d a b => Sys2Proof.Machine.execDivwu d a b s
  | .remw d a b => Sys2Proof.Machine.execRemw d a b s
  | .remwu d a b => Sys2Proof.Machine.execRemwu d a b s
  | .divideComplete core slot => Sys2Proof.Machine.execDivideComplete core slot s
  | .addi d a im => Sys2Proof.Machine.execAddi d a im s
  | .slti d a im => Sys2Proof.Machine.execSlti d a im s
  | .sltiu d a im => Sys2Proof.Machine.execSltiu d a im s
  | .andi d a im => Sys2Proof.Machine.execAndi d a im s
  | .ori d a im => Sys2Proof.Machine.execOri d a im s
  | .xori d a im => Sys2Proof.Machine.execXori d a im s
  | .slli d a n => Sys2Proof.Machine.execSlli d a n s
  | .srli d a n => Sys2Proof.Machine.execSrli d a n s
  | .srai d a n => Sys2Proof.Machine.execSrai d a n s
  | .rori d a n => Sys2Proof.Machine.execRori d a n s
  | .ldhi d im => Sys2Proof.Machine.execLdhi d im s
  | .pcrel d im => Sys2Proof.Machine.execPcrel d im s
  | .afset d a b => Sys2Proof.Machine.execAfset d a b s
  | .afbase d a => Sys2Proof.Machine.execAfbase d a s
  | .afstr d a => Sys2Proof.Machine.execAfstr d a s
  | .afadd d a b => Sys2Proof.Machine.execAfadd d a b s
  | .afstep d a => Sys2Proof.Machine.execAfstep d a s
  | .afmov d a => Sys2Proof.Machine.execAfmov d a s
  | .afrdb d a => Sys2Proof.Machine.execAfrdb d a s
  | .afrds d a => Sys2Proof.Machine.execAfrds d a s
  | .sete d => Sys2Proof.Machine.execSete d s
  | .setf d => Sys2Proof.Machine.execSetf d s
  | .tstf d a => Sys2Proof.Machine.execTstf d a s
  | .gld d n => Sys2Proof.Machine.execGld d n s
  | .gst n a => Sys2Proof.Machine.execGst n a s
  | .gldfe d n => Sys2Proof.Machine.execGldfe d n s
  | .gstfe n a => Sys2Proof.Machine.execGstfe n a s
  | .rfill a b => Sys2Proof.Machine.execRfill a b s
  | .vsete d => Sys2Proof.Machine.execVsete d s
  | .vtstf d v => Sys2Proof.Machine.execVtstf d v s
  | .rdfe d c => Sys2Proof.Machine.execRdfe d c s
  | .wrfe c a => Sys2Proof.Machine.execWrfe c a s
  | .qpushc q a => Sys2Proof.Machine.execQpushc q a s
  | .qstat q d => Sys2Proof.Machine.execQstat q d s
  | .movc d c => Sys2Proof.Machine.execMovc d c s
  | .movtc a c => Sys2Proof.Machine.execMovtc a c s
  | .trap n => Sys2Proof.Machine.execTrap n s
  | .eret => Sys2Proof.Machine.execEret s
  | .bkpt n => Sys2Proof.Machine.execBkpt n s
  | .yield => Sys2Proof.Machine.execYield s
  | .yieldExpiry core slot => Sys2Proof.Machine.execYieldExpiry core slot s
  | .sleep a => Sys2Proof.Machine.execSleep a s
  | .sleepWake core slot => Sys2Proof.Machine.execSleepWake core slot s
  | .icinv a => Sys2Proof.Machine.execIcinv a s
  | .tlbinv a b => Sys2Proof.Machine.execTlbinv a b s
  | .halt => Sys2Proof.Machine.execHalt s
  | .beq a b o => Sys2Proof.Machine.execBeq a b o s
  | .bne a b o => Sys2Proof.Machine.execBne a b o s
  | .blt a b o => Sys2Proof.Machine.execBlt a b o s
  | .bge a b o => Sys2Proof.Machine.execBge a b o s
  | .bltu a b o => Sys2Proof.Machine.execBltu a b o s
  | .bgeu a b o => Sys2Proof.Machine.execBgeu a b o s
  | .br o => Sys2Proof.Machine.execBr o s
  | .call o => Sys2Proof.Machine.execCall o s
  | .jalr d a im => Sys2Proof.Machine.execJalr d a im s
  | .bany k o => Sys2Proof.Machine.execBany k o s
  | .ball k o => Sys2Proof.Machine.execBall k o s
  | .bnone k o => Sys2Proof.Machine.execBnone k o s
  | .bnall k o => Sys2Proof.Machine.execBnall k o s
  | .dif k => Sys2Proof.Machine.execDif k s
  | .delse => Sys2Proof.Machine.execDelse s
  | .dend => Sys2Proof.Machine.execDend s
  | .dbrk k => Sys2Proof.Machine.execDbrk k s
  | .whole => Sys2Proof.Machine.execWhole s
  | .wholeH => Sys2Proof.Machine.execWholeH s
  | .endwhole => Sys2Proof.Machine.execEndwhole s
  | .chpub => Sys2Proof.Machine.execChpub s
  | .chclose => Sys2Proof.Machine.execChclose s
  | .chsub a => Sys2Proof.Machine.execChsub a s
  | .chunsub => Sys2Proof.Machine.execChunsub s
  | .chsync => Sys2Proof.Machine.execChsync s
  | .chleaveIf a o => Sys2Proof.Machine.execChleaveIf a o s
  | .chresub a t => Sys2Proof.Machine.execChresub a t s
  | .chrdv t => Sys2Proof.Machine.execChrdv t s
  | .rendezvousTimeout core slot => Sys2Proof.Machine.execRendezvousTimeout core slot s
  | .bundleArrival core slot => Sys2Proof.Machine.execBundleArrival core slot s
  | .channelHold core slot => Sys2Proof.Machine.execChannelHold core slot s
  | .departureReport core slot => Sys2Proof.Machine.execDepartureReport core slot s
  | .clockCrossingRelock core slot => Sys2Proof.Machine.execClockCrossingRelock core slot s
  | .spawn a => Sys2Proof.Machine.execSpawn a s
  | .callat d a => Sys2Proof.Machine.execCallat d a s
  | .retv a => Sys2Proof.Machine.execRetv a s
  | .quit => Sys2Proof.Machine.execQuit s
  | .tmake d a b => Sys2Proof.Machine.execTmake d a b s
  | .tdec a => Sys2Proof.Machine.execTdec a s
  | .tdecArrival n => Sys2Proof.Machine.execTdecArrival n s
  | .migr a => Sys2Proof.Machine.execMigr a s
  | .migrationArrival n => Sys2Proof.Machine.execMigrationArrival n s
  | .qret => Sys2Proof.Machine.execQret s
  | .ldB d a im => Sys2Proof.Machine.execLdB d a im s
  | .ldH d a im => Sys2Proof.Machine.execLdH d a im s
  | .ldW d a im => Sys2Proof.Machine.execLdW d a im s
  | .ldD d a im => Sys2Proof.Machine.execLdD d a im s
  | .ldBu d a im => Sys2Proof.Machine.execLdBu d a im s
  | .ldHu d a im => Sys2Proof.Machine.execLdHu d a im s
  | .ldWu d a im => Sys2Proof.Machine.execLdWu d a im s
  | .stB d a im => Sys2Proof.Machine.execStB d a im s
  | .stH d a im => Sys2Proof.Machine.execStH d a im s
  | .stW d a im => Sys2Proof.Machine.execStW d a im s
  | .stD d a im => Sys2Proof.Machine.execStD d a im s
  | .ldfe d a y w o => Sys2Proof.Machine.execLdfe d a y w o s
  | .ldff d a y w o => Sys2Proof.Machine.execLdff d a y w o s
  | .stfe d a y w o => Sys2Proof.Machine.execStfe d a y w o s
  | .stff d a y w o => Sys2Proof.Machine.execStff d a y w o s
  | .feclr a y w o => Sys2Proof.Machine.execFeclr a y w o s
  | .aadd d a b w y => Sys2Proof.Machine.execAadd d a b w y s
  | .aand d a b w y => Sys2Proof.Machine.execAand d a b w y s
  | .aor d a b w y => Sys2Proof.Machine.execAor d a b w y s
  | .axor d a b w y => Sys2Proof.Machine.execAxor d a b w y s
  | .amin d a b w y => Sys2Proof.Machine.execAmin d a b w y s
  | .amax d a b w y => Sys2Proof.Machine.execAmax d a b w y s
  | .aminu d a b w y => Sys2Proof.Machine.execAminu d a b w y s
  | .amaxu d a b w y => Sys2Proof.Machine.execAmaxu d a b w y s
  | .aswap d a b w y => Sys2Proof.Machine.execAswap d a b w y s
  | .acas d a b w y => Sys2Proof.Machine.execAcas d a b w y s
  | .atomicAfadd d a b y => Sys2Proof.Machine.execAtomicAfadd d a b y s
  | .fence y => Sys2Proof.Machine.execFence y s
  | .barinit a b => Sys2Proof.Machine.execBarinit a b s
  | .bararr a b => Sys2Proof.Machine.execBararr a b s
  | .barwait a b => Sys2Proof.Machine.execBarwait a b s
  | .barrd d a => Sys2Proof.Machine.execBarrd d a s
  | .pjoin a b => Sys2Proof.Machine.execPjoin a b s
  | .pleave => Sys2Proof.Machine.execPleave s
  | .pquery d a => Sys2Proof.Machine.execPquery d a s
  | .bseal => Sys2Proof.Machine.execBseal s
  | .bwait a => Sys2Proof.Machine.execBwait a s
  | .mbsend m a => Sys2Proof.Machine.execMbsend m a s
  | .mbtake d m => Sys2Proof.Machine.execMbtake d m s
  | .vadd d a b k => Sys2Proof.Machine.execVadd d a b k s
  | .vsub d a b k => Sys2Proof.Machine.execVsub d a b k s
  | .vmul d a b k => Sys2Proof.Machine.execVmul d a b k s
  | .vmulh d a b k => Sys2Proof.Machine.execVmulh d a b k s
  | .vmulhu d a b k => Sys2Proof.Machine.execVmulhu d a b k s
  | .vand d a b k => Sys2Proof.Machine.execVand d a b k s
  | .vor d a b k => Sys2Proof.Machine.execVor d a b k s
  | .vxor d a b k => Sys2Proof.Machine.execVxor d a b k s
  | .vandn d a b k => Sys2Proof.Machine.execVandn d a b k s
  | .vsll d a b k => Sys2Proof.Machine.execVsll d a b k s
  | .vsrl d a b k => Sys2Proof.Machine.execVsrl d a b k s
  | .vsra d a b k => Sys2Proof.Machine.execVsra d a b k s
  | .vmin d a b k => Sys2Proof.Machine.execVmin d a b k s
  | .vmax d a b k => Sys2Proof.Machine.execVmax d a b k s
  | .vminu d a b k => Sys2Proof.Machine.execVminu d a b k s
  | .vmaxu d a b k => Sys2Proof.Machine.execVmaxu d a b k s
  | .vadds d a b k => Sys2Proof.Machine.execVadds d a b k s
  | .vsubs d a b k => Sys2Proof.Machine.execVsubs d a b k s
  | .vaddsu d a b k => Sys2Proof.Machine.execVaddsu d a b k s
  | .vsubsu d a b k => Sys2Proof.Machine.execVsubsu d a b k s
  | .vabs d a k => Sys2Proof.Machine.execVabs d a k s
  | .vclz d a k => Sys2Proof.Machine.execVclz d a k s
  | .vpopc d a k => Sys2Proof.Machine.execVpopc d a k s
  | .vceq d a b k => Sys2Proof.Machine.execVceq d a b k s
  | .vclt d a b k => Sys2Proof.Machine.execVclt d a b k s
  | .vcltu d a b k => Sys2Proof.Machine.execVcltu d a b k s
  | .vfadd d a b k => Sys2Proof.Machine.execVfadd d a b k s
  | .vfsub d a b k => Sys2Proof.Machine.execVfsub d a b k s
  | .vfmul d a b k => Sys2Proof.Machine.execVfmul d a b k s
  | .vfdiv d a b k => Sys2Proof.Machine.execVfdiv d a b k s
  | .vfma d a b k => Sys2Proof.Machine.execVfma d a b k s
  | .vfms d a b k => Sys2Proof.Machine.execVfms d a b k s
  | .vfnma d a b k => Sys2Proof.Machine.execVfnma d a b k s
  | .vfmin d a b k => Sys2Proof.Machine.execVfmin d a b k s
  | .vfmax d a b k => Sys2Proof.Machine.execVfmax d a b k s
  | .vfabs d a k => Sys2Proof.Machine.execVfabs d a k s
  | .vfneg d a k => Sys2Proof.Machine.execVfneg d a k s
  | .vfceq d a b k => Sys2Proof.Machine.execVfceq d a b k s
  | .vfclt d a b k => Sys2Proof.Machine.execVfclt d a b k s
  | .vfcle d a b k => Sys2Proof.Machine.execVfcle d a b k s
  | .vfcun d a b k => Sys2Proof.Machine.execVfcun d a b k s
  | .vfsqrt d a k => Sys2Proof.Machine.execVfsqrt d a k s
  | .vfrsq d a k => Sys2Proof.Machine.execVfrsq d a k s
  | .vfrcp d a k => Sys2Proof.Machine.execVfrcp d a k s
  | .vfexp2 d a k => Sys2Proof.Machine.execVfexp2 d a k s
  | .vflog2 d a k => Sys2Proof.Machine.execVflog2 d a k s
  | .vfsin d a k => Sys2Proof.Machine.execVfsin d a k s
  | .vfcos d a k => Sys2Proof.Machine.execVfcos d a k s
  | .vftanh d a k => Sys2Proof.Machine.execVftanh d a k s
  | .vcvt d a k f t => Sys2Proof.Machine.execVcvt d a k f t s
  | .vperm d a b k => Sys2Proof.Machine.execVperm d a b k s
  | .qxch d a p k => Sys2Proof.Machine.execQxch d a p k s
  | .qbcast d a n k => Sys2Proof.Machine.execQbcast d a n k s
  | .vshup d a n k => Sys2Proof.Machine.execVshup d a n k s
  | .vshdn d a n k => Sys2Proof.Machine.execVshdn d a n k s
  | .vradd d a k => Sys2Proof.Machine.execVradd d a k s
  | .vraddi d a k => Sys2Proof.Machine.execVraddi d a k s
  | .vrmax d a k => Sys2Proof.Machine.execVrmax d a k s
  | .vrmin d a k => Sys2Proof.Machine.execVrmin d a k s
  | .vscan d a k => Sys2Proof.Machine.execVscan d a k s
  | .vscani d a k => Sys2Proof.Machine.execVscani d a k s
  | .vmov d a k => Sys2Proof.Machine.execVmov d a k s
  | .vsel d a b k => Sys2Proof.Machine.execVsel d a b k s
  | .vbcast d y k => Sys2Proof.Machine.execVbcast d y k s
  | .vext v d l => Sys2Proof.Machine.execVext v d l s
  | .vins d y l k => Sys2Proof.Machine.execVins d y l k s
  | .kand d a b => Sys2Proof.Machine.execKand d a b s
  | .kor d a b => Sys2Proof.Machine.execKor d a b s
  | .kxor d a b => Sys2Proof.Machine.execKxor d a b s
  | .knot d a => Sys2Proof.Machine.execKnot d a s
  | .kmov d a => Sys2Proof.Machine.execKmov d a s
  | .elect d a => Sys2Proof.Machine.execElect d a s
  | .ktos a d => Sys2Proof.Machine.execKtos a d s
  | .stok d y => Sys2Proof.Machine.execStok d y s
  | .vany a d => Sys2Proof.Machine.execVany a d s
  | .vall a d => Sys2Proof.Machine.execVall a d s
  | .kpopc a d => Sys2Proof.Machine.execKpopc a d s
  | .vld d a k im => Sys2Proof.Machine.execVld d a k im s
  | .vst d a k im => Sys2Proof.Machine.execVst d a k im s
  | .vldx d im n k => Sys2Proof.Machine.execVldx d im n k s
  | .vstx d im n k => Sys2Proof.Machine.execVstx d im n k s
  | .vldxW d im n k => Sys2Proof.Machine.execVldxW d im n k s
  | .vstxW d im n k => Sys2Proof.Machine.execVstxW d im n k s
  | .slcopy d y e m f => Sys2Proof.Machine.execSlcopy d y e m f s
  | .slcopy2 d y e m f => Sys2Proof.Machine.execSlcopy2 d y e m f s
  | .slgath d y e f => Sys2Proof.Machine.execSlgath d y e f s
  | .slscat d y e f => Sys2Proof.Machine.execSlscat d y e f s
  | .slfill d e f => Sys2Proof.Machine.execSlfill d e f s
  | .slpat d e f => Sys2Proof.Machine.execSlpat d e f s
  | .slsend g y e f => Sys2Proof.Machine.execSlsend g y e f s
  | .slrecv g d e f => Sys2Proof.Machine.execSlrecv g d e f s
  | .sldred g u e f => Sys2Proof.Machine.execSldred g u e f s
  | .slquiesce a b e x => Sys2Proof.Machine.execSlquiesce a b e x s
  | .slresume a b e x => Sys2Proof.Machine.execSlresume a b e x s
  | .slstat d e => Sys2Proof.Machine.execSlstat d e s
  | .sluiceClaim core num => Sys2Proof.Machine.execSluiceClaim core num s
  | .sluiceElement core num => Sys2Proof.Machine.execSluiceElement core num s
  | .sluiceComplete core num => Sys2Proof.Machine.execSluiceComplete core num s
  | .tld a b t => Sys2Proof.Machine.execTld a b t s
  | .tst a b t => Sys2Proof.Machine.execTst a b t s
  | .tzero t im => Sys2Proof.Machine.execTzero t im s
  | .mma => Sys2Proof.Machine.execMma s
  | .spmma o im p => Sys2Proof.Machine.execSpmma o im p s
  | .spmmat o im p => Sys2Proof.Machine.execSpmmat o im p s
  | .had t p im d => Sys2Proof.Machine.execHad t p im d s
  | .tquant a b t => Sys2Proof.Machine.execTquant a b t s
  | .accrd d b c => Sys2Proof.Machine.execAccrd d b c s
  | .accst a b c => Sys2Proof.Machine.execAccst a b c s
  | .acczero c im => Sys2Proof.Machine.execAcczero c im s
  | .mxrec a b => Sys2Proof.Machine.execMxrec a b s
  | .mxrun => Sys2Proof.Machine.execMxrun s
  | .matrixComplete core num => Sys2Proof.Machine.execMatrixComplete core num s
  | .psld a b p => Sys2Proof.Machine.execPsld a b p s
  | .psgen v n d p => Sys2Proof.Machine.execPsgen v n d p s
  | .prank a b p => Sys2Proof.Machine.execPrank a b p s
  | .pschk d b p => Sys2Proof.Machine.execPschk d b p s
  | .pssave a p => Sys2Proof.Machine.execPssave a p s
  | .psrest a p => Sys2Proof.Machine.execPsrest a p s
  | .rgopen a b => Sys2Proof.Machine.execRgopen a b s
  | .rgclose g im => Sys2Proof.Machine.execRgclose g im s
  | .rgstat d b => Sys2Proof.Machine.execRgstat d b s
  | .weirMerge group round node => Sys2Proof.Machine.execWeirMerge group round node s
  | .roundComplete group round => Sys2Proof.Machine.execRoundComplete group round s
  | .watchdogExpiry core num => Sys2Proof.Machine.execWatchdogExpiry core num s
  | .illegal w => Sys2Proof.Machine.execIllegal w s
  | .asyncTrapDelivery core slot => Sys2Proof.Machine.execAsyncTrapDelivery core slot s
  | .fmtmismatchRecord n => Sys2Proof.Machine.execFmtmismatchRecord n s
  | .preempt n => Sys2Proof.Machine.execPreempt n s
  | .fill n => Sys2Proof.Machine.execFill n s
  | .loadValueReturn num => Sys2Proof.Machine.execLoadValueReturn num s
  | .accessPerform num => Sys2Proof.Machine.execAccessPerform num s
  | .waitWithdrawal num => Sys2Proof.Machine.execWaitWithdrawal num s
  | .walkComplete cluster n => Sys2Proof.Machine.execWalkComplete cluster n s
  | .recordArrival n => Sys2Proof.Machine.execRecordArrival n s
  | .ringRefill cluster => Sys2Proof.Machine.execRingRefill cluster s
  | .dispatch core => Sys2Proof.Machine.execDispatch core s
  | .taskEnd core task => Sys2Proof.Machine.execTaskEnd core task s
  | .queueEntryArrival core port => Sys2Proof.Machine.execQueueEntryArrival core port s
  | .samplingPulse => Sys2Proof.Machine.execSamplingPulse s
  | .frequencyStep die => Sys2Proof.Machine.execFrequencyStep die s
  | .newClockStart die => Sys2Proof.Machine.execNewClockStart die s
  | .thermalThrottle die temp => Sys2Proof.Machine.execThermalThrottle die temp s
  | .throttleStep die => Sys2Proof.Machine.execThrottleStep die s
  | .thermalTrip die temp => Sys2Proof.Machine.execThermalTrip die temp s
  | .timeSlew => Sys2Proof.Machine.execTimeSlew s
  | .moduleReset => Sys2Proof.Machine.execModuleReset s
  | .bringupLevelRaise => Sys2Proof.Machine.execBringupLevelRaise s
  | .peerLinkUp port serial => Sys2Proof.Machine.execPeerLinkUp port serial s
  | .farPortUp port gib => Sys2Proof.Machine.execFarPortUp port gib s
  | .railLoss link rail => Sys2Proof.Machine.execRailLoss link rail s
  | .linkDown link rail => Sys2Proof.Machine.execLinkDown link rail s
  | .scrub g => Sys2Proof.Machine.execScrub g s
  | .dump core => Sys2Proof.Machine.execDump core s
  | .launchWindowWrite pa bytes => Sys2Proof.Machine.execLaunchWindowWrite pa bytes s
  | .managementWindowAccess core num size wr => Sys2Proof.Machine.execManagementWindowAccess core num size wr s
  | .cxlMemAccess x size wr => Sys2Proof.Machine.execCxlMemAccess x size wr s
  | .peerAccess port op => Sys2Proof.Machine.execPeerAccess port op s
  | .getVersion => Sys2Proof.Machine.execGetVersion s
  | .getCapabilities => Sys2Proof.Machine.execGetCapabilities s
  | .negotiateAlgorithms => Sys2Proof.Machine.execNegotiateAlgorithms s
  | .getDigests => Sys2Proof.Machine.execGetDigests s
  | .getCertificate offset length => Sys2Proof.Machine.execGetCertificate offset length s
  | .challenge nonce => Sys2Proof.Machine.execChallenge nonce s
  | .getMeasurements nonce => Sys2Proof.Machine.execGetMeasurements nonce s
  | .slreqWrite v => Sys2Proof.Machine.execSlreqWrite v s
  | .hmapWrite core slot => Sys2Proof.Machine.execHmapWrite core slot s
  | .pdirbaseWrite core slot => Sys2Proof.Machine.execPdirbaseWrite core slot s
  | .sptagRead num => Sys2Proof.Machine.execSptagRead num s
  | .sptagWrite num => Sys2Proof.Machine.execSptagWrite num s
  | .qringWrite v => Sys2Proof.Machine.execQringWrite v s
  | .qcfgWrite v => Sys2Proof.Machine.execQcfgWrite v s
  | .accputWrite v => Sys2Proof.Machine.execAccputWrite v s
  | .dropdRead => Sys2Proof.Machine.execDropdRead s
  | .pmrdRead core slot => Sys2Proof.Machine.execPmrdRead core slot s
  | .prpostWrite v => Sys2Proof.Machine.execPrpostWrite v s
  | .rstpostWrite core slot => Sys2Proof.Machine.execRstpostWrite core slot s
  | .mapoutWrite v => Sys2Proof.Machine.execMapoutWrite v s
  | .tadjWrite v => Sys2Proof.Machine.execTadjWrite v s
  | .tfreqWrite v => Sys2Proof.Machine.execTfreqWrite v s
  | .fcapWrite d v => Sys2Proof.Machine.execFcapWrite d v s
  | .smpbufWrite d v => Sys2Proof.Machine.execSmpbufWrite d v s
  | .dumpreqWrite v => Sys2Proof.Machine.execDumpreqWrite v s
  | .haltreq core slot => Sys2Proof.Machine.execHaltreq core slot s
  | .dbgResume core slot => Sys2Proof.Machine.execDbgResume core slot s
  | .step core slot => Sys2Proof.Machine.execStep core slot s
  | .freeze core => Sys2Proof.Machine.execFreeze core s
  | .peerstatOpenWrite p v => Sys2Proof.Machine.execPeerstatOpenWrite p v s
  | .hostwinWrite v => Sys2Proof.Machine.execHostwinWrite v s
  | .patternCommandComplete core => Sys2Proof.Machine.execPatternCommandComplete core s
  | .weirHold core num => Sys2Proof.Machine.execWeirHold core num s
  | .farPortDown port => Sys2Proof.Machine.execFarPortDown port s
  | .remoteOpenClear port => Sys2Proof.Machine.execRemoteOpenClear port s
  | .polderWindowUpdate n => Sys2Proof.Machine.execPolderWindowUpdate n s
  | .groupSetupComplete core slot => Sys2Proof.Machine.execGroupSetupComplete core slot s
  | .tlbShootdown n => Sys2Proof.Machine.execTlbShootdown n s

end Sys2Proof.Machine
end

