-- ==== Sys2Proof/Machine/Issue.lean ====
section
/-! DEFINITION. From a slot to an instruction: the rotation (R326 to R329), instruction fetch (R67, R384, the FETCH trap of
R379), bundles of a channel (R343), breakpoints and single steps (R410, R411), and what an issue leaves behind. -/

namespace Sys2Proof.Machine

/-! ### The rotation (R327, R329) -/

/-- The thread of a slot may issue in this cycle (R327): it is not halted, or has its STEP bit set (R410); it runs, or
something has changed since it parked; its stream has a bundle, and no hold stands (R344); four cycles have passed; and no
asynchronous trap comes first (R380). -/
def State.mayIssue (s : State) (c k : Nat) : Bool :=
  let t := s.slot c k
  let d := (s.core c).dbg
  t.live && !d.freeze && (!t.halted || bitAt d.step k)
    && (match t.wait with
        | .run => true
        | .park _ e => e != s.epoch
        | _ => false)
    && !(t.inStream && t.chBuf.isEmpty) && !s.heldBack c k
    && (match t.lastCyc with | some n => decide (n + 4 ≤ s.cyc (dieOf c)) | none => true)
    && (s.pendingTrap c k).isNone

/-- The slot that a core issues from: the first that may issue after the last one; one issue per cycle (R327), and none while
the die's clock steps (R422). -/
def State.nextSlot (s : State) (c : Nat) : Option Nat :=
  if (s.die (dieOf c)).stepping.isSome || decide ((s.core c).lastCyc = some (s.cyc (dieOf c))) then none
  else ((upto 1 16).map fun i => ((s.core c).last + i) % 16).find? fun k => s.mayIssue c k

/-! ### Fetch -/

/-- What a fetch ends with: a word, or a state in which the thread traps, waits or dies. -/
inductive Fetched where
  | word (w : W32) (s : State)
  | stop (s : State)
  deriving DecidableEq, Repr

/-- The model's count of changes. -/
def State.changed (s : State) : State := { s with epoch := s.epoch + 1 }

/-- A thread waits for its fetch. -/
def State.fetchWait (s : State) (c k code : Nat) : State := s.modSlot c k fun t => { t with wait := .park code s.epoch, queued := none }

/-- The FETCH trap at the thread's PC: the check that failed and its detail (R379). -/
def State.fetchTrap (s : State) (c k stat : Nat) : State :=
  (s.trapEntry c k 6 (s.slot c k).pc (s.slot c k).pc (w64 stat)).changed

/-- The 64 bytes of a block at their home: memory; zeros through the launch and management windows, which no 64-byte read
reaches; the host's or a peer's bytes, which one read brings from outside (R384, R419, R420). -/
def State.readBlock (s : State) (pa : Nat) : List W32 × State :=
  let mem (s : State) : List W32 := (upto 0 16).map fun i => w32 (s.loadN (pa + 4 * i) 4)
  let out := s.outsideBytes pa 64
  let words : List W32 := (upto 0 16).map fun i => w32 (leNat ((out.1.drop (4 * i)).take 4))
  match regionOf pa with
  | .launch _ _ => (List.replicate 16 0, s)
  | .mgmt _ => (List.replicate 16 0, s)
  | .host _ => (words, out.2)
  | .peer _ => (words, out.2)
  | _ => let s := s.correct pa 64; (mem s, s)

/-- Enters a block into a core's fetch cache of 16 KiB; a full cache displaces a block of its choice. -/
def State.fillCache (s : State) (c : Nat) (b : ICBlock) : State :=
  if (s.core c).icache.length < 256 then s.modCore c fun x => { x with icache := x.icache ++ [b] }
  else (s.modCore c fun x => { x with icache := x.icache.eraseIdx (Config.freeNat s.free % 256) ++ [b] }).bump

/-- A fetch that its translation has placed at `pa`: from the fetch cache, or from the block's home (R384).  It waits for an
absent line, and stands in the queue of a frozen home (R412); a thread that fetches poison dies, and so does one whose block came in a
flit that lost two rails (R400, R403). -/
def State.fetchAt (s : State) (c k pa : Nat) : Fetched :=
  let t := s.slot c k
  let pc := t.pc.toNat
  match (s.core c).icache.find? fun b => b.asp == t.aspace.toNat && b.blk == pc / 64 with
  | some b => .word (b.words.getD (pc / 4 % 16) 0) s
  | none =>
    if (s.homeOf pa).isNone then .stop (s.fetchTrap c k 0x104)
    else if !s.present pa then .stop (s.fetchWait c k 5)
    else if !s.homeTakes c pa t.queued then .stop (s.queueRead c k pa 3)
    else
      let x := ((s.takeAt c pa (t.queued.getD 0)).modSlot c k fun t => { t with queued := none }).crossLink (s.linkOf c pa)
      let (ws, s) := (x.2.countIn c 24 none 1).readBlock (pa / 64 * 64)
      if x.1 ∨ s.poisoned pa 4 then .stop (s.kill c k).changed
      else
        let w := ws.getD (pc / 4 % 16) 0
        .word w (if s.poisoned (pa / 64 * 64) 64 then s else s.fillCache c { asp := t.aspace.toNat, blk := pc / 64, words := ws })

/-- Instruction fetch at a thread's PC: always translated, with X (R62, R67, R71); a miss waits for a walk (R76). -/
def State.fetch (s : State) (c k : Nat) : Fetched :=
  let t := s.slot c k
  if 2 ^ 57 ≤ t.pc.toNat then .stop (s.fetchTrap c k 4) else
  let x : Ctx := { core := c, task := t.task, root := t.ptroot, asp := t.aspace.toNat, privS := t.privS }
  match s.translate x t.pc.toNat .fetch with
  | .ok l => s.fetchAt c k l.pa
  | .error (.trap cause d) => .stop (s.fetchTrap c k (cause + d))
  | .error (.walk p) =>
    match t.walkRes.find? fun w => w.1 == p.page && w.2.1 == t.aspace.toNat with
    | some (_, _, cause, d) => .stop (s.fetchTrap c k (cause + d))
    | none => .stop (((s.requestWalk c k t.aspace.toNat t.ptroot p).fetchWait c k 3).modSlot c k fun t =>
        { t with missed := some (p.page, t.aspace.toNat) })

/-! ### What runs next -/

/-- What the machine does next: an instruction of the thread in a slot, an event, or a change that ends with itself. -/
inductive Act where
  | run (i : Instr) (s : State) (c k : Nat)
  | event (i : Instr) (s : State)
  | move (s : State)

/-- The instruction of a word; a word that decodes to none traps with ILLEGAL (R48, R49). -/
noncomputable def instrOf (w : W32) : Instr :=
  match decode w with
  | some i => i
  | none => .illegal w

/-- A breakpoint of the core matches an address (R411). -/
def bpMatch (d : Dbg) (pc : W64) : Bool :=
  (upto 0 4).any fun i => let b := look 0 d.bp i; bitAt b 0 && fieldN b 2 55 == fieldN pc 2 55

/-- The thread of a slot takes an instruction: a single step is spent, and halts the slot again (R410). -/
def State.begin (s : State) (c k : Nat) (w : W32) (b : Option Bundle) : State :=
  let t := s.slot c k
  let s := if t.halted then s.modCore c fun x => { x with dbg := { x.dbg with step := setBit x.dbg.step k false, slot := k, why := 1 } } else s
  let s := match b with | some b => s.modSlot c k fun t => { t with pc := b.pc } | none => s
  { s.modSlot c k fun t => { t with entering := false } with cur := { core := c, slot := k, word := w, bundle := b } }

/-- A subscriber has executed the bundles up to a close marker: it detaches and goes on at the marker's address (R341). -/
def State.atMarker (s : State) (c k : Nat) (pc : W64) : State :=
  ((s.unsubscribe c k).modSlot c k fun t => { t with pc := pc }).changed

/-- The slot issues: a breakpoint halts it first; else the head of its stream's buffer, or a fetched word, is its
instruction (R343, R411). -/
noncomputable def State.issue (s : State) (c k : Nat) : Act :=
  let t := s.slot c k
  let stopped := !t.halted && bpMatch (s.core c).dbg t.nextPc
  match (if t.inStream then t.chBuf.head? else none) with
  | some b =>
    if b.close then .move (s.atMarker c k b.pc)
    else if stopped then .move (s.haltNow c k 2).changed
    else .run (instrOf b.word) (s.begin c k b.word (some b)) c k
  | none =>
    if stopped then .move (s.haltNow c k 2).changed
    else
      match s.fetch c k with
      | .stop s => .move s
      | .word w s => .run (instrOf w) (s.begin c k w none) c k

/-! ### After an issue -/

/-- A word's major, if it is one of the vector instructions (R408). -/
def vectorWord (w : W32) : Bool := let m := w.toNat / 2 ^ 26; decide (0x20 ≤ m) && decide (m ≤ 0x27)

/-- An issue takes its cycle and its turn, and is counted (R327, R372, R408). -/
def State.noteIssue (s : State) (c k now : Nat) (w : W32) (stream : Bool) : State :=
  let s := (s.modCore c fun x => { x with last := k, lastCyc := some now }).modSlot c k fun t => { t with lastCyc := some now }
  let s := s.countIn c 1 (some k) 1
  let s := if vectorWord w then s.countIn c 3 (some k) 1 else s
  let s := if stream then s.countIn c 27 (some k) 1 else s
  s.noteYields c k

/-- Whether a thread has parked, with nothing else changed. -/
def State.reparked (s t : State) (c k : Nat) : Bool :=
  match (t.slot c k).wait with
  | .park _ e => e == s.epoch && t.epoch == s.epoch
  | _ => false

/-- What an issue in state `s` leaves: a parked thread that was tried again and parks again has not issued; any other issue
is noted. -/
def State.settle (s : State) (c k : Nat) (r : Result) : Result :=
  match r with
  | .next t =>
    let tried := match (s.slot c k).wait with | .park .. => true | _ => false
    let note (t : State) : State := t.noteIssue c k (s.cyc (dieOf c)) t.cur.word t.cur.bundle.isSome
    .next (if s.reparked t c k then (if tried then t else note t) else (note t).changed)
  | r => r

/-- What an event leaves. -/
def noteEvent (r : Result) : Result :=
  match r with
  | .next t => .next t.changed
  | r => r

end Sys2Proof.Machine
end

