-- ==== Sys2Proof/Machine/Order.lean ====
section
/-! DEFINITION. Which step comes next: the choices that State lists, and, when it lists none, the model's own order: every
event that can happen, then the issues of a cycle, then time. -/

namespace Sys2Proof.Machine

/-! ### Events that may be due -/

/-- The event that a wait ends with. -/
noncomputable def waitEvent (c k : Nat) (b : Busy) : List Instr :=
  match b with
  | .divide .. => [Instr.divideComplete c k]
  | .vdivide .. => [Instr.divideComplete c k]
  | .yield .. => [Instr.yieldExpiry c k]
  | .sleep _ => [Instr.sleepWake c k]
  | .hmap .. => [Instr.hmapWrite c k]
  | .pdirbase _ => [Instr.pdirbaseWrite c k]
  | .rstpost _ => [Instr.rstpostWrite c k]
  | .pmrd _ => [Instr.pmrdRead c k]
  | .rgopen _ => [Instr.groupSetupComplete c k]
  | _ => []

/-- An event, if it may be due. -/
def ifDue (b : Bool) (i : Instr) : List Instr := if b then [i] else []

/-- Events of a slot: waits that end, its channel's traffic, a trap to deliver. -/
noncomputable def State.slotEvents (s : State) (c k : Nat) : List Instr :=
  let t := s.slot c k
  let waits : List Instr := match t.wait with | .busy _ b => waitEvent c k b | _ => []
  List.flatten [ifDue (s.pendingTrap c k).isSome (Instr.asyncTrapDelivery c k), waits,
    ifDue t.rdv.isSome (Instr.rendezvousTimeout c k), ifDue (!t.chFly.isEmpty) (Instr.bundleArrival c k),
    ifDue (t.chState == 2 || t.chHold) (Instr.channelHold c k), ifDue (!t.chReports.isEmpty) (Instr.departureReport c k)]

/-- Events of a sluice command: the writes it has sent are performed before its engine sends the next (R118, R175). -/
noncomputable def sluiceEvents (c : Nat) (q : SlCmd) : List Instr :=
  List.flatten [[.sluiceClaim c q.uid], (upto 1 q.pend.length).map fun n => Instr.sluiceElement c ⟨q.uid, n⟩,
    [.sluiceElement c ⟨q.uid, 0⟩, .sluiceComplete c q.uid, .weirHold c q.uid, .watchdogExpiry c q.uid]]

/-- The arrival of an access from outside that has waited at its home (R412). -/
noncomputable def extEvent (e : Ext) : Instr :=
  match e with
  | .host pa size wr => .cxlMemAccess pa size wr
  | .peer port op => .peerAccess port op

/-- The address that an access from outside names; an entry of a stream names none. -/
def Ext.addr (e : Ext) : Nat :=
  match e with
  | .host pa _ _ => pa
  | .peer _ (.read x _) => x
  | .peer _ (.write x _ _ _) => x
  | .peer _ (.atomic x _ _ _ _ _ _) => x
  | .peer _ _ => 0

/-- Events of a core. -/
noncomputable def State.coreEvents (s : State) (c : Nat) : List Instr :=
  let x := s.core c
  List.flatten [(keys x.slots).flatMap (s.slotEvents c), x.mx.map fun q => Instr.matrixComplete c q.id,
    ifDue (!x.pg.isEmpty) (Instr.patternCommandComplete c), x.slcmds.flatMap (sluiceEvents c), ifDue x.dump.isSome (Instr.dump c),
    (keys x.tasks).map fun h => Instr.taskEnd c h, (keys x.ports).map fun p => Instr.queueEntryArrival c p,
    x.chan.relock.map fun p => Instr.clockCrossingRelock p.1 p.2, ifDue (!x.migbuf.isEmpty) (Instr.migrationArrival c)]

/-- The event that a message's arrival is. -/
noncomputable def msgEvent (n : Nat) (m : Msg) : Instr :=
  match m with
  | .fill .. => .fill n
  | .tdec .. => .tdecArrival n
  | .record .. => .recordArrival n
  | .preempt _ => .preempt n
  | .fmt .. => .fmtmismatchRecord n
  | .polder .. => .polderWindowUpdate n
  | .tlb .. => .tlbShootdown n

/-- The event that an access waits for: it is performed, or its value returns. -/
noncomputable def flightEvent (f : Flight) : Instr :=
  match f.stage, f.op with
  | .returning .., _ => .loadValueReturn f.id
  | _, .sptagRead _ => .sptagRead f.id
  | _, .sptagWrite _ => .sptagWrite f.id
  | _, _ => .accessPerform f.id

/-- Events of a hub: its walks, its ring, and dispatch on each of its cores. -/
noncomputable def hubEvents (h : Nat) (x : Hub) : List Instr :=
  List.flatten [(upto 0 (Nat.min 8 x.walks.length)).map fun n => Instr.walkComplete h n,
    ifDue (decide (x.ringCount ≠ 0)) (Instr.ringRefill h),
    if x.bank.isEmpty then [] else (upto (16 * h) 16).map fun c => Instr.dispatch c]

/-- The weirs that a member core's stream passes (R303). -/
def weirPath (g : Group) (c : Nat) : List Nat :=
  let at_ (h n i : Nat) : List Nat := ((upto 1 n).filter fun l => weirAt h l (i / 2 ^ l)).map fun l => weirId h l (i / 2 ^ l)
  at_ (c / 16) 4 (c % 16) ++ at_ (256 + c / 1024) 6 (c / 16 % 64) ++ at_ 260 2 (c / 1024) ++ g.ports.map peerWeir

/-- Events of a group's rounds. -/
noncomputable def groupEvents (g : Nat) (x : Group) : List Instr :=
  (keys x.rounds).flatMap fun k =>
    List.flatten [(x.members.flatMap (weirPath x)).eraseDups.map fun n => Instr.weirMerge g k n, [Instr.roundComplete g k],
      x.away.map fun p => Instr.watchdogExpiry p.1 p.2.uid]

/-- Events of a die's clock. -/
noncomputable def dieEvents (d : Nat) (x : Die) : List Instr :=
  List.flatten [ifDue x.stepping.isSome (Instr.newClockStart d), ifDue x.request.isSome (Instr.frequencyStep d),
    ifDue x.throttled (Instr.throttleStep d)]

/-- Every event inside the module that may be due. -/
noncomputable def State.events (s : State) : List Instr :=
  List.flatten [ifDue s.pulseDue Instr.samplingPulse, [Instr.timeSlew], s.flights.map flightEvent,
    s.msgs.map fun p => msgEvent p.1 p.2, (s.ext.filter fun p => s.extReady p.2.addr p.2).map fun p => extEvent p.2, (keys s.cores).flatMap s.coreEvents, s.hubs.flatMap fun p => hubEvents p.1 p.2,
    s.groups.flatMap fun p => groupEvents p.1 p.2, s.dies.flatMap fun p => dieEvents p.1 p.2]

/-- An event has an effect now. -/
def State.happens (s : State) (i : Instr) : Bool :=
  match exec i s with
  | .next t => decide (t ≠ s)
  | _ => false

/-! ### Time -/

/-- Time runs on by up to `n` ticks; a sampling pulse that is due comes first, and a tick of a slew (R406, R421). -/
noncomputable def State.tick (s : State) (n : Nat) : Act :=
  if s.pulseDue then .event .samplingPulse s else if s.slewDue then .event .timeSlew s else .move (s.advance n).changed

/-! ### The next step -/

/-- A core issues from a slot, when that slot's turn has come (R327); otherwise the choice is void. -/
noncomputable def State.issueAt (s : State) (c k : Nat) : Act := if s.nextSlot c = some k then s.issue c k else .move s

/-- The model's own order. -/
noncomputable def State.ownAct (s : State) : Act :=
  match s.events.find? s.happens with
  | some i => .event i s
  | none =>
    match (keys s.cores).findSome? s.dispatcherStep with
    | some t => .move t.changed
    | none =>
      match (keys s.cores).findSome? fun c => (s.nextSlot c).map fun k => (c, k) with
      | some (c, k) => s.issue c k
      | none => s.tick 1

/-- What happens next: the first choice that State lists, or the model's own order. -/
noncomputable def State.nextAct (s : State) : Act :=
  match s.agenda with
  | [] => s.ownAct
  | ch :: r =>
    let s := { s with agenda := r }
    match ch with
    | .issue c k => s.issueAt c k
    | .event i => .event i s
    | .tick n => s.tick n
    | .dispatcher c =>
      match s.dispatcherStep c with
      | some t => .move t.changed
      | none => .move s

/-! ### A program placed from outside -/

/-- The page, virtual and physical, that holds a program placed from outside: it lies in LPDDR-5X, whose homes LEVEL 3
serves (R424). -/
def loadBase : Nat := 2 ^ 32

/-- The thread of a placed program: slot 15 of core 0, at S. -/
def loadThread (tid : Nat) : Slot := { live := true, tid := tid, task := 15, privS := true, pc := w64 loadBase }

/-- The allocation of its task: every bank, tile and accumulator, and the sluice. -/
def loadTask : Task := { live := true, banks := upto 0 128, tiles := upto 0 8, accs := upto 0 4, sluice := true }

/-- Places the bytes of an instruction where core 0's slot 15 fetches next, with the thread, the page and the turn that this
takes. -/
def State.placeWord (s : State) (bytes : List Byte) : State :=
  let s := { s with level := 3, hmap := put s.hmap 0 0, agenda := [.issue 0 15], nextTid := s.nextTid + 1 }
  let s := s.modDie 0 fun x => { x with stepping := none }
  let s := (s.storeAt loadBase (bytes ++ natLe 4 0)).setSlot 0 15 (loadThread s.nextTid)
  s.modCore 0 fun x => { x with
    last := 14, lastCyc := none, dbg := {}, tasks := put x.tasks 15 loadTask, icache := [],
    tlb := [{ base := loadBase, bits := 16, pa := loadBase, perm := 0x3F, asp := 0 }] }

end Sys2Proof.Machine
end

