-- ==== Sys2Proof/Machine/Step.lean ====
section
/-! DEFINITION. One step of the module, and the placing of an instruction for it. -/

namespace Sys2Proof.Machine

/-- One step: an instruction of one thread, an event, or a change of the model's own (a thread that waits for its fetch, time
that runs on). -/
noncomputable def step (s : State) : Host.Outcome State Fault Refusal :=
  match s.nextAct with
  | .run i t c k => t.settle c k (exec i t)
  | .event i t => noteEvent (exec i t)
  | .move t => .next t

/-- The machine with the instruction of bits `w` where its next step fetches: one word, little-endian (R17). -/
def State.withFetchWord (s : State) (_nbits w : Nat) : State := s.placeWord (wordBytes (word w))

end Sys2Proof.Machine
end

