-- ==== Sys2Proof/Safety.lean ====
section
/-! DEFINITION. The terms in which statements about the machine are made: what a thread can read and write, what an
instruction leaves alone, and the invariants that hold of a well-formed module. -/

namespace Sys2Proof.Machine

/-! ### The thread that ran -/

/-- The thread that runs in `s`, as it stands in `t`. -/
def State.thread (t s : State) : Slot := t.slot s.cur.core s.cur.slot

/-- Withdrawing what the thread of a slot waits for brings it back to its instruction: its access has not been performed (R161). -/
def State.goesBack (s : State) (c k : Nat) : Bool :=
  match (s.slot c k).wait with
  | .dumping => false
  | .busy _ (.access id) =>
    (match s.flights.find? fun f => f.id == id with
     | some f => (match f.stage with | .returning .. => false | _ => true)
     | none => true)
  | .busy _ (.chsub _) => !(s.slot c k).inStream
  | .busy _ (.chresub _) => !(s.slot c k).inStream
  | _ => true

/-- No register fill waits in its pair's load-value queue for the thread of a slot to land as that thread goes on (R397). -/
def State.noLanding (s : State) (c k : Nat) : Bool :=
  match (s.slot c k).role with
  | .trailing j => (s.slot c j).lvq.all fun e => e.at_.isNone
  | _ => true

/-- A state in which an instruction is about to run: its branch target and the port entries that it has read are not set, of slot 15
no SLQUIESCE or SLRESUME is under way (R111), the mask, affine and shared registers it may read hold no latent error (R399), and of
a pair no fill is to land in the trailing thread (R397). -/
def State.begun (s : State) : Prop :=
  s.cur.npc = none ∧ s.me.pops = [] ∧ (s.cur.slot = 15 → s.myCore.slHold = none) ∧ s.me.rErr = [] ∧ s.myCore.gErr = [] ∧
    s.noLanding s.cur.core s.cur.slot

/-- What s[n] reads: s0 reads zero (R199). -/
def Slot.scalar (t : Slot) (n : BitVec 6) : W64 := if n = 0 then 0 else look 0 t.sr n.toNat

/-- s[n] is a plain register that holds a value: no queue port, full, not awaiting an access, without poison or a latent error (R201,
R207, R220, R399, R400). -/
def Slot.readyS (t : Slot) (n : BitVec 6) : Prop :=
  n = 0 ∨ (t.isPort n.toNat = false ∧ bitAt t.sFull n.toNat = true ∧ bitAt t.sAwait n.toNat = false ∧ bitAt t.sPoison n.toNat = false ∧
    bitAt t.sErr n.toNat = false)

/-- s[n] can be written at once: no queue port, and no access of the thread is outstanding into it (R220). -/
def Slot.openS (t : Slot) (n : BitVec 6) : Prop := n = 0 ∨ (t.isPort n.toNat = false ∧ bitAt t.sAwait n.toNat = false)

/-- v[n] holds a value, without poison or a latent error (R201, R399, R400). -/
def Slot.readyV (t : Slot) (n : BitVec 5) : Prop :=
  bitAt t.vFull n.toNat = true ∧ bitAt t.vAwait n.toNat = false ∧ bitAt t.vPoison n.toNat = false ∧ ∀ g, g ∈ t.vErr → g / 8 ≠ n.toNat

/-- v[n] can be written at once. -/
def Slot.openV (t : Slot) (n : BitVec 5) : Prop := bitAt t.vAwait n.toNat = false

/-! ### What an instruction leaves alone -/

/-- Only the running thread has changed, but for bundles that a publisher sends to its subscribers (R338): memory, homes,
messages, accesses, hubs, dies and every other thread are as before. -/
structure OnlyThread (s t : State) : Prop where
  module : { t with cores := [], cur := {} } = { s with cores := [], cur := {} }
  cores : ∀ c, { t.core c with slots := [] } = { s.core c with slots := [] }
  threads : ∀ c k, (c, k) ≠ (s.cur.core, s.cur.slot) → { t.slot c k with chFly := [] } = { s.slot c k with chFly := [] }

/-- A thread but for what completing any instruction changes: its PC, its retired PCs and their count, its wait and what it kept for
it, and the bundles at the head of its stream. -/
def Slot.still (t : Slot) : Slot :=
  { t with pc := 0, retired := [], wait := .run, walkRes := [], missed := none, queued := none, agreed := false, rdv := none, wip := none,
           pops := [], count := 0, ins := [], chBuf := [], chAt := none }

/-- The thread has completed its instruction and goes on at `pc`; of its own state only what `but` forgets has changed, and
nothing outside it. -/
structure Went (s t : State) (pc : W64) (but : Slot → Slot) : Prop where
  outside : OnlyThread s t
  pc : (t.thread s).pc = pc
  wait : (t.thread s).wait = .run
  still : but (t.thread s).still = but s.me.still

/-- Forgets the scalar registers. -/
def noS (t : Slot) : Slot := { t with sr := [], sFull := 0, sPoison := 0, sErr := 0 }
/-- Forgets the vector registers. -/
def noV (t : Slot) : Slot := { t with vr := [], vFull := 0, vPoison := 0, vErr := [] }
/-- Forgets the mask registers. -/
def noK (t : Slot) : Slot := { t with kr := [] }
/-- Forgets the affine registers. -/
def noA (t : Slot) : Slot := { t with afB := [], afS := [] }
/-- Forgets the divergence state. -/
def noD (t : Slot) : Slot := { t with act := 0, hlp := 0, dstk := [], depth := 0 }
/-- Forgets nothing. -/
def all (t : Slot) : Slot := t

/-- The instruction has completed, s[d] holds `v` (s0 discards it, R199), every other register is as before, and nothing else
has changed. -/
structure WroteS (s t : State) (d : BitVec 6) (v : W64) : Prop where
  went : Went s t s.me.next.pc noS
  value : ∀ n : BitVec 6, (t.thread s).scalar n = if n = d ∧ n ≠ 0 then v else s.me.scalar n
  full : ∀ n : BitVec 6, bitAt (t.thread s).sFull n.toNat = (decide (n = d ∧ n ≠ 0) || bitAt s.me.sFull n.toNat)
  poison : ∀ n : BitVec 6, bitAt (t.thread s).sPoison n.toNat = (!decide (n = d ∧ n ≠ 0) && bitAt s.me.sPoison n.toNat)
  err : ∀ n : BitVec 6, bitAt (t.thread s).sErr n.toNat = (!decide (n = d ∧ n ≠ 0) && bitAt s.me.sErr n.toNat)

/-- An instruction completes and writes `v` into s[d], changing nothing else. -/
def CompletesS (i : Instr) (s : State) (d : BitVec 6) (v : W64) : Prop := ∃ t, exec i s = .next t ∧ WroteS s t d v

/-- The state as the thread in slot `k` of core `c` sees it. -/
def State.by_ (s : State) (c k : Nat) : State := { s with cur := { core := c, slot := k } }

/-- The instruction has begun and its thread waits for an event that completes it; nothing outside the thread has changed. -/
structure Waits (s t : State) (code : Nat) (b : Busy) : Prop where
  outside : OnlyThread s t
  thread : t.thread s = { s.me with wait := .busy code b, word := s.cur.word }

/-- An instruction begins a wait that an event completes. -/
def Begins (i : Instr) (s : State) (code : Nat) (b : Busy) : Prop := ∃ t, exec i s = .next t ∧ Waits s t code b

/-- The instruction has completed, the affine register `d` holds base `b` and stride `st` (R205), the others are as before,
and nothing else has changed. -/
structure WroteA (s t : State) (d : BitVec 4) (b : W64) (st : W32) : Prop where
  went : Went s t s.me.next.pc noA
  value : ∀ n : BitVec 4, (t.thread s).aff n = if n = d then (b, st) else s.me.aff n

/-- An instruction completes and writes an affine register, changing nothing else. -/
def CompletesA (i : Instr) (s : State) (d : BitVec 4) (b : W64) (st : W32) : Prop := ∃ t, exec i s = .next t ∧ WroteA s t d b st

/-- An instruction completes, leaves scalar register n full exactly when `f n`, and changes nothing else. -/
def MarksS (i : Instr) (s : State) (f : Nat → Bool) : Prop :=
  ∃ t, exec i s = .next t ∧ Went s t s.me.next.pc (fun x => { x with sFull := 0 }) ∧ ∀ n, n < 64 → bitAt (t.thread s).sFull n = f n

/-- An instruction completes, leaves vector register n full exactly when `f n`, and changes nothing else. -/
def MarksV (i : Instr) (s : State) (f : Nat → Bool) : Prop :=
  ∃ t, exec i s = .next t ∧ Went s t s.me.next.pc (fun x => { x with vFull := 0 }) ∧ ∀ n, n < 32 → bitAt (t.thread s).vFull n = f n

/-- The bit of scalar register n in the vector of R202, for the running thread: s0 is full, an enabled input port is full when
an entry has arrived, an enabled output port when it has space, and any other register when it is full and awaits nothing. -/
def State.stateBit (s : State) (n : Nat) : Bool :=
  if n = 0 then true
  else if s.me.isPort n then
    (if portOut s.me.qcfg (n - 60) then s.portSpace s.cur.core (n - 60) else !(look {} s.myCore.ports (n - 60)).here.isEmpty)
  else bitAt s.me.sFull n && !bitAt s.me.sAwait n

/-- Outside the running thread nothing has changed but what `fm` forgets of the module and `fc` of the running thread's core;
bundles that a publisher sends apart (R338). -/
structure Beyond (fm : State → State) (fc : Core → Core) (s t : State) : Prop where
  module : fm { t with cores := [], cur := {} } = fm { s with cores := [], cur := {} }
  core : fc { t.core s.cur.core with slots := [] } = fc { s.core s.cur.core with slots := [] }
  cores : ∀ c, c ≠ s.cur.core → { t.core c with slots := [] } = { s.core c with slots := [] }
  threads : ∀ c k, (c, k) ≠ (s.cur.core, s.cur.slot) → { t.slot c k with chFly := [] } = { s.slot c k with chFly := [] }

/-- The running thread has completed its instruction and goes on at `pc`; of its own state only what `but` forgets has
changed. -/
structure Passed (s t : State) (pc : W64) (but : Slot → Slot) : Prop where
  pc : (t.thread s).pc = pc
  wait : (t.thread s).wait = .run
  still : but (t.thread s).still = but s.me.still

/-- Every scalar register but s[d] is as before; s[d] holds `v`, full and not poisoned, unless it is s0. -/
structure HoldsS (s t : State) (d : BitVec 6) (v : W64) : Prop where
  value : ∀ n : BitVec 6, (t.thread s).scalar n = if n = d ∧ n ≠ 0 then v else s.me.scalar n
  full : ∀ n : BitVec 6, bitAt (t.thread s).sFull n.toNat = (decide (n = d ∧ n ≠ 0) || bitAt s.me.sFull n.toNat)
  poison : ∀ n : BitVec 6, bitAt (t.thread s).sPoison n.toNat = (!decide (n = d ∧ n ≠ 0) && bitAt s.me.sPoison n.toNat)
  err : ∀ n : BitVec 6, bitAt (t.thread s).sErr n.toNat = (!decide (n = d ∧ n ≠ 0) && bitAt s.me.sErr n.toNat)

/-- Outside the running thread nothing has changed but what `fm` forgets of the module, and counters of events (R408); bundles that a
publisher sends apart (R338). -/
structure Counted (fm : State → State) (s t : State) : Prop where
  module : fm { t with cores := [], cur := {} } = fm { s with cores := [], cur := {} }
  cores : ∀ c, { t.core c with slots := [], pmc := [] } = { s.core c with slots := [], pmc := [] }
  threads : ∀ c k, (c, k) ≠ (s.cur.core, s.cur.slot) → { t.slot c k with chFly := [] } = { s.slot c k with chFly := [] }

/-- Forgets the shared registers of a core (R203). -/
def noG (x : Core) : Core := { x with gr := [], gFull := 0, gOld := [] }
/-- Forgets nothing of the module. -/
def whole (s : State) : State := s
/-- Forgets nothing of a core. -/
def entire (x : Core) : Core := x

/-- The branch trace of the running thread's core is off (R413). -/
def State.untraced (s : State) : Prop := bitAt s.myCore.dbg.btbase 0 = false

/-- An instruction completes and its thread goes on at `pc`; nothing else changes. -/
def GoesTo (i : Instr) (s : State) (pc : W64) : Prop := ∃ t, exec i s = .next t ∧ Went s t pc all

/-- Where a branch goes: an attached subscriber follows its stream (R343); any other thread goes to the target when the branch
is taken, and else to the next word. -/
def Slot.after (t : Slot) (taken : Bool) (target : W64) : W64 :=
  if t.inStream then t.next.pc else if taken then target else t.pc + 4

/-- An instruction completes and its thread goes on, with the divergence state that is given; nothing else changes. -/
structure Diverged (s t : State) (act hlp : W16) (stack : List DEnt) : Prop where
  went : Went s t s.me.next.pc noD
  act : (t.thread s).act = act
  hlp : (t.thread s).hlp = hlp
  dstk : (t.thread s).dstk = stack
  depth : (t.thread s).depth = stack.length

/-- An instruction completes and leaves the divergence state that is given. -/
def Diverges (i : Instr) (s : State) (act hlp : W16) (stack : List DEnt) : Prop :=
  ∃ t, exec i s = .next t ∧ Diverged s t act hlp stack

/-- Forgets what trap entry changes of a thread (R378). -/
def noTrap (t : Slot) : Slot :=
  { t.still with epc := 0, ecause := 0, eaddr := 0, estat := 0, esA := 0, esH := 0, act := 0, hlp := 0, privS := false, trapped := false, entering := false, cmp := [] }

/-- Forgets the threads that wait for a mailbox, whose instruction a trap abandons (R161). -/
def noWait (x : Core) : Core := { x with mailWait := [] }

/-- The running thread has taken a trap (R378): EPC is its PC, ECAUSE, EADDR and ESTAT name the trap, ESTAT.PPRIV keeps the
privilege, ESMASK the masks; all lanes are active, the privilege is S, and PC is EVEC.  Nothing else has changed. -/
structure Trapped (s t : State) (cause : Nat) (addr stat : W64) : Prop where
  outside : Beyond whole noWait s t
  epc : (t.thread s).epc = s.me.pc
  ecause : (t.thread s).ecause.toNat = cause
  eaddr : (t.thread s).eaddr = addr
  estat : (t.thread s).estat = stat ||| (if s.me.privS then 0x100000000 else 0)
  masks : (t.thread s).esA = s.me.act ∧ (t.thread s).esH = s.me.hlp ∧ (t.thread s).act = 0xFFFF ∧ (t.thread s).hlp = 0
  privS : (t.thread s).privS = true
  pc : (t.thread s).pc = s.me.evec
  wait : (t.thread s).wait = .run
  still : noTrap (t.thread s) = noTrap s.me

/-- An instruction takes a trap. -/
def Traps (i : Instr) (s : State) (cause : Nat) (addr stat : W64) : Prop := ∃ t, exec i s = .next t ∧ Trapped s t cause addr stat

/-! ### Memory -/

/-- An access of the running thread at `va` passes the checks of R151 and goes to `l`: it is aligned, its address resolves under
the windows, the translation buffer and the home map, and it does not write through the host window. -/
structure State.Reaches (s : State) (va : W64) (align : Nat) (a : Acc) (l : Loc) : Prop where
  aligned : va.toNat % align = 0
  resolves : s.resolve s.myCtx va a = .ok l
  host : ∀ o, regionOf l.pa = .host o → a = .load

/-- The running thread belongs to no pair, and no acquire of its own is still to be performed (R157). -/
def State.free_ (s : State) : Prop := s.me.role = .single ∧ ∀ f, f ∈ s.flights → f.tid = s.me.tid → f.acq = false

/-- The running thread belongs to no pair and has no access under way. -/
def State.idle (s : State) : Prop := s.me.role = .single ∧ ∀ f, f ∈ s.flights → f.tid ≠ s.me.tid

/-- No watchpoint of the core matches an access (R411). -/
def State.unwatched (s : State) (va : W64) (size : Nat) (op : FOp) : Prop := wpMatch s.myCore.dbg va size op.rw.1 op.rw.2 = false

/-- Bytes that hold neither poison nor a latent error (R399, R400). -/
def State.sound (s : State) (pa n : Nat) : Prop :=
  s.poisoned pa n = false ∧ ∀ g, g ∈ s.latent → ¬ (pa / 8 ≤ g.1 ∧ g.1 ≤ (pa + n - 1) / 8)

/-- A flit between core `src` and the home of `pa` has not lost two rails (R403). -/
def State.flitSound (s : State) (src pa : Nat) : Prop := (s.crossLink (s.linkOf src pa)).1 = false

/-- The running thread reads `n` bytes at `pa` at once, as part of its instruction (R337, R364): their line is present, their home is
memory and takes the thread's arrivals, they are sound, and so is the flit that brings them. -/
def State.readable (s : State) (pa n : Nat) : Prop :=
  s.present pa = true ∧ inMemory pa = true ∧ s.homeOpen s.cur.core pa = true ∧ s.sound pa n ∧ s.flitSound s.cur.core pa

/-- The access that the running thread sends (R151 to R153). -/
def State.access (s : State) (va : W64) (l : Loc) (size : Nat) (op : FOp) (acq : Bool) : Flight :=
  { id := s.nextId, core := s.cur.core, slot := s.cur.slot, tid := s.me.tid, task := s.me.task, va := va, pa := l.pa, size := size,
    op := op, topinf := s.myCore.topinf, privS := s.me.privS, seq := s.nextId, acq := acq, polder := l.polder, page := l.page }

/-- One access has been sent; outside the running thread nothing else has changed but the counters of remote accesses (R408). -/
structure Sent (s t : State) (f : Flight) : Prop where
  flights : t.flights = s.flights ++ [f]
  nextId : t.nextId = s.nextId + 1
  beyond : Beyond (fun x => { x with flights := [], nextId := 0 }) (fun x => { x with pmc := [] }) s t

/-- An instruction completes once its access is sent, and its destination s[d] awaits the value (R152). -/
def SendsAwaiting (i : Instr) (s : State) (f : Flight) (d : BitVec 6) : Prop :=
  ∃ t, exec i s = .next t ∧ Sent s t f ∧ Passed s t s.me.next.pc (fun x => { x with sFull := 0, sAwait := 0 }) ∧
    ∀ n, n < 64 →
      bitAt (t.thread s).sFull n = (!decide (n = d.toNat ∧ n ≠ 0) && bitAt s.me.sFull n) ∧
      bitAt (t.thread s).sAwait n = (decide (n = d.toNat ∧ n ≠ 0) || bitAt s.me.sAwait n)

/-- An instruction posts its access and completes (R153). -/
def Posts (i : Instr) (s : State) (f : Flight) : Prop :=
  ∃ t, exec i s = .next t ∧ Sent s t f ∧ Passed s t s.me.next.pc all

/-- An instruction sends its access and waits, until its home has performed it, with the run state `code` (R453). -/
def SendsParked (i : Instr) (s : State) (f : Flight) (code : Nat) : Prop :=
  ∃ t, exec i s = .next t ∧ Sent s t f ∧ t.thread s = { s.me with wait := .busy code (.access s.nextId), word := s.cur.word }

/-- The access with number `n` is under way and its turn has come, in memory whose bytes are sound, over a link whose flit is
sound (R403). -/
structure State.Turn (s : State) (n : Nat) (f : Flight) : Prop where
  found : s.flights.find? (fun g => g.id == n) = some f
  turn : s.mayPerform f = true
  memory : inMemory f.pa = true
  sound : s.sound f.pa f.size
  link : (s.crossLink (s.linkOf f.core f.pa)).1 = false

/-- Its turn has come, and no access waits on a word. -/
structure State.Due (s : State) (n : Nat) (f : Flight) : Prop extends s.Turn n f where
  alone : ∀ g, g ∈ s.flights → g.order = none

/-- The operations that wait at their home for a state: LDFE, LDFF, STFE, BARWAIT (R158, R168). -/
def FOp.waits (o : FOp) : Prop := (∃ t d, o = .ldSync t d) ∨ (∃ v, o = .stfe v) ∨ ∃ p, o = .barwait p

/-- `n` bytes at `pa` hold the number `v`, and every other byte of memory is as before. -/
def Stored (s t : State) (pa n v : Nat) : Prop :=
  ∀ a, readByte t.mem a = if pa ≤ a ∧ a < pa + n then BitVec.ofNat 8 (v / 2 ^ (8 * (a - pa))) else readByte s.mem a

/-- An access has been performed and `v` is on its way back with flags `fl`; the other accesses are as before. -/
def Answered (s t : State) (f : Flight) (v : W64) (fl : Flags) : Prop :=
  t.flights = s.flights.map fun g => if g.id = f.id then { f with stage := .returning v fl false } else g

/-- The value of an atomic's read-modify-write (R162): what memory holds next, none where no write occurs. -/
def atomic {w : Nat} (code : Nat) (m b c : BitVec w) : Option (BitVec w) :=
  if code = 0 then some (m + b)
  else if code = 1 then some (m &&& b)
  else if code = 2 then some (m ||| b)
  else if code = 3 then some (m ^^^ b)
  else if code = 4 then some (if m.toInt ≤ b.toInt then m else b)
  else if code = 5 then some (if m.toInt ≤ b.toInt then b else m)
  else if code = 6 then some (if m.toNat ≤ b.toNat then m else b)
  else if code = 7 then some (if m.toNat ≤ b.toNat then b else m)
  else if code = 8 then some b
  else if m = c then some b else none

/-! ### Arithmetic of the manual -/

/-- div of R226. -/
def quotient {w : Nat} (x y : BitVec w) (signed : Bool) : BitVec w :=
  if y = 0 then BitVec.allOnes w
  else if signed then (if x = BitVec.intMin w ∧ y = BitVec.allOnes w then x else BitVec.ofInt w (x.toInt.tdiv y.toInt))
  else x / y

/-- rem of R226. -/
def remainder {w : Nat} (x y : BitVec w) (signed : Bool) : BitVec w :=
  if y = 0 then x
  else if signed then
    (if x = BitVec.intMin w ∧ y = BitVec.allOnes w then 0 else BitVec.ofInt w (x.toInt - y.toInt * x.toInt.tdiv y.toInt))
  else BitVec.ofNat w (x.toNat - y.toNat * (x.toNat / y.toNat))

/-! ### Vector registers -/

/-- Vector registers after a write of the lanes of v[d] that `mask` selects: those hold `f`, every other lane keeps its bits, and v[d] is
full (R241). -/
structure HoldsV (s t : State) (d : BitVec 5) (mask : W16) (f : Nat → W32) : Prop where
  value : ∀ (n : BitVec 5) (i : Nat), i < 16 →
    (t.thread s).lane n.toNat i = if n = d ∧ bitAt mask i = true then f i else s.me.lane n.toNat i
  full : ∀ n : BitVec 5, bitAt (t.thread s).vFull n.toNat = (decide (n = d) || bitAt s.me.vFull n.toNat)
  poison : ∀ n : BitVec 5, bitAt (t.thread s).vPoison n.toNat = (!decide (n = d ∧ mask = 0xFFFF) && bitAt s.me.vPoison n.toNat)
  err : ∀ g, g ∈ (t.thread s).vErr ↔ g ∈ s.me.vErr ∧ ¬ (g / 8 = d.toNat ∧ mask = 0xFFFF)

/-- An instruction completes and writes lanes of v[d], changing nothing else. -/
def CompletesV (i : Instr) (s : State) (d : BitVec 5) (mask : W16) (f : Nat → W32) : Prop :=
  ∃ t, exec i s = .next t ∧ Went s t s.me.next.pc noV ∧ HoldsV s t d mask f

/-- An instruction completes, writes lanes of v[d] and raises flags in FSTAT; beyond its thread only counters of raised flags move
(R408). -/
def CompletesF (i : Instr) (s : State) (d : BitVec 5) (mask : W16) (f : Nat → W32) (fl : Flags) : Prop :=
  ∃ t, exec i s = .next t ∧ Beyond whole (fun x => { x with pmc := [] }) s t ∧
    Passed s t s.me.next.pc (fun x => { noV x with fstat := 0 }) ∧ HoldsV s t d mask f ∧
    (t.thread s).fstat = s.me.fstat ||| w64 fl.toNat

/-- Mask registers after a write of k[d] with the bits `f`; k0 names the active mask and is not written (R206). -/
def HoldsK (s t : State) (d : BitVec 3) (f : Nat → Bool) : Prop :=
  ∀ (n : BitVec 3) (i : Nat), i < 16 → bitAt ((t.thread s).mask n) i = if n = d ∧ n ≠ 0 then f i else bitAt (s.me.mask n) i

/-- An instruction completes and writes a mask register, changing nothing else. -/
def CompletesK (i : Instr) (s : State) (d : BitVec 3) (f : Nat → Bool) : Prop :=
  ∃ t, exec i s = .next t ∧ Went s t s.me.next.pc noK ∧ HoldsK s t d f

/-- An instruction completes, writes a mask register and raises flags. -/
def CompletesKF (i : Instr) (s : State) (d : BitVec 3) (f : Nat → Bool) (fl : Flags) : Prop :=
  ∃ t, exec i s = .next t ∧ Beyond whole (fun x => { x with pmc := [] }) s t ∧
    Passed s t s.me.next.pc (fun x => { noK x with fstat := 0 }) ∧ HoldsK s t d f ∧ (t.thread s).fstat = s.me.fstat ||| w64 fl.toNat

/-- An access of the running thread fails R151's checks: it is misaligned, its translation names a trap, or it would write through the host
window. -/
def State.Fails (s : State) (va : W64) (align : Nat) (a : Acc) : Prop :=
  va.toNat % align ≠ 0 ∨ (∃ c st, s.resolve s.myCtx va a = .error (.trap c st)) ∨
    (a ≠ .load ∧ ∃ l o, s.resolve s.myCtx va a = .ok l ∧ regionOf l.pa = .host o)

/-- Accesses have been sent, in the order of the list. -/
structure SentAll (s t : State) (fs : List Flight) : Prop where
  flights : t.flights = s.flights ++ fs
  nextId : t.nextId = s.nextId + fs.length
  beyond : Beyond (fun x => { x with flights := [], nextId := 0 }) (fun x => { x with pmc := [] }) s t

/-- The lanes of E whose address passes the checks are `sent`, and every other lane of E is a helper that fails them (R250). -/
def State.Checked (s : State) (e : W16) (addr : Nat → W64) (a : Acc) (locs : Nat → Loc) (sent : List Nat) : Prop :=
  sent.Sublist (lanesOf e) ∧ ∀ i, i ∈ lanesOf e →
    (i ∈ sent ∧ s.Reaches (addr i) 4 a (locs i)) ∨ (i ∉ sent ∧ bitAt s.me.hlp i = true ∧ s.Fails (addr i) 4 a)

/-- The FP32 bits of a NaN, and of a signalling NaN (R83). -/
def isNan (x : W32) : Bool := decide (0x7F800000 < x.toNat % 2 ^ 31)
/-- A signalling NaN: the top fraction bit is clear. -/
def isSignalling (x : W32) : Bool := isNan x && !x.getLsbD 22

/-- A finite FP32 value (R82). -/
def isFinite (x : W32) : Prop := x.toNat / 2 ^ 23 % 256 ≠ 255
/-- A finite FP32 value as a whole number of units of 2^-149 (R82). -/
def units (x : W32) : Int :=
  let e := x.toNat / 2 ^ 23 % 256
  let m : Int := if e = 0 then x.toNat % 2 ^ 23 else (x.toNat % 2 ^ 23 + 2 ^ 23) * 2 ^ (e - 1)
  if x.getLsbD 31 then -m else m

/-- `r` is the value of `num / den` units, rounded once under a mode: to the nearest value, of two that are equally near to the one whose
last bit is 0, or to the next value on the mode's side (R103). -/
structure Rounds (rm : Rm) (num : Int) (den : Nat) (r : W32) : Prop where
  finite : isFinite r
  nearest : rm = .rne → ∀ y, isFinite y → (units r * den - num).natAbs ≤ (units y * den - num).natAbs ∧
    ((units r * den - num).natAbs = (units y * den - num).natAbs → units y ≠ units r → r.getLsbD 0 = false)
  zero : rm = .rtz → (units r).natAbs * den ≤ num.natAbs ∧ 0 ≤ units r * num ∧
    ∀ y, isFinite y → (units y).natAbs * den ≤ num.natAbs → (units y).natAbs ≤ (units r).natAbs
  down : rm = .rdn → units r * den ≤ num ∧ ∀ y, isFinite y → units y * den ≤ num → units y ≤ units r
  up : rm = .rup → num ≤ units r * den ∧ ∀ y, isFinite y → num ≤ units y * den → units r ≤ units y

/-- A result with its flags is `num / den` units rounded once, and NX tells whether that changed the value, wherever the exact value does
not exceed the largest finite one (R103). -/
def RoundsTo (rm : Rm) (num : Int) (den : Nat) (q : Nat × Flags) : Prop :=
  num.natAbs ≤ (2 ^ 24 - 1) * 2 ^ 253 * den →
    q.1 < 2 ^ 32 ∧ Rounds rm num den (BitVec.ofNat 32 q.1) ∧ (q.2.getLsbD 0 = true ↔ units (BitVec.ofNat 32 q.1) * den ≠ num)

/-! ### The engines of a core -/

/-- A matrix command has been issued and its thread goes on (R256): the command stands last in the engine's queue with what `P` says it
latched, the shadow shape that its kind commits is live and no other shape has changed (R258), and accesses may have been sent. -/
structure Issued (s t : State) (k : MxKind) (but : Slot → Slot) (P : MxCmd → Prop) : Prop where
  beyond : Beyond (fun x => { x with flights := [], nextId := 0 })
    (fun x => { x with pmc := [], mx := [], tshape := [], ashape := [] }) s t
  passed : Passed s t s.me.next.pc but
  command : ∃ q, (t.core s.cur.core).mx = s.myCore.mx ++ [q] ∧ q.id = s.nextId ∧ q.kind = k ∧ q.slot = s.cur.slot ∧
    q.tid = s.me.tid ∧ q.task = s.me.task ∧ q.poison = false ∧ P q ∧
    (∀ p, look 0 (t.core s.cur.core).tshape p = if (k = .tld ∨ k = .tzero) ∧ p = q.ta then q.shA else look 0 s.myCore.tshape p) ∧
    ∀ p, look 0 (t.core s.cur.core).ashape p =
      if (k = .acczero ∨ ((k = .mma ∨ k = .mxrun ∨ k = .spmma ∨ k = .spmmat) ∧ cfgZacc q.cfg = true)) ∧ p = q.acc then q.shC
      else look 0 s.myCore.ashape p

/-- A matrix instruction completes with its command issued. -/
def Issues (i : Instr) (s : State) (k : MxKind) (but : Slot → Slot) (P : MxCmd → Prop) : Prop :=
  ∃ t, exec i s = .next t ∧ Issued s t k but P

/-- The running thread may issue a matrix command: every lane is active, it belongs to no pair, no acquire of its own is still to be
performed, and fewer than four of its commands are under way (R255, R256). -/
def State.mayCommand (s : State) : Prop :=
  s.me.act = 0xFFFF ∧ s.free_ ∧ (s.myCore.mx.filter fun q => q.slot == s.cur.slot).length < 4

/-- A pattern instruction has joined the generator's queue, its destinations are empty and its thread waits with reason register (R201,
R290). -/
def QueuesPattern (i : Instr) (s : State) (q : PgCmd) : Prop :=
  ∃ t, exec i s = .next t ∧
    Beyond (fun x => { x with nextId := 0 }) (fun x => { x with pg := [] }) s t ∧ t.nextId = s.nextId + 1 ∧
    (t.core s.cur.core).pg = s.myCore.pg ++ [q] ∧
    t.thread s = { q.marks s.me with wait := .busy 3 (.pattern s.nextId), word := s.cur.word }

/-- The generator of core `c` has carried out its command `q`, whose thread goes on; beyond the slots of the pattern store nothing but
counters and the queue has changed (R290). -/
structure Generated (s t : State) (c : Nat) (q : PgCmd) (r : List PgCmd) (but : Slot → Slot) : Prop where
  module : { t with cores := [], cur := {} } = { s with cores := [], cur := {} }
  core : { t.core c with slots := [], pmc := [], pg := [], pslots := [] } = { s.core c with slots := [], pmc := [], pg := [], pslots := [] }
  cores : ∀ d, d ≠ c → { t.core d with slots := [], pmc := [] } = { s.core d with slots := [], pmc := [] }
  threads : ∀ d k, (d, k) ≠ (c, q.slot) → { t.slot d k with chFly := [] } = { s.slot d k with chFly := [] }
  passed : Passed (s.by_ c q.slot) t (s.slot c q.slot).next.pc but
  queue : (t.core c).pg = r

/-- The numbered registers of a thread and the special registers that are its own, but for those that a trap or a queue handler
writes. -/
def Slot.registers (t : Slot) : Slot :=
  { sr := t.sr, sFull := t.sFull, sAwait := t.sAwait, sPoison := t.sPoison, sErr := t.sErr, vErr := t.vErr, vr := t.vr, vFull := t.vFull, vAwait := t.vAwait,
    vPoison := t.vPoison, afB := t.afB, afS := t.afS, kr := t.kr, evec := t.evec, dspill := t.dspill, fstat := t.fstat,
    chcfg := t.chcfg, qcfg := t.qcfg, qhdl := t.qhdl, tsh := t.tsh, ash := t.ash, mxcfg := t.mxcfg, mxrprog := t.mxrprog,
    mxrinit := t.mxrinit, ptroot := t.ptroot, aspace := t.aspace, sptagsel := t.sptagsel, accidx := t.accidx, accput := t.accput,
    pmrsel := t.pmrsel }

/-- The registers that trap entry saves into (R377, R378). -/
def Slot.saved (t : Slot) : W64 × W64 × W64 × W64 × W16 × W16 := (t.epc, t.ecause, t.eaddr, t.estat, t.esA, t.esH)

/-- A thread lives, and its slot is not kept for a dump of a thread that has ended (R414). -/
def Slot.goesOn (t : Slot) : Prop := t.live = true ∧ t.wait ≠ .dumping

/-- What an instruction leaves alone that may change scalar registers of `but` and bytes of `wrote`: every other register of its thread
(while the thread goes on), the trap registers unless it traps, the registers of every other thread (but for scalar ones where the
instruction `fills` them, or ends its thread), the tiles, accumulators with their shapes and scales, commands, pattern slots and
shared registers of every core, and every other byte of memory. -/
structure Leaves (s t : State) (fills : Prop) (but : BitVec 6 → Prop) (wrote : Nat → Prop) : Prop where
  rest : (t.thread s).goesOn → noS { (t.thread s).registers with sAwait := 0 } = noS { s.me.registers with sAwait := 0 }
  scalars : (t.thread s).goesOn → ∀ n : BitVec 6, ¬ but n → (t.thread s).scalar n = s.me.scalar n ∧
    bitAt (t.thread s).sFull n.toNat = bitAt s.me.sFull n.toNat ∧ bitAt (t.thread s).sAwait n.toNat = bitAt s.me.sAwait n.toNat ∧
    bitAt (t.thread s).sPoison n.toNat = bitAt s.me.sPoison n.toNat
  saved : (t.thread s).goesOn → (t.thread s).saved = s.me.saved ∨ ((t.thread s).pc = s.me.evec ∧ (t.thread s).epc = s.me.pc)
  others : ∀ c k, (c, k) ≠ (s.cur.core, s.cur.slot) → (s.slot c k).live = true → (t.slot c k).goesOn →
    noS { (t.slot c k).registers with sAwait := 0 } = noS { (s.slot c k).registers with sAwait := 0 } ∧
      (t.slot c k).saved = (s.slot c k).saved
  filled : ¬ fills → (t.thread s).goesOn → ∀ c k, (c, k) ≠ (s.cur.core, s.cur.slot) → (s.slot c k).live = true → (t.slot c k).goesOn →
    (t.slot c k).registers = (s.slot c k).registers
  cores : ∀ c, (t.core c).tile = (s.core c).tile ∧ (t.core c).tscale = (s.core c).tscale ∧ (t.core c).accv = (s.core c).accv ∧
    (t.core c).tshape = (s.core c).tshape ∧ (t.core c).ashape = (s.core c).ashape ∧ (t.core c).mx = (s.core c).mx ∧
    (t.core c).pslots = (s.core c).pslots ∧ (t.core c).gr = (s.core c).gr ∧ (t.core c).gFull = (s.core c).gFull
  memory : ∀ a, ¬ wrote a → readByte t.mem a = readByte s.mem a

/-- Coordinates that a program keeps, row by row (R276, R284). -/
def Prog.kept (g : Prog) : List (Nat × Nat) :=
  ((List.range g.r).flatMap fun r => (List.range g.c).map fun c => (r, c)).filter fun x => g.keep x.1 x.2

/-- Coordinates that a program keeps, column by column (R276, R292). -/
def Prog.keptDown (g : Prog) : List (Nat × Nat) :=
  ((List.range g.c).flatMap fun c => (List.range g.r).map fun r => (r, c)).filter fun x => g.keep x.1 x.2

/-- The full-domain rank of a kept coordinate: how many kept ones stand before it row by row (R285), counted from the program where that is
invertible, and else from the words of a table that a command has read (R286). -/
def PgCmd.rankIn (q : PgCmd) (g : Prog) (inv : Bool) (z : Nat × Nat) : Nat :=
  if inv then (g.kept.filter fun y => decide (y.1 < z.1 ∨ (y.1 = z.1 ∧ y.2 < z.2))).length
  else (look 0 q.words z.1 + 2 ^ 32 - look 0 q.words 0 % 2 ^ 32 + (g.kept.filter fun y => decide (y.1 = z.1 ∧ y.2 < z.2)).length) % 2 ^ 32

end Sys2Proof.Machine
end

