-- ==== Sys2Proof/Certificates/Slice0/Obligations.lean ====
section
/-! DEFINITION. Statements about the machine, for proof: what each instruction and event does where it completes, what it leaves
alone, what taking an exception saves, which forms trap, the encoding, and the invariants of a step. -/

open Sys2Proof Sys2Proof.Machine

/-! ### Integer instructions -/

/-- R222: every instruction of major 0x01 writes its result to sd, where both sources hold values and sd is open, and changes
nothing else. -/
def Sys2Proof.Says.IntegerResults : Prop :=
  ∀ (s : State) (d a b : BitVec 6), s.begun → s.me.readyS a → s.me.readyS b → s.me.openS d →
    let x := s.me.scalar a
    let y := s.me.scalar b
    let sh := y.toNat % 64
    CompletesS (.add d a b) s d (BitVec.ofNat 64 (x.toNat + y.toNat)) ∧
    CompletesS (.sub d a b) s d (BitVec.ofInt 64 (x.toNat - y.toNat)) ∧
    CompletesS (.and d a b) s d (x &&& y) ∧
    CompletesS (.or d a b) s d (x ||| y) ∧
    CompletesS (.xor d a b) s d (x ^^^ y) ∧
    CompletesS (.andn d a b) s d (x &&& ~~~ y) ∧
    CompletesS (.sll d a b) s d (BitVec.ofNat 64 (x.toNat * 2 ^ sh)) ∧
    CompletesS (.srl d a b) s d (BitVec.ofNat 64 (x.toNat / 2 ^ sh)) ∧
    CompletesS (.sra d a b) s d (BitVec.ofInt 64 (x.toInt / 2 ^ sh)) ∧
    CompletesS (.rol d a b) s d (x.rotateLeft sh) ∧
    CompletesS (.ror d a b) s d (x.rotateRight sh) ∧
    CompletesS (.slt d a b) s d (if x.toInt < y.toInt then 1 else 0) ∧
    CompletesS (.sltu d a b) s d (if x.toNat < y.toNat then 1 else 0) ∧
    CompletesS (.min d a b) s d (BitVec.ofInt 64 (Min.min x.toInt y.toInt)) ∧
    CompletesS (.max d a b) s d (BitVec.ofInt 64 (Max.max x.toInt y.toInt)) ∧
    CompletesS (.minu d a b) s d (BitVec.ofNat 64 (Min.min x.toNat y.toNat)) ∧
    CompletesS (.maxu d a b) s d (BitVec.ofNat 64 (Max.max x.toNat y.toNat)) ∧
    CompletesS (.addw d a b) s d (((x + y).extractLsb' 0 32).signExtend 64) ∧
    CompletesS (.subw d a b) s d (((x - y).extractLsb' 0 32).signExtend 64) ∧
    CompletesS (.clz d a) s d (x.clz) ∧
    CompletesS (.ctz d a) s d (x.ctz) ∧
    CompletesS (.popc d a) s d (BitVec.ofNat 64 ((List.range 64).countP fun i => x.getLsbD i)) ∧
    CompletesS (.sextb d a) s d ((x.extractLsb' 0 8).signExtend 64) ∧
    CompletesS (.sexth d a) s d ((x.extractLsb' 0 16).signExtend 64) ∧
    CompletesS (.sextw d a) s d ((x.extractLsb' 0 32).signExtend 64)

/-- R223, R224, R228 and R229: the immediate forms, with every immediate sign-extended, and PCREL from the word's own
address. -/
def Sys2Proof.Says.ImmediateResults : Prop :=
  ∀ (s : State) (d a n : BitVec 6) (i : BitVec 14) (u : BitVec 20), s.begun → s.me.readyS a → s.me.openS d →
    let x := s.me.scalar a
    let e := BitVec.ofInt 64 i.toInt
    CompletesS (.addi d a i) s d (BitVec.ofInt 64 (x.toInt + i.toInt)) ∧
    CompletesS (.slti d a i) s d (if x.toInt < i.toInt then 1 else 0) ∧
    CompletesS (.sltiu d a i) s d (if x.toNat < e.toNat then 1 else 0) ∧
    CompletesS (.andi d a i) s d (x &&& e) ∧
    CompletesS (.ori d a i) s d (x ||| e) ∧
    CompletesS (.xori d a i) s d (x ^^^ e) ∧
    CompletesS (.slli d a n) s d (BitVec.ofNat 64 (x.toNat * 2 ^ n.toNat)) ∧
    CompletesS (.srli d a n) s d (BitVec.ofNat 64 (x.toNat / 2 ^ n.toNat)) ∧
    CompletesS (.srai d a n) s d (BitVec.ofInt 64 (x.toInt / 2 ^ n.toNat)) ∧
    CompletesS (.rori d a n) s d (x.rotateRight n.toNat) ∧
    CompletesS (.ldhi d u) s d (BitVec.ofInt 64 (u.toInt * 2 ^ 14)) ∧
    CompletesS (.pcrel d u) s d (BitVec.ofInt 64 (s.me.pc.toNat + u.toInt))

/-- R225: the multiplies, with the high halves of exact products. -/
def Sys2Proof.Says.MultiplyResults : Prop :=
  ∀ (s : State) (d a b : BitVec 6), s.begun → s.me.readyS a → s.me.readyS b → s.me.openS d →
    let x := s.me.scalar a
    let y := s.me.scalar b
    CompletesS (.mul d a b) s d (BitVec.ofNat 64 (x.toNat * y.toNat)) ∧
    CompletesS (.mulh d a b) s d (BitVec.ofInt 64 (x.toInt * y.toInt / 2 ^ 64)) ∧
    CompletesS (.mulhu d a b) s d (BitVec.ofNat 64 (x.toNat * y.toNat / 2 ^ 64)) ∧
    CompletesS (.mulhsu d a b) s d (BitVec.ofInt 64 (x.toInt * y.toNat / 2 ^ 64)) ∧
    CompletesS (.mulw d a b) s d ((x.extractLsb' 0 32 * y.extractLsb' 0 32).signExtend 64)

/-- R225 to R227: a divide or remainder parks its thread with reason register and changes nothing yet; its completion writes
the quotient or remainder of R226 and lets the thread go on. -/
def Sys2Proof.Says.DivideResults : Prop :=
  (∀ (s : State) (d a b : BitVec 6), s.begun → s.me.readyS a → s.me.readyS b → s.me.openS d →
    let x := s.me.scalar a
    let y := s.me.scalar b
    let xw := x.extractLsb' 0 32
    let yw := y.extractLsb' 0 32
    Begins (.div d a b) s 3 (.divide d.toNat (quotient x y true)) ∧
    Begins (.divu d a b) s 3 (.divide d.toNat (quotient x y false)) ∧
    Begins (.rem d a b) s 3 (.divide d.toNat (remainder x y true)) ∧
    Begins (.remu d a b) s 3 (.divide d.toNat (remainder x y false)) ∧
    Begins (.divw d a b) s 3 (.divide d.toNat ((quotient xw yw true).signExtend 64)) ∧
    Begins (.divwu d a b) s 3 (.divide d.toNat ((quotient xw yw false).signExtend 64)) ∧
    Begins (.remw d a b) s 3 (.divide d.toNat ((remainder xw yw true).signExtend 64)) ∧
    Begins (.remwu d a b) s 3 (.divide d.toNat ((remainder xw yw false).signExtend 64))) ∧
  (∀ (s : State) (c k code : Nat) (d : BitVec 6) (v : W64), (s.slot c k).wait = .busy code (.divide d.toNat v) →
    (s.slot c k).pops = [] → s.noLanding c k → (s.slot c k).isPort d.toNat = false →
    ∃ t, exec (.divideComplete c k) s = .next t ∧ WroteS (s.by_ c k) t d v)

/-! ### Affine registers, full/empty state, shared registers -/

/-- R230: the affine instructions write base and stride as the manual's table says, and change nothing else. -/
def Sys2Proof.Says.AffineResults : Prop :=
  (∀ (s : State) (d e : BitVec 4) (a b : BitVec 6), s.begun → s.me.readyS a → s.me.readyS b →
    let x := s.me.scalar a
    let y := s.me.scalar b
    CompletesA (.afset d a b) s d x (y.extractLsb' 0 32) ∧
    CompletesA (.afbase d a) s d x (s.me.aff d).2 ∧
    CompletesA (.afstr d a) s d (s.me.aff d).1 (x.extractLsb' 0 32) ∧
    CompletesA (.afadd d e b) s d (BitVec.ofNat 64 ((s.me.aff e).1.toNat + y.toNat)) (s.me.aff e).2) ∧
  (∀ (s : State) (d e : BitVec 4), s.begun →
    CompletesA (.afstep d e) s d (BitVec.ofInt 64 ((s.me.aff e).1.toNat + 16 * (s.me.aff e).2.toInt)) (s.me.aff e).2 ∧
    CompletesA (.afmov d e) s d (s.me.aff e).1 (s.me.aff e).2) ∧
  (∀ (s : State) (d : BitVec 6) (e : BitVec 4), s.begun → s.me.openS d →
    CompletesS (.afrdb d e) s d (s.me.aff e).1 ∧
    CompletesS (.afrds d e) s d (BitVec.ofInt 64 (s.me.aff e).2.toInt))

/-- R231: SETE, SETF and VSETE change one full/empty bit, of a register that awaits nothing, and nothing else; s0 and an enabled
queue port keep theirs. -/
def Sys2Proof.Says.FullnessMarks : Prop :=
  (∀ (s : State) (d : BitVec 6), s.begun → bitAt s.me.sAwait d.toNat = false →
    let kept := d = 0 ∨ s.me.isPort d.toNat = true
    MarksS (.sete d) s (fun n => if n = d.toNat ∧ ¬ kept then false else bitAt s.me.sFull n) ∧
    MarksS (.setf d) s (fun n => if n = d.toNat ∧ ¬ kept then true else bitAt s.me.sFull n)) ∧
  (∀ (s : State) (d : BitVec 5), s.begun → s.me.openV d →
    MarksV (.vsete d) s (fun n => if n = d.toNat then false else bitAt s.me.vFull n))

/-- R202, R232, R233: TSTF, VTSTF and RDFE report full/empty bits, of whatever register, and change none; class 2 is open at S
and to the task that GOWN names. -/
def Sys2Proof.Says.FullnessReports : Prop :=
  ∀ (s : State) (d : BitVec 6), s.begun → s.me.openS d → s.me.role = .single →
    (∀ a : BitVec 6, CompletesS (.tstf d a) s d (if s.stateBit a.toNat then 1 else 0)) ∧
    (∀ a : BitVec 5, CompletesS (.vtstf d a) s d (if bitAt s.me.vFull a.toNat && !bitAt s.me.vAwait a.toNat then 1 else 0)) ∧
    (∃ v, CompletesS (.rdfe d 0) s d v ∧ ∀ n, n < 64 → v.getLsbD n = s.stateBit n) ∧
    (∃ v, CompletesS (.rdfe d 1) s d v ∧
      ∀ n, v.getLsbD n = (decide (n < 32) && bitAt s.me.vFull n && !bitAt s.me.vAwait n)) ∧
    (s.me.privS = true ∨ s.myCore.gAllows s.me.task = true → CompletesS (.rdfe d 2) s d (s.myCore.gFull.setWidth 64))

/-- R234: WRFE sets every bit of its class from s[a], once no access of the thread is outstanding into a register of the class;
bit 0 and the bits of enabled ports stay. -/
def Sys2Proof.Says.FullnessWrites : Prop :=
  ∀ (s : State) (a : BitVec 6), s.begun → s.me.readyS a →
    let v := s.me.scalar a
    (s.me.sAwait = 0 →
      MarksS (.wrfe 0 a) s (fun n => if n = 0 ∨ s.me.isPort n = true then bitAt s.me.sFull n else bitAt v n)) ∧
    (s.me.vAwait = 0 → MarksV (.wrfe 1 a) s (fun n => bitAt v n)) ∧
    (s.me.role = .single → s.myCore.gWait = [] → (s.me.privS = true ∨ s.myCore.gAllows s.me.task = true) →
      ∃ t, exec (.wrfe 2 a) s = .next t ∧ Passed s t s.me.next.pc all ∧ Beyond whole (fun x => { x with gFull := 0 }) s t ∧
        (t.core s.cur.core).gFull = v.extractLsb' 0 8)

/-- R235, R236: on a full g register GLD reads it and GLDFE reads and empties it; GST writes any g register and GSTFE an empty
one, which leave it full; nothing else changes.  (No one waits on it, and no plain GST lies within its window.) -/
def Sys2Proof.Says.SharedResults : Prop :=
  ∀ (s : State) (d a : BitVec 6) (n : BitVec 3), s.begun → s.me.role = .single → s.myCore.gWait = [] →
    (s.me.privS = true ∨ s.myCore.gAllows s.me.task = true) →
    (bitAt s.myCore.gFull n.toNat = true → s.me.openS d →
      (look [] s.myCore.gOld n.toNat = [] → CompletesS (.gld d n) s d (look 0 s.myCore.gr n.toNat)) ∧
      (∃ t, exec (.gldfe d n) s = .next t ∧ Passed s t s.me.next.pc noS ∧ HoldsS s t d (look 0 s.myCore.gr n.toNat) ∧
        Beyond whole noG s t ∧ (∀ m, look 0 (t.core s.cur.core).gr m = look 0 s.myCore.gr m) ∧
        ∀ m, m < 8 → bitAt (t.core s.cur.core).gFull m = (!decide (m = n.toNat) && bitAt s.myCore.gFull m))) ∧
    (s.me.readyS a → ∀ i, (i = .gst n a ∨ (i = .gstfe n a ∧ bitAt s.myCore.gFull n.toNat = false ∧ s.unperformed s.me.tid 1 = false)) →
      ∃ t, exec i s = .next t ∧ Passed s t s.me.next.pc all ∧ Beyond whole noG s t ∧
        (∀ m, look 0 (t.core s.cur.core).gr m = if m = n.toNat then s.me.scalar a else look 0 s.myCore.gr m) ∧
        ∀ m, m < 8 → bitAt (t.core s.cur.core).gFull m = (decide (m = n.toNat) || bitAt s.myCore.gFull m))

/-- R204: within the window of a plain GST, a GLD reads the register's value or one that such a GST has replaced. -/
def Sys2Proof.Says.SharedWindow : Prop :=
  ∀ (s : State) (d : BitVec 6) (n : BitVec 3), s.begun → s.me.role = .single → s.me.openS d → d ≠ 0 →
    bitAt s.myCore.gFull n.toNat = true → (s.me.privS = true ∨ s.myCore.gAllows s.me.task = true) →
    ∃ t v, exec (.gld d n) s = .next t ∧ HoldsS s t d v ∧
      (v = look 0 s.myCore.gr n.toNat ∨
        ∃ o, (v, o) ∈ look [] s.myCore.gOld n.toNat ∧ s.cyc (dieOf s.cur.core) < o + 4)

/-- R212, R237: RFILL to a register of another core sends a fill with the sender's TOPINF, after the thread's earlier accesses
have performed; the FILL that follows writes the target's register and sets it full, where the target thread lives under that
TOPINF, and otherwise is dropped and counted; it comes poisoned when its flit lost two rails (R400, R403).  (A pair's fills are
R397's.) -/
def Sys2Proof.Says.FillResults : Prop :=
  (∀ (s : State) (a b : BitVec 6), s.begun → s.me.readyS a → s.me.readyS b → s.me.role = .single →
    let d := s.me.scalar a
    targetOk d = true → bitAt d 63 = false → fieldN d 0 12 ≠ s.cur.core → s.unperformed s.me.tid 4 = false →
    ∃ t, exec (.rfill a b) s = .next t ∧ Passed s t s.me.next.pc all ∧
      Beyond (fun x => { x with msgs := [], nextId := 0 }) entire s t ∧
      find t.msgs s.nextId = some (.fill d (s.me.scalar b) s.myCore.topinf s.cur.core)) ∧
  (∀ (s : State) (n : Nat) (d v : W64) (ti : Bool) (src : Nat), find s.msgs n = some (.fill d v ti src) →
    s.fillFirst n d src = true → s.takesArrival src (fieldN d 0 12) (some n) = true → fieldN d 20 2 = 0 →
    let c := fieldN d 0 12
    let k := fieldN d 12 4
    let r := s.by_ c k
    let bad := dieOf src ≠ dieOf c ∧ dieLink (dieOf src) (dieOf c) ∈ s.badFlits
    (s.slot c k).role = .single →
    ∃ t, exec (.fill n) s = .next t ∧ find t.msgs n = none ∧
      (if (s.slot c k).live = true ∧ (s.slot c k).task = fieldN d 16 4 then
        (ti = (s.core c).topinf → ∀ e : BitVec 6, e.toNat = fieldN d 22 6 →
          (¬ bad → HoldsS r t e v) ∧ (bad → e ≠ 0 → bitAt (t.slot c k).sPoison e.toNat = true) ∧
          Beyond (fun x => { x with msgs := [], badFlits := [] }) (fun x => { x with pmc := [], arrivals := [] }) r t)
       else (t.core c).filldrop = (s.core c).filldrop + 1))

/-! ### Branches and divergence -/

/-- R330, R333, R343: compare-branches and mask branches go to PC + 4 × offset when their condition holds, and on otherwise;
an attached subscriber follows its stream.  Nothing else changes. -/
def Sys2Proof.Says.BranchResults : Prop :=
  ∀ (s : State) (a b : BitVec 6) (k : BitVec 3) (o : BitVec 11), s.begun → s.untraced →
    let target := BitVec.ofInt 64 (s.me.pc.toNat + 4 * o.toInt)
    let m := s.me.mask k &&& s.me.act
    (s.me.readyS a → s.me.readyS b →
      let x := s.me.scalar a
      let y := s.me.scalar b
      GoesTo (.beq a b o) s (s.me.after (decide (x = y)) target) ∧
      GoesTo (.bne a b o) s (s.me.after (decide (x ≠ y)) target) ∧
      GoesTo (.blt a b o) s (s.me.after (decide (x.toInt < y.toInt)) target) ∧
      GoesTo (.bge a b o) s (s.me.after (decide (y.toInt ≤ x.toInt)) target) ∧
      GoesTo (.bltu a b o) s (s.me.after (decide (x.toNat < y.toNat)) target) ∧
      GoesTo (.bgeu a b o) s (s.me.after (decide (y.toNat ≤ x.toNat)) target)) ∧
    GoesTo (.bany k o) s (s.me.after (decide (m ≠ 0)) target) ∧
    GoesTo (.ball k o) s (s.me.after (decide (m = s.me.act)) target) ∧
    GoesTo (.bnone k o) s (s.me.after (decide (m = 0)) target) ∧
    GoesTo (.bnall k o) s (s.me.after (decide (m ≠ s.me.act)) target)

/-- R331: BR jumps; CALL also leaves the address of the next word in s57; JALR reads its base before it writes its link, and
clears bits [1:0] of the target. -/
def Sys2Proof.Says.JumpResults : Prop :=
  ∀ (s : State) (d a : BitVec 6) (o : BitVec 26) (i : BitVec 14), s.begun → s.untraced →
    let near := BitVec.ofInt 64 (s.me.pc.toNat + 4 * o.toInt)
    let far := BitVec.ofNat 64 ((BitVec.ofInt 64 ((s.me.scalar a).toInt + i.toInt)).toNat / 4 * 4)
    GoesTo (.br o) s (s.me.after true near) ∧
    (s.me.openS 57 → ∃ t, exec (.call o) s = .next t ∧ Went s t (s.me.after true near) noS ∧ HoldsS s t 57 (s.me.pc + 4)) ∧
    (s.me.readyS a → s.me.openS d →
      ∃ t, exec (.jalr d a i) s = .next t ∧ Went s t (s.me.after true far) noS ∧ HoldsS s t d (s.me.pc + 4))

/-- R334, R335: the divergence instructions, where the core holds the whole stack. -/
def Sys2Proof.Says.DivergenceResults : Prop :=
  ∀ (s : State) (k : BitVec 3), s.begun → s.me.depth = s.me.dstk.length →
    let a := s.me.act
    let h := s.me.hlp
    let m := s.me.mask k
    (s.me.depth < 16 →
      Diverges (.dif k) s (a &&& m) h (⟨a, a &&& ~~~ m, 0⟩ :: s.me.dstk) ∧
      Diverges .whole s 0xFFFF 0 (⟨a, h, 2⟩ :: s.me.dstk) ∧
      Diverges .wholeH s a (~~~ a) (⟨a, h, 3⟩ :: s.me.dstk)) ∧
    (∀ e r, s.me.dstk = e :: r → s.me.depth ≤ 16 →
      (e.kind = 0 → Diverges .delse s e.e h (⟨e.m, 0, 1⟩ :: r)) ∧
      (e.kind = 0 ∨ e.kind = 1 → Diverges .dend s e.m h r) ∧
      (e.kind = 0 ∨ e.kind = 1 → Diverges (.dbrk k) s (a &&& ~~~ (a &&& m)) h (⟨e.m, e.e &&& ~~~ (a &&& m), e.kind⟩ :: r)) ∧
      (e.kind = 2 ∨ e.kind = 3 → Diverges .endwhole s e.m e.e r))

/-- R336: a divergence instruction whose top entry is of another kind, or whose stack is empty, traps with CONVERGENCE; ESTAT
holds the reason in [23:16] and the active mask in [15:0].  A push on a stack of 65535 entries traps with reason 4. -/
def Sys2Proof.Says.ConvergenceTraps : Prop :=
  ∀ (s : State) (k : BitVec 3), s.begun → s.me.evec ≠ 0 → s.untraced →
    let st (reason : Nat) : W64 := BitVec.ofNat 64 (reason * 65536 + s.me.act.toNat)
    let is (n : BitVec 2) : Prop := s.me.depth ≠ 0 ∧ ∃ e r, s.me.dstk = e :: r ∧ e.kind = n
    (s.me.dstk = [] → s.me.depth = 0) →
    (¬ is 0 → Traps .delse s 9 0 (st 1)) ∧
    (¬ is 0 → ¬ is 1 → Traps .dend s 9 0 (st 2) ∧ Traps (.dbrk k) s 9 0 (st 5)) ∧
    (¬ is 2 → ¬ is 3 → Traps .endwhole s 9 0 (st 3)) ∧
    (65535 ≤ s.me.depth → Traps (.dif k) s 9 0 (st 4) ∧ Traps .whole s 9 0 (st 4) ∧ Traps .wholeH s 9 0 (st 4))

/-! ### Traps, halts, waits and invalidations -/

/-- R49, R378, R382: TRAP, BKPT (while no debug module claims it) and a word that decodes to no instruction take their traps, and
change nothing but what trap entry changes. -/
def Sys2Proof.Says.TrapResults : Prop :=
  ∀ (s : State) (n : BitVec 6) (w : BitVec 32), s.begun → s.me.evec ≠ 0 → s.untraced →
    Traps (.trap n) s 0x11 0 (BitVec.ofNat 64 n.toNat) ∧
    (s.myCore.dbg.swbp = false → Traps (.bkpt n) s 0x12 0 (BitVec.ofNat 64 n.toNat)) ∧
    Traps (.illegal w) s 1 (BitVec.ofNat 64 w.toNat) 0

/-- R48, R215: at U every privileged instruction, and MOVC and MOVTC of EVEC or of a number from 0x300 on, trap with PRIV, with
no other effect; EADDR holds the word. -/
def Sys2Proof.Says.PrivilegeTraps : Prop :=
  ∀ (s : State) (a b : BitVec 6) (c : BitVec 14), s.begun → s.me.evec ≠ 0 → s.untraced → s.me.privS = false →
    let w := BitVec.ofNat 64 s.cur.word.toNat
    Traps .eret s 2 w 0 ∧ Traps .halt s 2 w 0 ∧ Traps (.tlbinv a b) s 2 w 0 ∧
    (c = 0x004 ∨ 0x300 ≤ c.toNat → Traps (.movc a c) s 2 w 0 ∧ Traps (.movtc a c) s 2 w 0)

/-- R378, R368: with EVEC zero a trap ends the thread instead: its slot is free, and when it was its task's last thread the task
is ending with the trap's cause as its status.  (The core's dumps are off; the thread is in no channel and no pair,
and no COPYFAULT or MERGEFAULT waits for it.) -/
def Sys2Proof.Says.TrapWithoutHandler : Prop :=
  ∀ (s : State) (n : BitVec 6), s.begun → s.me.evec = 0 → bitAt s.myCore.dumpcfg 0 = false → s.me.chState = 0 → s.me.role = .single →
    s.me.live = true → s.me.pendCopy = [] → s.me.pendMerge = [] →
    ∃ t, exec (.trap n) s = .next t ∧ (t.thread s).live = false ∧
      (s.threadsOf s.cur.core s.me.task = [s.cur.slot] →
        (t.taskOf s.cur.core s.me.task).endStatus = 0x11 ∧ (t.taskOf s.cur.core s.me.task).ending = true)

/-- R381, R349: ERET restores the privilege, the masks and the PC that trap entry saved, and keeps the trap registers; an attached
subscriber stays attached exactly when it returns to the bundle that it trapped on. -/
def Sys2Proof.Says.EretResults : Prop :=
  ∀ (s : State), s.begun → s.me.privS = true → s.untraced → s.me.role = .single → s.me.pairHeld = false →
    ∃ t, exec .eret s = .next t ∧
      (t.thread s).privS = bitAt s.me.estat 32 ∧ (t.thread s).act = s.me.esA ∧ (t.thread s).hlp = s.me.esH ∧
      (t.thread s).pc = BitVec.ofNat 64 (s.me.epc.toNat / 4 * 4) ∧ (t.thread s).trapped = false ∧ (t.thread s).wait = .run ∧
      (t.thread s).epc = s.me.epc ∧ (t.thread s).ecause = s.me.ecause ∧ (t.thread s).eaddr = s.me.eaddr ∧
      (t.thread s).estat = s.me.estat ∧ (t.thread s).sr = s.me.sr ∧ (t.thread s).sFull = s.me.sFull ∧ (t.thread s).fstat = s.me.fstat ∧
      (s.me.chState ≠ 2 → Beyond whole entire s t ∧ noTrap (t.thread s) = noTrap s.me) ∧
      (s.me.chState = 2 → ((t.thread s).chState = 2 ↔ s.me.chAt = some (BitVec.ofNat 64 (s.me.epc.toNat / 4 * 4))))

/-- R382, R383, R410: HALT at S, and BKPT while the debug module claims software breakpoints, complete and halt the slot; DBGSTAT
names the slot and the reason. -/
def Sys2Proof.Says.HaltResults : Prop :=
  ∀ (s : State) (n : BitVec 6), s.begun →
    let halts (i : Instr) (why : Nat) : Prop :=
      ∃ t, exec i s = .next t ∧ Passed s t s.me.next.pc (fun x => { x with halted := false }) ∧ (t.thread s).halted = true ∧
        Beyond whole (fun x => { x with dbg := { x.dbg with haltreq := 0, slot := 0, why := 0 } }) s t ∧
        (t.core s.cur.core).dbg.slot = s.cur.slot ∧ (t.core s.cur.core).dbg.why = why ∧
        (∀ j, j < 16 → bitAt (t.core s.cur.core).dbg.haltreq j = (decide (j = s.cur.slot) || bitAt s.myCore.dbg.haltreq j))
    (s.me.privS = true → halts .halt 5) ∧ (s.myCore.dbg.swbp = true → halts (.bkpt n) 4)

/-- R372: YIELD completes at once when no other slot is ready, and else waits for every slot that is ready now, at most 64 core
cycles; SLEEP to a tick that has come completes at once, and else waits for it.  YIELD_EXPIRY and SLEEP_WAKE end those waits when
their time has come; before it they leave the state as it is (assumption 45). -/
def Sys2Proof.Says.YieldAndSleep : Prop :=
  (∀ s : State, s.begun →
    ((∀ j, j < 16 → j ≠ s.cur.slot → s.ready s.cur.core j = false) → GoesTo .yield s s.me.next.pc) ∧
    ((∃ j, j < 16 ∧ j ≠ s.cur.slot ∧ s.ready s.cur.core j = true) →
      ∃ l, Begins .yield s 2 (.yield (s.cyc (dieOf s.cur.core) + 64) l) ∧
        ∀ j, j ∈ l ↔ j < 16 ∧ j ≠ s.cur.slot ∧ s.ready s.cur.core j = true)) ∧
  (∀ (s : State) (a : BitVec 6), s.begun → s.me.readyS a →
    let v := (s.me.scalar a).toNat
    (v ≤ s.time → GoesTo (.sleep a) s s.me.next.pc) ∧
    (s.time < v → s.me.chState ≠ 2 → Begins (.sleep a) s 3 (.sleep v)) ∧
    (s.time < v → s.me.chState = 2 → ∃ t, exec (.sleep a) s = .next t ∧ (t.thread s).chState = 0 ∧ (t.thread s).wait = .busy 3 (.sleep v))) ∧
  (∀ (s : State) (c k code u : Nat) (l : List Nat),
    (s.slot c k).pops = [] → s.noLanding c k →
    ((s.slot c k).wait = .busy code (.yield u l) →
      (u ≤ s.cyc (dieOf c) → ∃ t, exec (.yieldExpiry c k) s = .next t ∧ Went (s.by_ c k) t (s.slot c k).next.pc all) ∧
      (s.cyc (dieOf c) < u → exec (.yieldExpiry c k) s = .next s)) ∧
    ((s.slot c k).wait = .busy code (.sleep u) →
      (u ≤ s.time → ∃ t, exec (.sleepWake c k) s = .next t ∧ Went (s.by_ c k) t (s.slot c k).next.pc all) ∧
      (s.time < u → exec (.sleepWake c k) s = .next s)))

/-- R384, R385: ICINV empties the core's fetch cache, or drops one block of the thread's address space; TLBINV at S removes the
matching translations of its core, sends the invalidation to the cores and walkers in its scope, and completes once they and the
accesses already translated are done; TLB_SHOOTDOWN is its arrival.  That ALLADDR makes every walk of a hub stale, of whatever address
space, is assumption 42. -/
def Sys2Proof.Says.InvalidationResults : Prop :=
  (∀ (s : State) (a : BitVec 6), s.begun →
    (∃ t, exec (.icinv 0) s = .next t ∧ Passed s t s.me.next.pc all ∧ Beyond whole (fun x => { x with icache := [] }) s t ∧
      (t.core s.cur.core).icache = []) ∧
    (a ≠ 0 → s.me.readyS a →
      ∃ t, exec (.icinv a) s = .next t ∧ Passed s t s.me.next.pc all ∧ Beyond whole (fun x => { x with icache := [] }) s t ∧
        ∀ b, b ∈ (t.core s.cur.core).icache ↔
          b ∈ s.myCore.icache ∧ ¬ (b.asp = s.me.aspace.toNat ∧ b.blk = (s.me.scalar a).toNat / 64))) ∧
  (∀ (s : State) (a b : BitVec 6), s.begun → s.me.privS = true → s.me.role = .single → s.me.readyS a → s.me.readyS b →
    let va := s.me.scalar a
    let spec := s.me.scalar b
    spec.toNat < 2 ^ 20 →
    (s.me.wip = none → s.tlbTargets s.cur.core (spec.toNat / 2 ^ 18 % 4) = [] → s.throughEntries s.cur.core va spec = [] →
      ∃ t, exec (.tlbinv a b) s = .next t ∧ Passed s t s.me.next.pc all ∧
        ∀ e, e ∈ (t.core s.cur.core).tlb ↔ e ∈ s.myCore.tlb ∧ tlbMatch va spec e = false) ∧
    (s.me.wip = none → s.tlbTargets s.cur.core (spec.toNat / 2 ^ 18 % 4) ≠ [] →
      ∃ t, exec (.tlbinv a b) s = .next t ∧ (t.thread s).wait = .park 3 s.epoch ∧
        (∀ e, e ∈ (t.core s.cur.core).tlb ↔ e ∈ s.myCore.tlb ∧ tlbMatch va spec e = false) ∧
        ∀ o, o ∈ s.tlbTargets s.cur.core (spec.toNat / 2 ^ 18 % 4) → ∃ n, find t.msgs n = some (.tlb o va spec)) ∧
    (∀ ms fs, s.me.wip = some (ms, fs) → (∀ f, f ∈ s.flights → f.id ∉ fs) →
      (∀ m, m ∈ s.msgs → m.1 ∉ ms) → GoesTo (.tlbinv a b) s s.me.next.pc)) ∧
  (∀ (s : State) (n o : Nat) (va spec : W64), find s.msgs n = some (.tlb o va spec) →
    ∃ t, exec (.tlbShootdown n) s = .next t ∧ find t.msgs n = none ∧
      (o < 0x1000 → ∀ e, e ∈ (t.core o).tlb ↔ e ∈ (s.core o).tlb ∧ tlbMatch va spec e = false) ∧
      (0x1000 ≤ o → bitAt spec 16 = true → ∀ w, w ∈ (t.hub (o - 0x1000)).walks → w.stale = true))

/-- R69 to R76: one step of a walk reads its next entry at its home, and waits there for an absent line: at a pointer the walk goes
down, at a leaf the waiting cores' buffers take it, and an entry that has no home, is invalid, has a bit above 51 or does not
permit the access that asked gives its fault to the threads that still wait for it (R76).  (The entry holds no error.) -/
def Sys2Proof.Says.WalkSteps : Prop :=
  ∀ (s : State) (h n : Nat) (w : Walk), n < 8 → (s.hub h).walks[n]? = some w → 1 ≤ w.level → w.level ≤ 4 →
    w.root.toNat % 2 ^ 14 = 0 →
    let low := 16 + 10 * (4 - w.level)
    let index := w.page * 65536 / 2 ^ low % 2 ^ (if w.level = 1 then 11 else 10)
    let at_ := w.table + 8 * index
    let e := s.loadN at_ 8
    let ready := (s.homeOf at_).isSome = true ∧ s.present at_ = true ∧ s.homeTakes 4096 at_ (some w.id) = true ∧ inMemory at_ = true ∧ s.sound at_ 8
    let told (t : State) (cause d : Nat) : Prop := ∀ c k, w.waiters = [(c, k)] → k < 16 →
      (s.slot c k).missed = some (w.page, w.asp) → (w.page, w.asp, cause, d) ∈ (t.slot c k).walkRes
    ∃ t, exec (.walkComplete h n) s = .next t ∧
      (ready → e % 4 = 1 → e < 2 ^ 52 → w.level < 4 →
        (t.hub h).walks[n]? = some { w with table := e / 2 ^ 13 % 2 ^ 39 * 2 ^ 13, level := w.level + 1 }) ∧
      (ready → e % 4 = 3 → e < 2 ^ 52 → 1 < w.level → e / 2 ^ 7 % 2 ^ (low - 7) = 0 → w.stale = false →
        (permOk (e % 128) w.acc w.privS = true →
          ((s.hub h).fifo = [] → (t.hub h).walks = (s.hub h).walks.eraseIdx n) ∧
          ∀ q, w.waiters = [q] → (s.core q.1).tlb.length < 128 →
            { base := w.page * 65536 / 2 ^ low * 2 ^ low, bits := low, pa := e / 2 ^ 13 * 2 ^ 13, perm := e % 128, asp := w.asp } ∈ (t.core q.1).tlb) ∧
        (permOk (e % 128) w.acc w.privS = false → told t 5 0)) ∧
      ((s.homeOf at_).isNone = true ∨ (ready ∧ (e % 2 = 0 ∨ 2 ^ 52 ≤ e)) → w.stale = false →
        told t 4 (if (s.homeOf at_).isNone then 0x100 else 0)) ∧
      ((s.homeOf at_).isSome = true → s.present at_ = false →
        t = { s with cores := t.cores } ∧ ∀ c, { t.core c with arrivals := [] } = { s.core c with arrivals := [] })

/-- R380: at a boundary a live thread that is not halted takes its pending asynchronous trap of lowest cause: FMTMISMATCH, then
COPYFAULT, PREEMPT, PAIRMISMATCH, MERGEFAULT, each but PAIRMISMATCH at U and outside a queue handler only; its EPC is the instruction that it would
have issued next, and what a parked thread waits for is withdrawn (R161).  With nothing to deliver the event leaves the state as it is
(assumption 45). -/
def Sys2Proof.Says.AsyncTrapDelivery : Prop :=
  ∀ (s : State) (c k : Nat), (s.slot c k).live = true → (s.slot c k).halted = false → (s.core c).dbg.freeze = false →
    s.goesBack c k = true → (s.slot c k).evec ≠ 0 → bitAt (s.core c).dbg.btbase 0 = false →
    let u := s.slot c k
    let low := u.privS = false ∧ u.qinh = false
    let takes (p : Post) (t : State) : Prop :=
      (t.slot c k).epc = u.nextPc ∧ (t.slot c k).ecause.toNat = p.cause % 2 ^ 64 ∧ (t.slot c k).eaddr = p.addr ∧
        (t.slot c k).estat = (p.stat &&& ~~~ 0x100000000) ||| (if u.privS = true then 0x100000000 else 0) ∧
        (t.slot c k).privS = true ∧ (t.slot c k).pc = u.evec ∧ (t.slot c k).wait = .run ∧
        (t.slot c k).esA = u.act ∧ (t.slot c k).esH = u.hlp
    ∃ t, exec (.asyncTrapDelivery c k) s = .next t ∧
      (low → ∀ r, s.fmtFor c k = some r →
        (t.slot c k).ecause = 0x0A ∧ (t.slot c k).eaddr = r.1 ∧ (t.slot c k).pc = u.evec ∧ (t.slot c k).epc = u.nextPc) ∧
      (low → s.fmtFor c k = none →
        (∀ p r, u.pendCopy = p :: r → takes p t ∧ (t.slot c k).pendCopy = r) ∧
        (u.pendCopy = [] → ∀ p, u.pendPre = some p → takes p t ∧ (t.slot c k).pendPre = none)) ∧
      ((low → s.fmtFor c k = none ∧ u.pendCopy = [] ∧ u.pendPre = none) →
        (∀ p, u.mismatch = some p → takes p t ∧ (t.slot c k).mismatch = none) ∧
        (u.mismatch = none →
          (low → ∀ p r, u.pendMerge = p :: r → takes p t ∧ (t.slot c k).pendMerge = r) ∧
          (¬ low ∨ u.pendMerge = [] → t = s)))

/-- R386, R387: a PREEMPT post reaches its core and gives every thread of the task a pending PREEMPT with its ordinal, the number
of threads and the code; an FMTMISMATCH record joins its task's queue of four or is counted as lost (R380). -/
def Sys2Proof.Says.PostArrivals : Prop :=
  (∀ (s : State) (n : Nat) (v : W64), find s.msgs n = some (.preempt v) → coreExists (fieldN v 0 12) = true →
    let c := fieldN v 0 12
    let h := fieldN v 16 4
    let l := s.threadsOf c h
    (s.taskOf c h).live = true →
    ∃ t, exec (.preempt n) s = .next t ∧ find t.msgs n = none ∧ (t.taskOf c h).preemptN = l.length ∧
      (∀ i k, l[i]? = some k →
        (t.slot c k).pendPre = some ⟨0x10, 0, BitVec.ofNat 64 (i + l.length * 256 + fieldN v 20 8 * 65536)⟩) ∧
      ∀ k, k ∉ l → (t.slot c k).pendPre = (s.slot c k).pendPre) ∧
  (∀ (s : State) (n c h : Nat) (a st : W64) (slot : Option Nat), find s.msgs n = some (.fmt c h a st slot) → (s.taskOf c h).live = true →
    let q := s.taskOf c h
    ∃ t, exec (.fmtmismatchRecord n) s = .next t ∧ find t.msgs n = none ∧
      (q.fmtq.length < 4 → (t.taskOf c h).fmtq = q.fmtq ++ [(a, st, slot)] ∧ (t.taskOf c h).fmtLost = q.fmtLost) ∧
      (4 ≤ q.fmtq.length → (t.taskOf c h).fmtq = q.fmtq ∧ (t.taskOf c h).fmtLost = q.fmtLost + 1))

/-- R161: when a thread that waits for an access is to trap, the access leaves its home unperformed, and the thread stands at the
instruction again. -/
def Sys2Proof.Says.WithdrawnWaits : Prop :=
  ∀ (s : State) (f : Flight) (n code : Nat), s.flights.find? (fun g => g.id == n) = some f → (∀ v fl p, f.stage ≠ .returning v fl p) →
    (s.slot f.core f.slot).tid = f.tid → (s.slot f.core f.slot).wait = .busy code (.access n) →
    (s.pendingTrap f.core f.slot).isSome = true →
    ∃ t, exec (.waitWithdrawal n) s = .next t ∧ (t.slot f.core f.slot).wait = .run ∧ (∀ g, g ∈ t.flights → g.id ≠ n) ∧
      (t.slot f.core f.slot).pc = (s.slot f.core f.slot).pc ∧ (∀ a, readByte t.mem a = readByte s.mem a) ∧ t.empty = s.empty

/-- R410, R412: HALTREQ halts a running slot, DBG_RESUME lets it go on, STEP sets its step bit, and FREEZE freezes a core and lets
a frozen one go on.  That FREEZE marks no slot and sets no HALTREQ bit is the reading of assumption 34, beside R410's 'Each halt sets the
slot's HALTREQ bit' and R412's 'halts every slot'. -/
def Sys2Proof.Says.DebugResults : Prop :=
  ∀ (s : State) (c k : Nat), k < 16 →
    let d := (s.core c).dbg
    ((s.slot c k).live = true → (s.slot c k).halted = false → (s.slot c k).wait = .run →
      ∃ t, exec (.haltreq c k) s = .next t ∧ (t.slot c k).halted = true ∧ (t.slot c k).pc = (s.slot c k).pc ∧
        (t.core c).dbg.slot = k ∧ (t.core c).dbg.why = 0 ∧ bitAt (t.core c).dbg.haltreq k = true) ∧
    (∃ t, exec (.dbgResume c k) s = .next t ∧ (t.slot c k).halted = false ∧
      (∀ j, j < 16 → bitAt (t.core c).dbg.haltreq j = (!decide (j = k) && bitAt d.haltreq j)) ∧
      Beyond whole (fun x => { x with dbg := { x.dbg with haltreq := 0 } }) (s.by_ c k) t) ∧
    (∃ t, exec (.step c k) s = .next t ∧ t.slot c k = s.slot c k ∧
      (∀ j, j < 16 → bitAt (t.core c).dbg.step j = (decide (j = k) || bitAt d.step j)) ∧
      Beyond whole (fun x => { x with dbg := { x.dbg with step := 0 } }) (s.by_ c k) t) ∧
    (d.freeze = true ∨ (∀ j, j < 16 → (s.slot c j).wait = .run) →
      ∃ t, exec (.freeze c) s = .next t ∧ (t.core c).dbg.freeze = !d.freeze ∧
        Beyond whole (fun x => { x with dbg := { x.dbg with freeze := false } }) (s.by_ c k) t ∧ t.slot c k = s.slot c k)

/-! ### Control registers -/

/-- R93, R100, R102, R209, R216, R238, R272, R313, R334, R374, R377: MOVC reads the control registers of a thread, at U those that U may
read, and at S the supervisor's as well (COLWIN R65, PTROOT R69, SPTAGSEL R141, PRPOST R386, BTBASE R413, HOSTWIN R419). -/
def Sys2Proof.Says.ControlReads : Prop :=
  ∀ (s : State) (d : BitVec 6), s.begun → s.me.openS d → s.me.role = .single →
    let m := s.me
    (CompletesS (.movc d 0x000) s d m.epc ∧ CompletesS (.movc d 0x001) s d m.ecause ∧ CompletesS (.movc d 0x002) s d m.eaddr ∧
      CompletesS (.movc d 0x003) s d m.estat ∧ CompletesS (.movc d 0x005) s d m.dspill ∧ CompletesS (.movc d 0x007) s d m.chcfg ∧
      CompletesS (.movc d 0x00A) s d (BitVec.ofNat 64 m.depth) ∧
      CompletesS (.movc d 0x00B) s d (BitVec.ofNat 64 (m.act.toNat + m.hlp.toNat * 2 ^ 16)) ∧
      CompletesS (.movc d 0x00C) s d m.qcval ∧ CompletesS (.movc d 0x00D) s d m.qrpc ∧
      CompletesS (.movc d 0x020) s d (BitVec.ofNat 64 (m.esA.toNat + m.esH.toNat * 2 ^ 16)) ∧
      CompletesS (.movc d 0x1DC) s d m.mxcfg ∧ CompletesS (.movc d 0x240) s d s.myCore.srcfg ∧
      CompletesS (.movc d 0x241) s d s.myCore.srgrp ∧ CompletesS (.movc d 0x242) s d s.myCore.srbase ∧
      CompletesS (.movc d 0x280) s d (BitVec.ofNat 64 (s.cyc (dieOf s.cur.core))) ∧
      CompletesS (.movc d 0x282) s d (BitVec.ofNat 64 s.time) ∧
      CompletesS (.movc d 0x006) s d ((m.fstat &&& 0x71F) ||| (if s.myCore.topinf = true then 0x800 else 0)) ∧
      (∀ n b, n < 128 → (s.taskOf s.cur.core m.task).banks[n]? = some b →
        CompletesS (.movc d (BitVec.ofNat 14 (0x100 + n))) s d (look 0 s.myCore.bfmt b)) ∧
      (∀ n, n < 8 → CompletesS (.movc d (BitVec.ofNat 14 (0x1D0 + n))) s d (look 0 m.tsh n)) ∧
      (∀ n, n < 4 → CompletesS (.movc d (BitVec.ofNat 14 (0x1D8 + n))) s d (look 0 m.ash n))) ∧
    (m.privS = true →
      CompletesS (.movc d 0x302) s d (BitVec.ofNat 64 s.myCore.colwin) ∧ CompletesS (.movc d 0x310) s d m.sptagsel ∧
      CompletesS (.movc d 0x004) s d m.evec ∧ CompletesS (.movc d 0x300) s d m.ptroot ∧
      CompletesS (.movc d 0x301) s d (m.aspace.setWidth 64) ∧ CompletesS (.movc d 0x313) s d s.myCore.gown ∧
      CompletesS (.movc d 0x314) s d (s.myCore.filldrop.setWidth 64) ∧ CompletesS (.movc d 0x325) s d s.myCore.devec ∧
      CompletesS (.movc d 0x330) s d s.myCore.prpost ∧ CompletesS (.movc d 0x34A) s d s.myCore.dbg.btbase ∧
      CompletesS (.movc d 0x38A) s d s.hostwin)

/-- R13, R215, R238: MOVTC writes a control register, ignoring its reserved bits, and changes nothing else; at U a write of a
register that U may only read has no effect.  That bits [51:14] of PTROOT are its writable ones is assumption 32. -/
def Sys2Proof.Says.ControlWrites : Prop :=
  ∀ (s : State) (a : BitVec 6), s.begun → s.me.readyS a → s.me.role = .single →
    let v := s.me.scalar a
    let own (n : BitVec 14) (but : Slot → Slot) (held : Slot → Prop) : Prop :=
      ∃ t, exec (.movtc a n) s = .next t ∧ Went s t s.me.next.pc but ∧ held (t.thread s)
    let core (n : BitVec 14) (but : Core → Core) (held : Core → Prop) : Prop :=
      ∃ t, exec (.movtc a n) s = .next t ∧ Passed s t s.me.next.pc all ∧ Beyond whole but s t ∧ held (t.core s.cur.core)
    (own 0x005 (fun x => { x with dspill := 0 }) (fun x => x.dspill = BitVec.ofNat 64 (v.toNat / 64 * 64)) ∧
      own 0x007 (fun x => { x with chcfg := 0 }) (fun x => x.chcfg = BitVec.ofNat 64 (v.toNat % 2 ^ 32)) ∧
      own 0x00D (fun x => { x with qrpc := 0 }) (fun x => x.qrpc = BitVec.ofNat 64 (v.toNat / 4 * 4)) ∧
      own 0x1DC (fun x => { x with mxcfg := 0 }) (fun x => x.mxcfg = v &&& 0x7FF7F7F0377) ∧
      core 0x240 (fun x => { x with srcfg := 0 }) (fun x => x.srcfg = v &&& 0xFFFF000000007F01) ∧
      core 0x242 (fun x => { x with srbase := 0 }) (fun x => x.srbase = v) ∧
      (∃ t, exec (.movtc a 0x006) s = .next t ∧ Passed s t s.me.next.pc (fun x => { x with fstat := 0 }) ∧
        (t.thread s).fstat = v &&& 0x71F ∧ Beyond whole (fun x => { x with topinf := false }) s t ∧
        (t.core s.cur.core).topinf = bitAt v 11) ∧
      (∀ n b, n < 128 → (s.taskOf s.cur.core s.me.task).banks[n]? = some b →
        core (BitVec.ofNat 14 (0x100 + n)) (fun x => { x with bfmt := [] })
          (fun x => ∀ j, look 0 x.bfmt j = if j = b then v &&& 0xFF07 else look 0 s.myCore.bfmt j)) ∧
      (∀ n, n < 8 → own (BitVec.ofNat 14 (0x1D0 + n)) (fun x => { x with tsh := [] })
        (fun x => ∀ j, look 0 x.tsh j = if j = n then v &&& 0x71FFFF00 else look 0 s.me.tsh j)) ∧
      (∀ n, n < 4 → own (BitVec.ofNat 14 (0x1D8 + n)) (fun x => { x with ash := [] })
        (fun x => ∀ j, look 0 x.ash j = if j = n then v &&& 0xFF7F01 else look 0 s.me.ash j))) ∧
    (s.me.privS = false → GoesTo (.movtc a 0x000) s s.me.next.pc ∧ GoesTo (.movtc a 0x001) s s.me.next.pc ∧
      GoesTo (.movtc a 0x00B) s s.me.next.pc ∧ GoesTo (.movtc a 0x241) s s.me.next.pc) ∧
    (s.me.privS = true →
      core 0x302 (fun x => { x with colwin := 0 }) (fun x => x.colwin = Nat.min 64 (v.toNat % 128)) ∧
      own 0x310 (fun x => { x with sptagsel := 0 }) (fun x => x.sptagsel = v &&& 0x7FFC0) ∧
      own 0x000 (fun x => { x with epc := 0 }) (fun x => x.epc = v) ∧
      own 0x001 (fun x => { x with ecause := 0 }) (fun x => x.ecause = BitVec.ofNat 64 (v.toNat % 256)) ∧
      own 0x002 (fun x => { x with eaddr := 0 }) (fun x => x.eaddr = v) ∧
      own 0x003 (fun x => { x with estat := 0 }) (fun x => x.estat = v &&& 0x100FFFFFF) ∧
      own 0x004 (fun x => { x with evec := 0 }) (fun x => x.evec = BitVec.ofNat 64 (v.toNat / 4 * 4)) ∧
      own 0x00B (fun x => { x with act := 0, hlp := 0 }) (fun x => x.act = v.extractLsb' 0 16 ∧ x.hlp = v.extractLsb' 16 16) ∧
      own 0x020 (fun x => { x with esA := 0, esH := 0 }) (fun x => x.esA = v.extractLsb' 0 16 ∧ x.esH = v.extractLsb' 16 16) ∧
      own 0x300 (fun x => { x with ptroot := 0 }) (fun x => x.ptroot = v &&& 0xFFFFFFFFFC000) ∧
      own 0x301 (fun x => { x with aspace := 0 }) (fun x => x.aspace = v.extractLsb' 0 16) ∧
      core 0x313 (fun x => { x with gown := 0 }) (fun x => x.gown = v &&& 0x1F) ∧
      core 0x314 (fun x => { x with filldrop := 0 }) (fun x => x.filldrop = v.extractLsb' 0 32) ∧
      core 0x325 (fun x => { x with devec := 0 }) (fun x => x.devec = BitVec.ofNat 64 (v.toNat / 4 * 4)))

/-- R80, R143, R393, R409: MOVTC of HMAP, PDIRBASE and RSTPOST and MOVC of PMRD wait for their own event, which then performs
them: every copy of the home map, every hub of the partition, or the counter of the named core. -/
def Sys2Proof.Says.SlowControlRegisters : Prop :=
  (∀ (s : State) (a : BitVec 6), s.begun → s.me.readyS a → s.me.role = .single → s.me.privS = true →
    let v := s.me.scalar a
    (s.hmapsel < 80 → Begins (.movtc a 0x374) s 3 (.hmap s.hmapsel v)) ∧ Begins (.movtc a 0x312) s 3 (.pdirbase v) ∧
    Begins (.movtc a 0x331) s 3 (.rstpost v)) ∧
  (∀ (s : State) (d : BitVec 6), s.begun → s.me.openS d → s.me.role = .single → Begins (.movc d 0x2B9) s 3 (.pmrd d.toNat)) ∧
  (∀ (s : State) (c k code : Nat),
    (∀ w v, (s.slot c k).wait = .busy code (.hmap w v) →
      ∃ t, exec (.hmapWrite c k) s = .next t ∧ look 0 t.hmap w = v ∧ (∀ j, j ≠ w → look 0 t.hmap j = look 0 s.hmap j) ∧
        (t.slot c k).pc = (s.slot c k).next.pc ∧ (t.slot c k).wait = .run) ∧
    (∀ v, (s.slot c k).wait = .busy code (.pdirbase v) →
      ∃ t, exec (.pdirbaseWrite c k) s = .next t ∧ look 0 t.pdirbase (s.partOf c) = BitVec.ofNat 64 (v.toNat / 2 ^ 17 * 2 ^ 17) ∧
        (t.slot c k).pc = (s.slot c k).next.pc ∧ (t.slot c k).wait = .run) ∧
    (∀ d : BitVec 6, (s.slot c k).wait = .busy code (.pmrd d.toNat) → (s.slot c k).isPort d.toNat = false → s.noLanding c k →
      let o := fieldN (s.slot c k).pmrsel 0 12
      let i := fieldN (s.slot c k).pmrsel 16 3
      ∃ t, exec (.pmrdRead c k) s = .next t ∧ (t.slot c k).pc = (s.slot c k).next.pc ∧ (t.slot c k).wait = .run ∧
        (coreExists o = true → s.partOf o = s.partOf c → fieldN (s.slot c k).pmrsel 19 2 = 0 →
          HoldsS (s.by_ c k) t d (look 0 (s.core o).pmc i)) ∧
        (coreExists o = false ∨ s.partOf o ≠ s.partOf c → HoldsS (s.by_ c k) t d (BitVec.allOnes 64))))

/-- R111, R207, R358, R395, R396: the register writes and reads that are steps of their own at a core: SLREQ, QRING, QCFG, ACCPUT,
DROPD. -/
def Sys2Proof.Says.CoreRegisterEvents : Prop :=
  ∀ (s : State) (v : W64),
    let c := s.cur.core
    let h := s.hub (c / 16)
    (∃ t, exec (.slreqWrite v) s = .next t ∧ (t.core c).slreq.open_ = false ∧ (t.core c).slreq.slot = v.toNat % 16) ∧
    (∃ t, exec (.qringWrite v) s = .next t ∧ (t.hub (c / 16)).age = v.toNat % 2 ^ 16 ∧
      (let size := v.toNat / 2 ^ 32 % 64
       let off := v.toNat / 2 ^ 24 % 64
       if size = 0 ∨ 64 < off + size ∨ h.ringCount ≠ 0 then
         (t.hub (c / 16)).size = h.size ∧ (t.hub (c / 16)).offset = h.offset
       else (t.hub (c / 16)).size = size ∧ (t.hub (c / 16)).offset = off)) ∧
    (s.me.role = .single → ∃ t, exec (.qcfgWrite v) s = .next t ∧
      ∀ p, p < 4 → portOut (t.thread s).qcfg p = portOut v p ∧ portSide (t.thread s).qcfg p = portSide v p ∧
        portPeer (t.thread s).qcfg p = portPeer v p ∧
        (portOn (t.thread s).qcfg p = true ↔
          portOn v p = true ∧ (neighbour c (portSide v p)).isSome = true ∧
            ∀ j, j < 16 → j ≠ s.cur.slot → (s.slot c j).live = true → portOn (s.slot c j).qcfg p = false)) ∧
    (s.begun → ∀ a, (s.taskOf c s.me.task).accs[fieldN s.me.accidx 16 2]? = some a → s.myCore.accLocked a = false →
      let e := s.me.accidx.toNat % 8192
      ∃ t, exec (.accputWrite v) s = .next t ∧ Passed s t s.me.next.pc (fun x => { x with accput := 0, accidx := 0 }) ∧
        Beyond whole (fun x => { x with accv := [], engErr := [] }) s t ∧
        look 0 (t.core c).accv (a * 8192 + e) = v.extractLsb' 0 32 ∧ look 0 (t.core c).accv (a * 8192 + e + 1) = v.extractLsb' 32 32 ∧
        (t.thread s).accidx.toNat % 8192 = (e + 2) % 8192) ∧
    (∃ t, exec .dropdRead s = .next t ∧
      (∀ q w r, s.myCore.dropq = (q, w) :: r → (t.core c).dropq = r ∧ (t.core c).dropv = w) ∧
      (s.myCore.dropq = [] → (t.core c).dropq = [] ∧ (t.core c).dropv = s.myCore.dropv))

/-- R405: MOVTC of MAPOUT that names a core which runs a task traps with RESOURCE 34. -/
def Sys2Proof.Says.MapoutTrap : Prop :=
  ∀ (s : State) (a : BitVec 6), s.begun → s.me.readyS a → s.me.role = .single → s.me.privS = true → s.me.evec ≠ 0 → s.untraced →
    let v := s.me.scalar a
    let o := v.toNat % 4096
    bitAt v 12 = true → coreExists o = true → o ∉ s.mapout → (s.core o).busy = true → Traps (.movtc a 0x371) s 0x16 0 34

/-- R386, R393, R405, R406, R414, R419, R420: PRPOST, MAPOUT, SMPBUF, DUMPREQ, HOSTWIN and PEERSTAT.OPEN.  The event of MAPOUT, which a
MOVTC raises only where it does not trap, leaves the state as it is for a core that runs a task (assumption 45). -/
def Sys2Proof.Says.ModuleRegisterEvents : Prop :=
  ∀ (s : State) (v : W64),
    let c := s.cur.core
    (∃ t, exec (.prpostWrite v) s = .next t ∧ (t.core c).prpost = v &&& 0xFFF0FFF ∧
      find t.msgs s.nextId = some (.preempt (v &&& 0xFFF0FFF))) ∧
    (let o := v.toNat % 4096
     (bitAt v 12 = true → coreExists o = false ∨ o ∈ s.mapout → exec (.mapoutWrite v) s = .next s) ∧
     (bitAt v 12 = true → (s.core o).busy = true → exec (.mapoutWrite v) s = .next s) ∧
     (bitAt v 12 = true → (s.core o).busy = false → coreExists o = true → o ∉ s.mapout →
       ∃ t, exec (.mapoutWrite v) s = .next t ∧ o ∈ t.mapout ∧ t.relRepl = true ∧ t.relDegr = true ∧ t.coreHome o = false)) ∧
    (∀ d : BitVec 2, ∃ t, exec (.smpbufWrite d v) s = .next t ∧ (t.die d.toNat).smpbuf = v &&& 0xFFFFFFFFFFFFF ∧ (t.die d.toNat).head = 0) ∧
    (let k := v.toNat % 16
     bitAt v 4 = true →
       ((s.slot c k).live = true → (s.slot c k).wait = .run → s.myCore.dump = none →
         ∃ t, exec (.dumpreqWrite v) s = .next t ∧ (t.slot c k).wait = .dumping ∧
           ∃ j, (t.core c).dump = some j ∧ j.slot = k ∧ j.taskN = (s.slot c k).task ∧ j.ended = false) ∧
       ((s.slot c k).live = false ∨ s.myCore.dump.isSome = true →
         ∃ t, exec (.dumpreqWrite v) s = .next t ∧ (t.core c).dumpDropped = Nat.min 255 (s.myCore.dumpDropped + 1) ∧
           (t.core c).dump = s.myCore.dump)) ∧
    (∀ p : BitVec 3, ∃ t, exec (.peerstatOpenWrite p v) s = .next t ∧
      (look {} t.peer p.toNat).openHere = bitAt v 1 ∧
      (look {} t.peer p.toNat).up = ((look {} s.peer p.toNat).trained && bitAt v 1 && (look {} s.peer p.toNat).openThere)) ∧
    (∃ t, exec (.hostwinWrite v) s = .next t ∧ t.hostwin = v &&& 0xFFFFF80000001)

/-- R393: the RSTPOST that a thread waits in traps with RESOURCE 33 and the target's reason (7 for a core that does not exist or is
mapped out, 5 for another partition), or completes, and then a task that was free on the target runs.  That reason 7, and then 5, is
reported ahead of any other condition that fails is the order of assumption 27. -/
def Sys2Proof.Says.RestoreResults : Prop :=
  ∀ (s : State) (c k code : Nat) (v : W64), (s.slot c k).wait = .busy code (.rstpost v) →
    let o := fieldN v 52 12
    (∀ s', s.restoreTask c v = some (.ok s') → (s.slot c k).live = true →
      ∃ t, exec (.rstpostWrite c k) s = .next t ∧ (t.slot c k).wait = .run ∧ (t.slot c k).pc = (s.slot c k).next.pc ∧
        ∃ h, (s.taskOf o h).live = false ∧ (t.taskOf o h).live = true) ∧
    ((s.slot c k).evec ≠ 0 →
      (coreExists o = false ∨ o ∈ s.mapout →
        ∃ t, exec (.rstpostWrite c k) s = .next t ∧ (t.slot c k).ecause = 0x16 ∧ (t.slot c k).estat &&& 0xFFFFFFFF = 33 + 7 * 256 ∧
          (t.slot c k).pc = (s.slot c k).evec) ∧
      (coreExists o = true → o ∉ s.mapout → s.served (dieOf o) = true → s.partOf o ≠ s.partOf c →
        ∃ t, exec (.rstpostWrite c k) s = .next t ∧ (t.slot c k).ecause = 0x16 ∧ (t.slot c k).estat &&& 0xFFFFFFFF = 33 + 5 * 256 ∧
          (t.slot c k).pc = (s.slot c k).evec))

/-! ### Time and clocks -/

/-- R421: TADJ slews by its offset, or steps TIME forward at once when the offset exceeds 2^20 ticks; TFREQ saturates at ±2^22; a
slew tick owes TIME one tick more, or one less, and moves the offset towards zero, and before it is due its event leaves the state as it
is (assumption 45). -/
def Sys2Proof.Says.TimeAdjustment : Prop :=
  ∀ (s : State) (v : W64),
    let d : W32 := v.extractLsb' 0 32
    (∃ t, exec (.tadjWrite v) s = .next t ∧
      (if 2 ^ 20 < d.toInt then t.time = s.time + d.toNat ∧ t.tadj = 0 else t.time = s.time ∧ t.tadj = d)) ∧
    (∃ t, exec (.tfreqWrite v) s = .next t ∧ t.time = s.time ∧ t.tfreq.toInt = Max.max (-(2 ^ 22)) (Min.min (2 ^ 22) d.toInt)) ∧
    (∃ t, exec .timeSlew s = .next t ∧
      (1024 ≤ s.tslew → 0 < s.tadj.toInt → t.time = s.time ∧ t.tadj.toInt = s.tadj.toInt - 1 ∧ t.tfrac = s.tfrac + 2 ^ 32) ∧
      (1024 ≤ s.tslew → s.tadj.toInt < 0 → t.time = s.time ∧ t.tadj.toInt = s.tadj.toInt + 1 ∧ t.tfrac = s.tfrac - 2 ^ 32) ∧
      (s.tadj = 0 ∨ s.tslew < 1024 → t = s))

/-- R218, R422: a cap below the die's clock requests a step from level 2 on; a step stops the die after the cycle in progress, at
most at the cap; the new clock starts at its tick and is logged, after the entries of the forward steps of TIME that the stop has seen
(R219; assumption 39: they are written then). -/
def Sys2Proof.Says.ClockSteps : Prop :=
  (∀ (s : State) (d : BitVec 2) (v : W64), v.toNat % 8 < 5 →
    ∃ t, exec (.fcapWrite d v) s = .next t ∧ (t.die d.toNat).fcap = v.toNat % 8 ∧
      (2 ≤ s.level → v.toNat % 8 < (s.die d.toNat).target → (t.die d.toNat).request = some (v.toNat % 8))) ∧
  (∀ (s : State) (d f : Nat), 2 ≤ s.level → d < 4 → (s.die d).stepping = none → (s.die d).eTime ≤ s.time →
    (s.die d).request = some f → s.pwrTrip = false → (∀ e, e < 4 → (s.die e).temp < 110) → (s.die d).throttled = false →
    let g := Min.min f (Min.min (s.die d).fcap (if (s.die d).temp ≤ 90 then 4 else 3))
    ∃ t, exec (.frequencyStep d) s = .next t ∧ (t.die d).request = none ∧ (t.die d).freq = (s.die d).freq ∧
      (if g = (s.die d).freq then (t.die d).stepping = none else (t.die d).stepping = some (g, s.cyc d))) ∧
  (∀ (s : State) (d f n : Nat), (s.die d).stepping = some (f, n) →
    let x := s.die d
    ∃ t, exec (.newClockStart d) s = .next t ∧ (t.die d).freq = f ∧ (t.die d).stepping = none ∧ (t.die d).eTime = s.time ∧
      (t.die d).eCyc = n ∧ (t.die d).owed = 0 ∧
      (x.newest < 8 → x.stepCount < 2 ^ 32 →
        (t.die d).newest = (x.newest + x.owed + 1) % 8 ∧ (t.die d).stepCount = (x.stepCount + x.owed + 1) % 2 ^ 32 ∧
        look 0 (t.die d).steplog (2 * ((x.newest + x.owed + 1) % 8)) = BitVec.ofNat 64 s.time ∧
        look 0 (t.die d).steplog (2 * ((x.newest + x.owed + 1) % 8) + 1) = BitVec.ofNat 64 (f * 2 ^ 61 + n % 2 ^ 56) ∧
        (0 < x.owed → look 0 (t.die d).steplog (2 * ((x.newest + x.owed) % 8)) = BitVec.ofNat 64 s.time ∧
          look 0 (t.die d).steplog (2 * ((x.newest + x.owed) % 8) + 1) = BitVec.ofNat 64 (x.freq * 2 ^ 61 + n % 2 ^ 56))))

/-- R426: at 100 °C a die is throttled and stepped down one clock, and again 10 µs after the last step, until it is below 95 °C; at
110 °C every die is held at 0.6 GHz and TRIP is set.  Before the 10 µs the event of a step leaves the state as it is (assumption
45). -/
def Sys2Proof.Says.ThermalResults : Prop :=
  (∀ (s : State) (d : Nat) (temp : BitVec 8), d < 4 → 100 ≤ temp.toNat → (s.die d).throttled = false →
    ∃ t, exec (.thermalThrottle d temp) s = .next t ∧ (t.die d).throttled = true ∧ t.pwrThrot = true ∧ (t.die d).temp = temp.toNat ∧
      (temp.toNat < 110 → 2 ≤ s.level → 0 < (s.die d).target → (t.die d).request = some ((s.die d).target - 1)) ∧
      (110 ≤ temp.toNat → t.pwrTrip = true ∧ (2 ≤ s.level → ∀ e, e < 4 → (t.die e).request = some 0))) ∧
  (∀ (s : State) (d : Nat), (s.die d).throttled = true →
    (s.time < (s.die d).throtAt + 10000 → exec (.throttleStep d) s = .next s) ∧
    ((s.die d).throtAt + 10000 ≤ s.time →
      ((s.die d).temp < 95 → ∃ t, exec (.throttleStep d) s = .next t ∧ (t.die d).throttled = false) ∧
      (95 ≤ (s.die d).temp → 2 ≤ s.level → 0 < (s.die d).target →
        ∃ t, exec (.throttleStep d) s = .next t ∧ (t.die d).throttled = true ∧ (t.die d).throtAt = s.time ∧
          (t.die d).request = some ((s.die d).target - 1)))) ∧
  (∀ (s : State) (d : Nat) (temp : BitVec 8), d < 4 → 110 ≤ temp.toNat →
    ∃ t, exec (.thermalTrip d temp) s = .next t ∧ t.pwrTrip = true ∧ (t.die d).temp = temp.toNat ∧ (t.die d).throttled = true ∧
      (2 ≤ s.level → ∀ e, e < 4 → (t.die e).request = some 0))

/-! ### Tasks -/

/-- R357, R364, R366: SPAWN and CALLAT of a valid record send it to its cluster's hub, under the thread's root and address space, and
wait until the hub accepts it; CALLAT's copy replies to s[d], which is empty from then on.  The record's arrival at a bank with
room completes the wait, and so does its refusal by a cluster that is not yet served, which HOSTERR counts (R424): the manual gives no end of the wait in that case, and that is
assumption 53's.  A flit that lost two rails on the way poisons the record (R403). -/
def Sys2Proof.Says.SpawnResults : Prop :=
  (∀ (s : State) (a d : BitVec 6) (l : Loc), s.begun → s.idle → s.me.readyS a → s.Reaches (s.me.scalar a) 64 .load l →
    s.readable l.pa 64 →
    let r := readBytes s.mem l.pa 64
    recordOk r = true → recSib r = false → s.partOf (recCore r) = s.partOf s.cur.core →
    (∃ t, exec (.spawn a) s = .next t ∧ (t.thread s).wait = .busy 3 (.place s.nextId) ∧ (t.thread s).pc = s.me.pc ∧
      find t.msgs s.nextId =
        some (.record (recCore r / 16) ⟨r, 0, s.me.ptroot, s.me.aspace, []⟩ (some (s.cur.core, s.cur.slot, s.me.tid)) s.cur.core)) ∧
    (d ≠ 0 → s.me.openS d →
      ∃ t q, exec (.callat d a) s = .next t ∧ (t.thread s).wait = .busy 3 (.place s.nextId) ∧ (t.thread s).pc = s.me.pc ∧
        bitAt (t.thread s).sFull d.toNat = false ∧
        find t.msgs s.nextId =
          some (.record (recCore r / 16) ⟨q, 0, s.me.ptroot, s.me.aspace, []⟩ (some (s.cur.core, s.cur.slot, s.me.tid)) s.cur.core) ∧
        q.take 40 = r.take 40 ∧ q.drop 48 = r.drop 48 ∧
        recReply q = BitVec.ofNat 64 (d.toNat * 2 ^ 22 + s.me.task * 2 ^ 16 + s.cur.slot * 2 ^ 12 + s.cur.core))) ∧
  (∀ (s : State) (n h src : Nat) (r : QRec) (who : Option (Nat × Nat × Nat)), find s.msgs n = some (.record h r who src) →
    (∀ m, m ∈ s.msgs → m.1 < n → ∀ r' w', m.2 ≠ .record h r' w' src) →
    (s.served (h / 64) = true → (s.hub h).bank.length < 256) →
    let lost := dieOf src ≠ h / 64 ∧ dieLink (dieOf src) (h / 64) ∈ s.badFlits
    ∃ t, exec (.recordArrival n) s = .next t ∧ find t.msgs n = none ∧
      (s.served (h / 64) = true → t.hosterr = s.hosterr ∧
        (¬ lost → (t.hub h).bank = (s.hub h).bank ++ [{ r with arrival := s.time }]) ∧
        (lost → (t.hub h).bank = (s.hub h).bank ++ [{ r with arrival := s.time, poison := List.range 9 }])) ∧
      (s.served (h / 64) = false → (t.hub h).bank = (s.hub h).bank ∧ t.hosterr = s.hosterr + 1) ∧
      ∀ c k tid, who = some (c, k, tid) → (s.slot c k).tid = tid → (s.slot c k).wait = .busy 3 (.place n) →
        (t.slot c k).wait = .run ∧ (t.slot c k).pc = (s.slot c k).next.pc)

/-- R365, R200: SPAWN of a SIB record starts a further thread of the task in the lowest free slot: at the record's entry, at U, with its
arguments in s1 to s4 and every other register zero and full. -/
def Sys2Proof.Says.SiblingStarts : Prop :=
  ∀ (s : State) (a : BitVec 6) (l : Loc) (k : Nat) (r : List Nat), s.begun → s.idle → s.me.readyS a →
    s.Reaches (s.me.scalar a) 64 .load l → s.readable l.pa 64 →
    let b := readBytes s.mem l.pa 64
    recordOk b = true → recSib b = true → s.myCore.freeSlots = k :: r → k ≠ s.cur.slot →
    ∃ t, exec (.spawn a) s = .next t ∧ (t.thread s).wait = .run ∧ (t.thread s).pc = s.me.next.pc ∧
      let u := t.slot s.cur.core k
      u.live = true ∧ u.task = s.me.task ∧ u.privS = false ∧ u.pc = (BitVec.ofNat 64 (recEntry b) &&& ~~~3) ∧ u.act = 0xFFFF ∧
        u.tid = s.nextTid ∧ u.sFull = BitVec.allOnes 64 ∧
        ∀ n : BitVec 6, u.scalar n = if 1 ≤ n.toNat ∧ n.toNat ≤ 4 then recArg b (n.toNat - 1) else 0

/-- R17, R357, R360 to R362, R400: dispatch takes the record that the manual's order names, allocates its resources and starts its first
thread at the record's entry with PC[1:0] zero; an argument that came poisoned poisons its register.  A refill moves the oldest ring
entry into the bank with its marks; one that is no longer a valid record is dropped and counted, which is assumption 68's. -/
def Sys2Proof.Says.DispatchResults : Prop :=
  (∀ (s : State) (c h k : Nat) (r : QRec) (hs ks : List Nat), s.coreActive c = true → s.nextRecord c = some r →
    (s.core c).freeTasks = h :: hs → (s.core c).freeSlots = k :: ks → resSluice (recRes r.bytes) = false →
    resPair (recRes r.bytes) = false → (∀ i, i ∈ r.poison → 1 ≤ i ∧ i ≤ 4) →
    ∃ t, exec (.dispatch c) s = .next t ∧ (t.hub (c / 16)).bank = (s.hub (c / 16)).bank.erase r ∧
      (t.taskOf c h).live = true ∧ (t.taskOf c h).reply = recReply r.bytes ∧ (t.taskOf c h).ptroot = r.root ∧
      (t.taskOf c h).banks = ((s.core c).freeOf 128 Task.banks).take (resBanks (recRes r.bytes)) ∧
      (t.slot c k).live = true ∧ (t.slot c k).task = h ∧ (t.slot c k).privS = false ∧
      (t.slot c k).pc = (BitVec.ofNat 64 (recEntry r.bytes) &&& ~~~3) ∧ (t.slot c k).evec = (s.core c).devec ∧
      ∀ n : BitVec 6, (t.slot c k).scalar n = (if 1 ≤ n.toNat ∧ n.toNat ≤ 4 then recArg r.bytes (n.toNat - 1) else 0) ∧
        bitAt (t.slot c k).sPoison n.toNat = decide (n.toNat ∈ r.poison)) ∧
  (∀ (s : State) (h : Nat), let a := s.ringBase h + (s.hub h).ringHead * 128
    (s.hub h).bank.length < 256 → 0 < (s.hub h).ringCount → 0 < s.ringCap h → s.homeOpen 4096 a = true →
    (∀ g, g ∈ s.latent → ¬ (a / 8 ≤ g.1 ∧ g.1 ≤ (a + 127) / 8)) →
    let r := QRec.ofRing (readBytes s.mem a 128) fun i => s.poisoned (a + 8 * i) 8
    ∃ t, exec (.ringRefill h) s = .next t ∧ (t.hub h).ringCount = (s.hub h).ringCount - 1 ∧ t.mem = s.mem ∧
      (t.hub h).ringHead = ((s.hub h).ringHead + 1) % s.ringCap h ∧
      (recordOk r.bytes = true → recSib r.bytes = false → (t.hub h).bank = (s.hub h).bank ++ [r] ∧ (t.hub h).drops = (s.hub h).drops) ∧
      (recordOk r.bytes = false ∨ recSib r.bytes = true → (t.hub h).bank = (s.hub h).bank ∧
        ((s.hub h).drops < 0xFFFF → (t.hub h).drops = (s.hub h).drops + 1)))

/-- R367, R368: QUIT frees its slot at once, and the task of a last thread is ending; RETV first sends the task's reply, once, to the
register that its record named. -/
def Sys2Proof.Says.ThreadEnds : Prop :=
  ∀ (s : State), s.begun → s.me.role = .single → s.me.chState = 0 →
    let c := s.cur.core
    let h := s.me.task
    let q := s.taskOf c h
    (∃ t, exec .quit s = .next t ∧ (t.thread s).live = false ∧
      ((∀ k, k ∈ s.threadsOf c h → k = s.cur.slot) → (t.taskOf c h).ending = true)) ∧
    (∀ a : BitVec 6, s.me.readyS a → s.unperformed s.me.tid 4 = false →
      (q.replied = true ∨ q.reply = 0 →
        ∃ t, exec (.retv a) s = .next t ∧ (t.thread s).live = false ∧ (t.taskOf c h).replied = true ∧ t.msgs = s.msgs) ∧
      (q.replied = false → q.reply ≠ 0 → bitAt q.reply 63 = false → fieldN q.reply 0 12 ≠ c → q.killed = false → q.endStatus ≠ 0x13 →
        ∃ t, exec (.retv a) s = .next t ∧ (t.thread s).live = false ∧ (t.taskOf c h).replied = true ∧
          find t.msgs s.nextId = some (.fill q.reply (s.me.scalar a) s.myCore.topinf c)))

/-- R369, R370: TMAKE writes a block's counter, leaves the block's address in s[d] and places the record at once where the count is 0; TDEC
posts a decrement, whose arrival counts the block down, places the record under the maker's root at zero, and drops and counts a
decrement of a block that is not pending.  That TMAKE's write is one that R101 may discard and the decrement is not is assumption 59's; that
a block whose bytes a store has made no valid record is dropped and counted, and a decrement whose flit lost two rails too, is assumption
68's. -/
def Sys2Proof.Says.DependenceResults : Prop :=
  (∀ (s : State) (d a b : BitVec 6) (l : Loc), s.begun → s.idle → s.me.readyS a → s.me.readyS b → s.me.openS d →
    s.Reaches (s.me.scalar a) 128 .atomic l → hasFe l.pa = true → l.pa % 128 = 0 → s.present l.pa = true → s.present (l.pa + 64) = true →
    s.homeOpen s.cur.core l.pa = true → s.sound l.pa 64 → inMemory l.pa = true → s.discards s.cur.core s.myCore.topinf l.pa = false →
    let r := readBytes s.mem l.pa 64
    let n := (s.me.scalar b).toNat % 2 ^ 32
    recordOk r = true → recSib r = false → s.partOf (recCore r) = s.partOf s.cur.core →
    (∀ f, f ∈ s.flights → f.order = none) →
    ∃ t, exec (.tmake d a b) s = .next t ∧ HoldsS s t d (BitVec.ofNat 64 l.pa) ∧ (t.thread s).pc = s.me.next.pc ∧
      t.loadN (l.pa + 64) 8 = n ∧ t.loadN (l.pa + 72) 8 = (if n = 0 then 0 else 1) ∧
      (n = 0 → find t.msgs s.nextId = some (.record (recCore r / 16) ⟨r, 0, s.me.ptroot, s.me.aspace, []⟩ none s.cur.core)) ∧
      (0 < n → t.msgs = s.msgs) ∧ (∀ x, x < l.pa + 64 ∨ l.pa + 128 ≤ x → readByte t.mem x = readByte s.mem x)) ∧
  (∀ (s : State) (a : BitVec 6), s.begun → s.me.role = .single → s.me.readyS a → s.unperformed s.me.tid 4 = false →
    ∃ t, exec (.tdec a) s = .next t ∧ Passed s t s.me.next.pc all ∧
      Beyond (fun x => { x with msgs := [], nextId := 0 }) entire s t ∧
      find t.msgs s.nextId = some (.tdec (s.me.scalar a) s.cur.core)) ∧
  (∀ (s : State) (n src c : Nat) (h : W64), find s.msgs n = some (.tdec h src) →
    (∀ m, m ∈ s.msgs → m.1 < n → ∀ g, m.2 = .tdec g src → s.homeOf g.toNat ≠ some c) → s.homeOf h.toNat = some c →
    hasFe h.toNat = true → inMemory h.toNat = true → s.takesArrival src c (some n) = true → s.sound h.toNat 128 →
    s.present h.toNat = true → s.present (h.toNat + 64) = true → (∀ f, f ∈ s.flights → f.order = none) →
    let lost := dieOf src ≠ dieOf c ∧ dieLink (dieOf src) (dieOf c) ∈ s.badFlits
    let count := s.loadN (h.toNat + 64) 8
    (¬ lost → h.toNat % 128 = 0 → s.loadN (h.toNat + 72) 8 % 2 = 1 → 1 < count → count < 2 ^ 64 →
      ∃ t, exec (.tdecArrival n) s = .next t ∧ find t.msgs n = none ∧ t.loadN (h.toNat + 64) 8 = count - 1 ∧
        ∀ x, x < h.toNat + 64 ∨ h.toNat + 72 ≤ x → readByte t.mem x = readByte s.mem x) ∧
    (¬ lost → h.toNat % 128 = 0 → s.loadN (h.toNat + 72) 8 % 2 = 1 → count = 1 →
      let r := readBytes s.mem h.toNat 64
      let good := recordOk r = true ∧ recSib r = false ∧ s.partOf (recCore r) = s.partOf c
      ∃ t, exec (.tdecArrival n) s = .next t ∧ t.loadN (h.toNat + 64) 8 = 0 ∧ t.loadN (h.toNat + 72) 8 = 0 ∧
        (∀ x, x < h.toNat + 64 ∨ h.toNat + 80 ≤ x → readByte t.mem x = readByte s.mem x) ∧
        (good → find t.msgs s.nextId = some (.record (recCore r / 16)
          ⟨r, 0, BitVec.ofNat 64 (s.loadN (h.toNat + 80) 8), BitVec.ofNat 16 (s.loadN (h.toNat + 88) 2), []⟩ none c)) ∧
        (¬ good → t.msgs = del s.msgs n ∧ (t.core c).tdrop = (s.core c).tdrop + 1)) ∧
    (lost ∨ h.toNat % 128 ≠ 0 ∨ s.loadN (h.toNat + 72) 8 % 2 = 0 →
      ∃ t, exec (.tdecArrival n) s = .next t ∧ find t.msgs n = none ∧ (t.core c).tdrop = (s.core c).tdrop + 1 ∧ t.mem = s.mem))

/-- R371: MIGR hands the thread's package to the home of its address and frees the slot; its arrival starts it there, as a task of its
own with an empty allocation and every register it carried. -/
def Sys2Proof.Says.MigrationResults : Prop :=
  (∀ (s : State) (a : BitVec 6) (l : Loc) (c : Nat), s.begun → s.idle → s.me.readyS a → s.Reaches (s.me.scalar a) 1 .load l →
    s.homeOf l.pa = some c → c < 4096 → s.partOf c = s.partOf s.cur.core → (∀ n, n < 4 → portOn s.me.qcfg n = false) →
    s.migrBusy = false → s.me.chState = 0 → (s.core c).migbuf.length < 4 →
    ∃ t p, exec (.migr a) s = .next t ∧ (t.thread s).live = false ∧ (t.core c).migbuf = (s.core c).migbuf ++ [p] ∧
      p.thread.sr = s.me.sr ∧ p.thread.sFull = s.me.sFull ∧ p.thread.afB = s.me.afB ∧ p.thread.afS = s.me.afS ∧ p.thread.kr = s.me.kr ∧
      p.thread.act = s.me.act ∧ p.thread.hlp = s.me.hlp ∧ p.thread.pc = s.me.pc + 4 ∧ p.thread.vr = [] ∧ p.thread.fstat = s.me.fstat) ∧
  (∀ (s : State) (c k h : Nat) (p : Pkg) (r : List Pkg) (ks hs : List Nat), (s.core c).migbuf = p :: r → (s.core c).freeSlots = k :: ks →
    (s.core c).freeTasks = h :: hs →
    ∃ t, exec (.migrationArrival c) s = .next t ∧ (t.core c).migbuf = r ∧ (t.slot c k).live = true ∧ (t.slot c k).task = h ∧
      (t.slot c k).sr = p.thread.sr ∧ (t.slot c k).pc = p.thread.pc ∧ (t.taskOf c h).live = true ∧ (t.taskOf c h).reply = p.reply ∧
      (t.taskOf c h).banks = [] ∧ (t.taskOf c h).tiles = [])

/-- R368, R389: once its threads and its accesses have ended, a task sends the reply that no RETV has sent, and then its resources are
free. -/
def Sys2Proof.Says.TaskEnds : Prop :=
  ∀ (s : State) (c h : Nat), (s.taskOf c h).live = true → (s.taskOf c h).ending = true → s.threadsOf c h = [] →
    s.taskQuiet c h = true → (∀ q, q ∈ (s.core c).slcmds → q.task ≠ h) →
    let q := s.taskOf c h
    (q.preempted = none → q.replied = false → q.reply ≠ 0 → bitAt q.reply 63 = false → fieldN q.reply 0 12 ≠ c → q.killed = false →
      q.endStatus ≠ 0x13 →
      ∃ t, exec (.taskEnd c h) s = .next t ∧ (t.taskOf c h).replied = true ∧ (t.taskOf c h).live = true ∧
        find t.msgs s.nextId = some (.fill q.reply 0 (s.core c).topinf c)) ∧
    ((q.preempted.isSome = true ∨ q.replied = true ∨ q.reply = 0) → q.member = none → q.leaving = false →
      ∃ t, exec (.taskEnd c h) s = .next t ∧ (t.taskOf c h).live = false)

/-! ### Polders and queue ports -/

/-- R147: PJOIN enters its task as a member of the directory's entry; its own window then holds every member of that snapshot, and a
message tells each of the others to install it; it waits for their answers, and completes once they have come.  R148: PLEAVE takes
its task out of the entry and tells the members of the snapshot to remove it; once they have answered it empties its own window,
and completes when no access through that is under way; without a membership it completes at once.  That a PLEAVE under way bars
PJOIN, while it is no membership for another PLEAVE, is assumption 69's.  R149: PQUERY reads MASK, after the
thread's earlier accesses to that home. -/
def Sys2Proof.Says.PolderResults : Prop :=
  ∀ (s : State) (d a b : BitVec 6), s.begun → s.me.role = .single → s.me.readyS a → s.me.readyS b → s.me.openS d → s.myDir ≠ 0 →
    let p := (s.me.scalar a).toNat
    let i := (s.me.scalar b).toNat
    let c := s.cur.core
    let h := s.me.task
    let q := s.taskOf c h
    let e := s.myDir.toNat + 512 * p
    let mask (t : State) (j : Nat) : Bool := Nat.testBit (t.loadN e 8) j
    let member (t : State) (j : Nat) (m : Nat × Nat) : Prop := j < 64 ∧ mask t j = true ∧ dirMember (readBytes t.mem e 512) j = some m
    let free : Prop := s.dirOpen c e = true ∧ s.pendingAt s.me.tid e = false ∧ inMemory e = true ∧ s.sound e 512 ∧ s.flitSound c e ∧
      ∀ f, f ∈ s.flights → f.order = none
    let parks (t : State) : Prop := (t.thread s).wait = .park 4 s.epoch ∧ (t.thread s).pc = s.me.pc
    p ≤ 255 → (s.homeOf e).isSome = true →
    (s.free_ → s.pendingAt s.me.tid e = false → s.readable e 8 →
      ∃ t, exec (.pquery d a) s = .next t ∧ Passed s t s.me.next.pc noS ∧ HoldsS s t d (BitVec.ofNat 64 (s.loadN e 8)) ∧
        Counted whole s t) ∧
    (i ≤ 63 → free → q.member = none → q.leaving = false → q.joinBy ≠ some s.me.tid → mask s i = false →
      ∃ t, exec (.pjoin a b) s = .next t ∧ parks t ∧ (t.taskOf c h).member = some (p, i) ∧ (t.taskOf c h).joinBy = some s.me.tid ∧
        (∀ j, j < 64 → mask t j = (decide (j = i) || mask s j)) ∧ t.loadN (e + 16 + 4 * i) 4 = (c + h * 65536 + 2 ^ 31) % 2 ^ 32 ∧
        (∀ j m, member t j m → find (t.core c).pwin (h * 64 + j) = some m ∧
          (j ≠ i → ∃ n, find t.msgs n = some (.polder m.1 m.2 p i (some (c, h)) (c * 16 + h) none)))) ∧
    (q.joinBy = some s.me.tid → s.polderPending (c * 16 + h) = false →
      ∃ t, exec (.pjoin a b) s = .next t ∧ Passed s t s.me.next.pc all ∧ Beyond whole (fun x => { x with tasks := [] }) s t ∧
        t.taskOf c h = { q with joinBy := none }) ∧
    (q.member = some (p, i) → q.leaveBy ≠ some s.me.tid → i ≤ 63 → free →
      ∃ t, exec .pleave s = .next t ∧ parks t ∧ (t.taskOf c h).member = none ∧ (t.taskOf c h).leaving = true ∧
        (t.taskOf c h).leaveBy = some s.me.tid ∧ (∀ j, j < 64 → mask t j = (!decide (j = i) && mask s j)) ∧
        t.loadN (e + 16 + 4 * i) 4 = 0 ∧
        ∀ j m, member t j m → ∃ n, find t.msgs n = some (.polder m.1 m.2 p i none (c * 16 + h) none)) ∧
    (q.leaveBy = some s.me.tid →
      (q.leaving = true → s.polderPending (c * 16 + h) = false →
        ∃ t, exec .pleave s = .next t ∧ parks t ∧ (t.taskOf c h).leaving = false ∧ ∀ x, x ∈ (t.core c).pwin → x.1 / 64 ≠ h) ∧
      (q.leaving = false → s.polderFlights c h = false →
        ∃ t, exec .pleave s = .next t ∧ Passed s t s.me.next.pc all ∧ Beyond whole (fun x => { x with tasks := [] }) s t ∧
          t.taskOf c h = { q with leaveBy := none })) ∧
    (q.member = none → q.leaveBy ≠ some s.me.tid → GoesTo .pleave s s.me.next.pc)

/-- R147, R148: a message of a polder reaches a member's window once what was sent before it for that slot has been applied, while the
task still holds its membership of that polder: an install gives the slot to the one who joined; a removal takes out the one who
left, and is acknowledged when what had been sent through the slot has been performed.  That a message acts only on a window of the same
polder that still stands, that a removal acts only on the slot of the one who left, and what is counted as sent through a slot, are
assumption 58's. -/
def Sys2Proof.Says.PolderUpdates : Prop :=
  ∀ (s : State) (n c h pid i src : Nat) (m : Option (Nat × Nat)),
    let slot (t : State) : Option (Nat × Nat) := find (t.core c).pwin (h * 64 + i)
    let sent := s.through c h fun j => j == i
    (find s.msgs n = some (.polder c h pid i m src none) → s.polderFirst n c h i = true → s.takesArrival (src / 16) c (some n) = true →
      ∃ t, exec (.polderWindowUpdate n) s = .next t ∧ t.mem = s.mem ∧
        (∀ q j, m = some q → (s.taskOf c h).live = true → (s.taskOf c h).member = some (pid, j) →
          slot t = some q ∧ find t.msgs n = none) ∧
        (m = none → find t.msgs n = (if sent = [] then none else some (.polder c h pid i none src (some sent))) ∧
          slot t = (if (s.taskOf c h).live = true ∧ (s.taskOf c h).member.map Prod.fst = some pid ∧ slot s = some (src / 16, src % 16)
            then none else slot s))) ∧
    (∀ l, find s.msgs n = some (.polder c h pid i m src (some l)) →
      (s.underWay c l = false → ∃ t, exec (.polderWindowUpdate n) s = .next t ∧ find t.msgs n = none ∧ t.mem = s.mem) ∧
      (s.underWay c l = true → exec (.polderWindowUpdate n) s = .next s))

/-- R207, R220, R373: an instruction that reads a full input port takes its oldest entry, once for both operands, and one that writes an
output port with room sends an entry to the neighbour; QPUSHC sends a control entry; the entry's arrival appends it. -/
def Sys2Proof.Says.PortResults : Prop :=
  (∀ (s : State) (d n : BitVec 6) (v : W64) (r : List PortEnt), s.begun → s.me.role = .single → s.me.openS d →
    s.me.isPort n.toNat = true → portOut s.me.qcfg (n.toNat - 60) = false → (s.joined s.cur.core (n.toNat - 60)).isSome = true →
    (look {} s.myCore.ports (n.toNat - 60)).here = { val := v } :: r →
    ∃ t, exec (.add d n n) s = .next t ∧ Passed s t s.me.next.pc noS ∧ HoldsS s t d (v + v) ∧
      (look {} (t.core s.cur.core).ports (n.toNat - 60)).here = r) ∧
  (∀ (s : State) (a n : BitVec 6) (q : BitVec 2) (o p : Nat), s.begun → s.idle → s.me.readyS a → n.toNat = 60 + q.toNat →
    portOn s.me.qcfg q.toNat = true → portOut s.me.qcfg q.toNat = true → s.joined s.cur.core q.toNat = some (o, p) →
    s.portSpace s.cur.core q.toNat = true →
    let fly := (look {} (s.core o).ports p).fly
    (∃ t, exec (.add n a 0) s = .next t ∧ Passed s t s.me.next.pc all ∧
      (look {} (t.core o).ports p).fly = fly ++ [{ val := s.me.scalar a }]) ∧
    (∃ t, exec (.qpushc q a) s = .next t ∧ Passed s t s.me.next.pc all ∧
      (look {} (t.core o).ports p).fly = fly ++ [{ val := s.me.scalar a, ctl := true }])) ∧
  (∀ (s : State) (c p : Nat) (e : PortEnt) (r : List PortEnt), (look {} (s.core c).ports p).fly = e :: r →
    ∃ t, exec (.queueEntryArrival c p) s = .next t ∧ (look {} (t.core c).ports p).fly = r ∧
      (look {} (t.core c).ports p).here = (look {} (s.core c).ports p).here ++ [e] ∧
      Beyond whole (fun x => { x with ports := [] }) (s.by_ c 0) t)

/-- R373 to R375: QSTAT reports a port's entries; QPUSHC on a port that is no enabled output traps with QUEUE 2, and QRET outside a
handler with QUEUE 4; a read of a control entry enters the port's handler, and QRET returns to the instruction that it
interrupted. -/
def Sys2Proof.Says.QueueHandlers : Prop :=
  (∀ (s : State) (d : BitVec 6) (q : BitVec 2), s.begun → s.me.role = .single → s.me.openS d → portOn s.me.qcfg q.toNat = true →
    portOut s.me.qcfg q.toNat = false →
    let l := (look {} s.myCore.ports q.toNat).here
    CompletesS (.qstat q d) s d
      (BitVec.ofNat 64 (l.length + (if l.head?.any PortEnt.ctl then 64 else 0) + 128))) ∧
  (∀ (s : State) (a : BitVec 6) (q : BitVec 2), s.begun → s.me.evec ≠ 0 → s.untraced →
    (s.me.readyS a → portOn s.me.qcfg q.toNat = false ∨ portOut s.me.qcfg q.toNat = false → Traps (.qpushc q a) s 0x17 0 2) ∧
    (s.me.qinh = false → Traps .qret s 0x17 0 4) ∧
    (s.me.qinh = true → s.me.chState = 0 →
      ∃ t, exec .qret s = .next t ∧ (t.thread s).qinh = false ∧ (t.thread s).pc = BitVec.ofNat 64 (s.me.qrpc.toNat / 4 * 4) ∧
        (t.thread s).wait = .run ∧ (t.thread s).sr = s.me.sr)) ∧
  (∀ (s : State) (d n : BitVec 6) (v : W64) (r : List PortEnt), s.begun → s.me.role = .single → s.me.openS d →
    s.me.isPort n.toNat = true → portOut s.me.qcfg (n.toNat - 60) = false → s.me.qinh = false →
    (s.joined s.cur.core (n.toNat - 60)).isSome = true →
    (look {} s.myCore.ports (n.toNat - 60)).here = { val := v, ctl := true } :: r → look 0 s.me.qhdl (n.toNat - 60) ≠ 0 →
    ∃ t, exec (.add d n 0) s = .next t ∧ (t.thread s).qinh = true ∧ (t.thread s).qcval = v ∧ (t.thread s).qrpc = s.me.pc ∧
      (t.thread s).pc = BitVec.ofNat 64 ((look 0 s.me.qhdl (n.toNat - 60)).toNat / 4 * 4) ∧ (t.thread s).sr = s.me.sr ∧
      (look {} (t.core s.cur.core).ports (n.toNat - 60)).here = r)

/-! ### Channels -/

/-- R341, R342: CHPUB opens the core's channel with no subscriber; CHSUB of an open channel waits for the next CHSYNC, and of a closed
one writes 1 and goes on; CHSYNC attaches every waiting thread, with 0 in its register; CHUNSUB detaches its thread. -/
def Sys2Proof.Says.ChannelMembership : Prop :=
  (∀ s : State, s.begun → s.me.role = .single → s.me.chState = 0 → s.myCore.chan.open_ = false →
    ∃ t, exec .chpub s = .next t ∧ (t.thread s).chState = 1 ∧ (t.thread s).chChan = s.cur.core ∧ (t.thread s).pc = s.me.pc + 4 ∧
      (t.core s.cur.core).chan = { open_ := true, slot := s.cur.slot, tid := s.me.tid }) ∧
  (∀ (s : State) (a : BitVec 6), s.begun → s.me.role = .single → s.me.readyS a → s.me.openS a → s.me.chState = 0 →
    let c := (s.me.scalar a).toNat
    c < 4096 → coreExists c = true →
    ((s.core c).chan.open_ = false → CompletesS (.chsub a) s a 1) ∧
    ((s.core c).chan.open_ = true → (s.core c).chan.subs.length < 64 →
      ∃ t, exec (.chsub a) s = .next t ∧ (t.thread s).chState = 3 ∧ (t.thread s).chChan = c ∧
        (t.thread s).wait = .busy 7 (.chsub a.toNat) ∧
        (t.core c).chan.joining = (s.core c).chan.joining ++ [(s.cur.core, s.cur.slot, s.me.tid)])) ∧
  (∀ (s : State) (c k d code : Nat), s.begun → s.me.role = .single → s.me.publishes = true → (c, k) ≠ (s.cur.core, s.cur.slot) →
    s.myCore.chan.joining = [(c, k, (s.slot c k).tid)] → s.myCore.chan.subs.length < 64 →
    (s.slot c k).wait = .busy code (.chsub d) → (s.slot c k).chState = 3 → d < 64 →
    ∃ t, exec .chsync s = .next t ∧ (t.thread s).pc = s.me.next.pc ∧ (t.slot c k).chState = 2 ∧ (t.slot c k).wait = .run ∧
      (d ≠ 0 → look 0 (t.slot c k).sr d = 0) ∧
      (t.core s.cur.core).chan.subs = s.myCore.chan.subs ++ [(c, k, (s.slot c k).tid)] ∧ (t.core s.cur.core).chan.joining = []) ∧
  (∀ s : State, s.begun → s.me.role = .single → 2 ≤ s.me.chState → s.me.inStream = false →
    ∃ t, exec .chunsub s = .next t ∧ (t.thread s).chState = 0 ∧ (t.thread s).pc = s.me.pc + 4 ∧
      (s.cur.core, s.cur.slot, s.me.tid) ∉ (t.core s.me.chChan).chan.subs)

/-- R338, R341: CHCLOSE closes its channel and sends its subscribers a close marker with the address that follows; any bundle that a
publisher completes goes to its attached subscribers. -/
def Sys2Proof.Says.ChannelPublication : Prop :=
  (∀ (s : State) (c k : Nat), s.begun → s.me.role = .single → s.me.chState = 1 → s.me.trapped = false → s.myCore.chan.open_ = true →
    s.myCore.chan.tid = s.me.tid → s.myCore.chan.slot = s.cur.slot → s.myCore.chan.joining = [] →
    s.myCore.chan.subs = [(c, k, (s.slot c k).tid)] → (c, k) ≠ (s.cur.core, s.cur.slot) → (s.slot c k).chState = 2 →
    (s.slot c k).wait = .run →
    ∃ t, exec .chclose s = .next t ∧ (t.thread s).chState = 0 ∧ (t.thread s).pc = s.me.pc + 4 ∧ (t.core s.cur.core).chan.open_ = false ∧
      (t.slot c k).chFly = (s.slot c k).chFly ++ [{ word := 0, pc := BitVec.ofNat 64 ((s.me.pc + 4).toNat / 4 * 4), close := true }]) ∧
  (∀ (s : State) (c k : Nat) (d a b : BitVec 6), s.begun → s.me.readyS a → s.me.readyS b → s.me.openS d → s.me.publishes = true →
    s.myCore.chan.subs = [(c, k, (s.slot c k).tid)] → (c, k) ≠ (s.cur.core, s.cur.slot) → (s.slot c k).chState = 2 →
    ∃ t, exec (.add d a b) s = .next t ∧
      (t.slot c k).chFly = (s.slot c k).chFly ++ [{ word := s.cur.word, pc := s.me.pc }])

/-- R343, R346, R347: CHLEAVE.IF with a nonzero register takes a subscriber out of its stream to its label, and reports the departure;
CHRESUB of a departed thread waits to rejoin under its tag, and one that cannot rejoin writes 1. -/
def Sys2Proof.Says.ChannelDepartures : Prop :=
  ∀ (s : State) (a : BitVec 6) (o tag : BitVec 14), s.begun → s.me.role = .single → s.me.readyS a → s.untraced →
    let v := s.me.scalar a
    let label := BitVec.ofInt 64 (s.me.pc.toNat + 4 * o.toInt)
    (v = 0 → s.me.chState ≠ 1 → GoesTo (.chleaveIf a o) s s.me.next.pc) ∧
    (s.me.chState = 1 → GoesTo (.chleaveIf a o) s s.me.next.pc) ∧
    (v ≠ 0 → s.me.chState = 0 → GoesTo (.chleaveIf a o) s label) ∧
    (v ≠ 0 → s.me.inStream = true →
      ∃ t, exec (.chleaveIf a o) s = .next t ∧ (t.thread s).chState = 4 ∧ (t.thread s).pc = label ∧ (t.thread s).chBuf = [] ∧
        (t.thread s).chReports = s.me.chReports ++ [4]) ∧
    (s.me.openS a → s.me.chState = 0 → CompletesS (.chresub a tag) s a 1) ∧
    (s.me.openS a → s.me.chState = 4 → v = BitVec.ofNat 64 s.me.chChan → s.me.chChan < 4096 → (s.core s.me.chChan).chan.open_ = true →
      (s.cur.core, s.cur.slot, s.me.tid) ∈ (s.core s.me.chChan).chan.subs → s.unperformed s.me.tid 4 = false →
      ∃ t, exec (.chresub a tag) s = .next t ∧ (t.thread s).chState = 5 ∧ (t.thread s).chTag = tag.toNat ∧
        (t.thread s).wait = .busy 7 (.chresub a.toNat) ∧ (t.thread s).chReports = s.me.chReports ++ [5])

/-- R347: CHRDV in a publisher is published and waits; it passes once every attached subscriber has executed what precedes it and every
departed one is rejoining, and those that rejoin under its tag are attached again; at its timeout it passes and sets TMO.  In any
other thread it does nothing.  That State.rendezvous waits for the subscribers' accesses too is assumption 37's. -/
def Sys2Proof.Says.Rendezvous : Prop :=
  (∀ (s : State) (tag : BitVec 14), s.begun → s.me.role = .single →
    (s.me.publishes = false → GoesTo (.chrdv tag) s s.me.next.pc) ∧
    (s.me.publishes = true → s.me.rdv = none → s.myCore.chan.subs = [] →
      ∃ t, exec (.chrdv tag) s = .next t ∧ (t.thread s).wait = .park 7 s.epoch ∧ (t.thread s).pc = s.me.pc ∧
        (t.thread s).rdv = some (if s.me.chcfg.toNat % 2 ^ 32 = 0 then none else some (s.time + s.me.chcfg.toNat % 2 ^ 32))) ∧
    (s.me.publishes = true → s.me.rdv ≠ none → s.rendezvous s.cur.core s.me.pc = true → s.myCore.chan.rejoin = [] →
      ∃ t, exec (.chrdv tag) s = .next t ∧ (t.thread s).wait = .run ∧ (t.thread s).pc = s.me.pc + 4 ∧ (t.thread s).rdv = none)) ∧
  (∀ (s : State) (c k d : Nat), (s.slot c k).rdv = some (some d) → d ≤ s.time → (s.slot c k).halted = false → (s.slot c k).chState = 1 →
    (s.core c).chan.rejoin = [] →
    ∃ t, exec (.rendezvousTimeout c k) s = .next t ∧ (t.slot c k).chTmo = true ∧ (t.slot c k).rdv = none ∧ (t.slot c k).wait = .run ∧
      (t.slot c k).pc = (s.slot c k).pc + 4)

/-- R344 to R346: a bundle in transit enters a subscriber's buffer of 32; a hold is raised at 16 waiting bundles and dropped below; a
departure is counted at the publisher; a FIFO that has relocked holds its publisher no more. -/
def Sys2Proof.Says.ChannelTraffic : Prop :=
  ∀ (s : State) (c k : Nat),
    let u := s.slot c k
    let ch := (s.core u.chChan).chan
    (∀ b r, u.chFly = b :: r → u.chState = 2 → u.chBuf.length < 32 → (c, k) ∉ ch.relock →
      ∃ t, exec (.bundleArrival c k) s = .next t ∧ (t.slot c k).chFly = r ∧ (t.slot c k).chBuf = u.chBuf ++ [b]) ∧
    (u.chState = 2 → 16 ≤ u.chBuf.length → u.chHold = false → (c, k, u.tid) ∈ ch.subs →
      ∃ t, exec (.channelHold c k) s = .next t ∧ (t.slot c k).chHold = true ∧ (c, k, u.tid) ∈ (t.core u.chChan).chan.holds) ∧
    (u.chBuf.length < 16 → u.chHold = true →
      ∃ t, exec (.channelHold c k) s = .next t ∧ (t.slot c k).chHold = false ∧ (c, k, u.tid) ∉ (t.core u.chChan).chan.holds) ∧
    (∀ r, u.chReports = 4 :: r → (c, k, u.tid) ∈ ch.subs →
      ∃ t, exec (.departureReport c k) s = .next t ∧ (t.slot c k).chReports = r ∧ (t.core u.chChan).chan.dep = ch.dep + 1) ∧
    (∀ r, u.chReports = 5 :: r → (c, k, u.tid) ∈ ch.subs →
      ∃ t, exec (.departureReport c k) s = .next t ∧ (t.slot c k).chReports = r ∧
        (t.core u.chChan).chan.rejoin = ch.rejoin ++ [(c, k, u.tid, u.chTag)]) ∧
    ((s.die (dieOf c)).stepping = none → (s.die (dieOf u.chChan)).stepping = none →
      ∃ t, exec (.clockCrossingRelock c k) s = .next t ∧ (c, k) ∉ (t.core u.chChan).chan.relock ∧
        ∀ p, p ≠ (c, k) → (p ∈ (t.core u.chChan).chan.relock ↔ p ∈ ch.relock)) ∧
    ((s.die (dieOf c)).stepping.isSome = true ∨ (s.die (dieOf u.chChan)).stepping.isSome = true →
      exec (.clockCrossingRelock c k) s = .next s)

/-! ### Scalar memory -/

/-- R150 to R152, R155: every load computes its address from s[a] and the scaled immediate, sends one access, and leaves s[d] empty and
awaiting its value. -/
def Sys2Proof.Says.LoadSends : Prop :=
  ∀ (s : State) (d a : BitVec 6) (i : BitVec 11) (l : Loc), s.begun → s.free_ → s.me.readyS a → s.me.openS d →
    s.outstanding s.me.tid < 16 →
    let va (n : Nat) : W64 := BitVec.ofInt 64 ((s.me.scalar a).toInt + n * i.toInt)
    let loads (j : Instr) (n : Nat) (signed : Bool) : Prop :=
      s.Reaches (va n) n .load l → s.unwatched (va n) n (.ld signed d.toNat) →
        SendsAwaiting j s (s.access (va n) l n (.ld signed d.toNat) false) d
    loads (.ldB d a i) 1 true ∧ loads (.ldH d a i) 2 true ∧ loads (.ldW d a i) 4 true ∧ loads (.ldD d a i) 8 false ∧
    loads (.ldBu d a i) 1 false ∧ loads (.ldHu d a i) 2 false ∧ loads (.ldWu d a i) 4 false

/-- R150, R151, R153, R155: every store posts one access with the low bytes of s[d], and completes. -/
def Sys2Proof.Says.StorePosts : Prop :=
  ∀ (s : State) (d a : BitVec 6) (i : BitVec 11) (l : Loc), s.begun → s.free_ → s.me.readyS a → s.me.readyS d →
    let va (n : Nat) : W64 := BitVec.ofInt 64 ((s.me.scalar a).toInt + n * i.toInt)
    let stores (j : Instr) (n : Nat) : Prop :=
      let op := FOp.st (BitVec.ofNat 64 ((s.me.scalar d).toNat % 2 ^ (8 * n)))
      s.Reaches (va n) n .store l → s.unwatched (va n) n op → Posts j s (s.access (va n) l n op false)
    stores (.stB d a i) 1 ∧ stores (.stH d a i) 2 ∧ stores (.stW d a i) 4 ∧ stores (.stD d a i) 8

/-- R156, R157, R453: with no access of the thread under way, LDFE, LDFF and STFE send their access and park until the home has performed
it; STFF and FECLR post theirs.  The home must keep full/empty bits. -/
def Sys2Proof.Says.SynchronisingSends : Prop :=
  ∀ (s : State) (d a : BitVec 6) (y : BitVec 3) (w : BitVec 1) (o : BitVec 8) (l : Loc), s.begun → s.idle → s.me.readyS a →
    hasFe l.pa = true →
    let n : Nat := if w = 0 then 4 else 8
    let va : W64 := BitVec.ofInt 64 ((s.me.scalar a).toInt + n * o.toInt)
    let v : W64 := BitVec.ofNat 64 ((s.me.scalar d).toNat % 2 ^ (8 * n))
    (s.me.openS d → s.Reaches va n .atomic l → s.unwatched va n (.ldSync true d.toNat) →
      SendsParked (.ldfe d a y w o) s (s.access va l n (.ldSync true d.toNat) false) 4) ∧
    (s.me.openS d → s.Reaches va n .load l → s.unwatched va n (.ldSync false d.toNat) →
      SendsParked (.ldff d a y w o) s (s.access va l n (.ldSync false d.toNat) false) 4) ∧
    (s.Reaches va n .store l →
      (s.me.readyS d → s.unwatched va n (.stfe v) → SendsParked (.stfe d a y w o) s (s.access va l n (.stfe v) false) 4) ∧
      (s.me.readyS d → s.unwatched va n (.stff v) → Posts (.stff d a y w o) s (s.access va l n (.stff v) false)) ∧
      (s.unwatched va n .feclr → Posts (.feclr a y w o) s (s.access va l n .feclr false)))

/-- R157, R162, R163: every atomic sends one access, which is an acquire unless its scope is `.t`, and leaves s[d] awaiting the old
value; ACAS compares with s[d]. -/
def Sys2Proof.Says.AtomicSends : Prop :=
  ∀ (s : State) (d a b : BitVec 6) (w : BitVec 1) (y : BitVec 3) (l : Loc), s.begun → s.idle → s.me.readyS a → s.me.readyS b →
    s.me.openS d →
    let n : Nat := if w = 0 then 4 else 8
    let va := s.me.scalar a
    let v := s.me.scalar b
    let sends (j : Instr) (n code : Nat) (cmp : W64) : Prop :=
      s.Reaches va n .atomic l → s.unwatched va n (.atom code d.toNat v cmp) →
        SendsAwaiting j s (s.access va l n (.atom code d.toNat v cmp) (y ≠ 0)) d
    sends (.aadd d a b w y) n 0 0 ∧ sends (.aand d a b w y) n 1 0 ∧ sends (.aor d a b w y) n 2 0 ∧ sends (.axor d a b w y) n 3 0 ∧
    sends (.amin d a b w y) n 4 0 ∧ sends (.amax d a b w y) n 5 0 ∧ sends (.aminu d a b w y) n 6 0 ∧ sends (.amaxu d a b w y) n 7 0 ∧
    sends (.aswap d a b w y) n 8 0 ∧ (s.me.readyS d → sends (.acas d a b w y) n 9 (s.me.scalar d)) ∧ sends (.atomicAfadd d a b y) 4 10 0

/-- R164 to R169: FENCE completes once every earlier access in its scope has been performed, and waits until then; BARINIT and BARARR post
their access, BARWAIT parks with its own, and BARRD leaves s[d] awaiting. -/
def Sys2Proof.Says.BarrierSends : Prop :=
  (∀ (s : State) (y : BitVec 3), s.begun →
    (s.unperformed s.me.tid y.toNat = false → GoesTo (.fence y) s s.me.next.pc) ∧
    (s.unperformed s.me.tid y.toNat = true →
      ∃ t, exec (.fence y) s = .next t ∧ OnlyThread s t ∧ t.thread s = { s.me with wait := .park 3 s.epoch })) ∧
  (∀ (s : State) (d a b : BitVec 6) (l : Loc), s.begun → s.idle → s.me.readyS a → s.me.readyS b → isScratch l.pa = true →
    let va := s.me.scalar a
    let v := s.me.scalar b
    (s.Reaches va 16 .store l →
      (v.toNat % 2 ^ 16 ≠ 0 → s.unwatched va 16 (.barinit v) → Posts (.barinit a b) s (s.access va l 16 (.barinit v) false)) ∧
      (s.unwatched va 16 (.bararr (v.toNat % 2 ^ 32)) →
        Posts (.bararr a b) s (s.access va l 16 (.bararr (v.toNat % 2 ^ 32)) false))) ∧
    (s.Reaches va 16 .load l →
      (s.unwatched va 16 (.barwait (v.toNat % 2 ^ 16)) →
        SendsParked (.barwait a b) s (s.access va l 16 (.barwait (v.toNat % 2 ^ 16)) false) 8) ∧
      (s.me.openS d → s.unwatched va 16 (.barrd d.toNat) →
        SendsAwaiting (.barrd d a) s (s.access va l 16 (.barrd d.toNat) false) d)))

/-- R62, R64, R151, R379: the checks of a load or store, in their order: a misaligned address traps with ALIGN, one with a bit above 56
with TRANS, and one in the own-scratchpad window beyond the task's banks with PERM, detail 1; EADDR is the address, and the
instruction has no other effect. -/
def Sys2Proof.Says.AddressTraps : Prop :=
  ∀ (s : State) (d a b : BitVec 6) (i : BitVec 11), s.begun → s.me.evec ≠ 0 → s.untraced → s.me.readyS a →
    let va (n : Nat) : W64 := BitVec.ofInt 64 ((s.me.scalar a).toInt + n * i.toInt)
    let bad (j : Instr) (n : Nat) : Prop :=
      ((va n).toNat % n ≠ 0 → Traps j s 3 (va n) 0) ∧ ((va n).toNat % n = 0 → 2 ^ 57 ≤ (va n).toNat → Traps j s 4 (va n) 0) ∧
      ((va n).toNat % n = 0 → (va n).toNat < 0x80000 →
        (s.taskOf s.cur.core s.me.task).banks.length ≤ (va n).toNat / 4096 → Traps j s 5 (va n) 0x100)
    (s.me.openS d → bad (.ldH d a i) 2 ∧ bad (.ldW d a i) 4 ∧ bad (.ldD d a i) 8 ∧ bad (.ldHu d a i) 2 ∧ bad (.ldWu d a i) 4 ∧
      bad (.ldB d a i) 1 ∧ bad (.ldBu d a i) 1) ∧
    (s.me.readyS b → bad (.stH b a i) 2 ∧ bad (.stW b a i) 4 ∧ bad (.stD b a i) 8 ∧ bad (.stB b a i) 1)

/-- R137, R152, R155, R175: a load at its home answers with its bytes, extended; a store or STFF writes its bytes, marks their words full
where the home has such bits, and is done; no other byte changes. -/
def Sys2Proof.Says.LoadsAndStoresPerform : Prop :=
  ∀ (s : State) (n : Nat) (f : Flight), s.Due n f →
    (∀ signed d, f.op = .ld signed d → f.size = 1 ∨ f.size = 2 ∨ f.size = 4 ∨ f.size = 8 →
      let x : BitVec (8 * f.size) := BitVec.ofNat (8 * f.size) (s.loadN f.pa f.size)
      ∃ t, exec (.accessPerform n) s = .next t ∧ t.mem = s.mem ∧ t.empty = s.empty ∧
        Answered s t f (if signed then x.signExtend 64 else x.setWidth 64) 0) ∧
    (∀ v, f.op = .st v ∨ f.op = .stff v → s.discards f.core f.topinf f.pa = false → f.size ≠ 0 →
      ∃ t, exec (.accessPerform n) s = .next t ∧ Stored s t f.pa f.size v.toNat ∧ t.flights = s.flights.filter (fun g => g.id != n) ∧
        (hasFe f.pa = true → ∀ w, f.pa / 4 ≤ w → w ≤ (f.pa + f.size - 1) / 4 → t.fullAt (4 * w) = true) ∧
        ∀ w, w < f.pa / 4 ∨ (f.pa + f.size - 1) / 4 < w → t.fullAt (4 * w) = s.fullAt (4 * w)) ∧
    (∀ v, f.op = .st v → s.discards f.core f.topinf f.pa = true →
      ∃ t, exec (.accessPerform n) s = .next t ∧ t.mem = s.mem ∧ t.empty = s.empty ∧ t.flights = s.flights.filter (fun g => g.id != n))

/-- R156: LDFE and LDFF take full words, which LDFE leaves empty; STFE fills empty words; FECLR leaves its words empty; a synchronising
access whose words are not in the state that it waits for, STFE at a word that is still full among them, takes its place in the wait
list. -/
def Sys2Proof.Says.SynchronisingPerform : Prop :=
  ∀ (s : State) (n : Nat) (f : Flight), s.Due n f → f.size = 4 ∨ f.size = 8 → f.pa % f.size = 0 →
    let words (w : Nat) : Prop := f.pa / 4 ≤ w ∧ w < (f.pa + f.size) / 4
    let kept (t : State) : Prop := ∀ w, ¬ words w → t.fullAt (4 * w) = s.fullAt (4 * w)
    (∀ take d, f.op = .ldSync take d →
      ((∀ w, words w → s.fullAt (4 * w) = true) →
        let x : BitVec (8 * f.size) := BitVec.ofNat (8 * f.size) (s.loadN f.pa f.size)
        ∃ t, exec (.accessPerform n) s = .next t ∧ t.mem = s.mem ∧ Answered s t f (x.signExtend 64) 0 ∧ kept t ∧
          ∀ w, words w → t.fullAt (4 * w) = !take) ∧
      ((∃ w, words w ∧ s.fullAt (4 * w) = false) →
        ∃ t o, exec (.accessPerform n) s = .next t ∧ t.mem = s.mem ∧ t.empty = s.empty ∧
          t.flights = s.flights.map (fun g => if g.id = f.id then { f with stage := .waiting o false } else g))) ∧
    (∀ v, f.op = .stfe v → s.discards f.core f.topinf f.pa = false →
      ((∀ w, words w → s.fullAt (4 * w) = false) → hasFe f.pa = true →
        ∃ t, exec (.accessPerform n) s = .next t ∧ Stored s t f.pa f.size v.toNat ∧ Answered s t f 0 0 ∧ kept t ∧
          ∀ w, words w → t.fullAt (4 * w) = true)) ∧
    (∀ v, f.op = .stfe v → (∃ w, words w ∧ s.fullAt (4 * w) = true) →
      ∃ t o, exec (.accessPerform n) s = .next t ∧ t.mem = s.mem ∧ t.empty = s.empty ∧
        t.flights = s.flights.map (fun g => if g.id = f.id then { f with stage := .waiting o false } else g)) ∧
    (f.op = .feclr →
      ∃ t, exec (.accessPerform n) s = .next t ∧ t.mem = s.mem ∧ t.flights = s.flights.filter (fun g => g.id != n) ∧ kept t ∧
        ∀ w, words w → t.fullAt (4 * w) = false)

/-- R158, R159: the step that changes a word's state runs its wake chain: afterwards no access that waits on the word has its state,
and none elsewhere has come to have it and been left.  Of two waiting loads of a word that a store fills, the one that parked first
is served first; the second is served too where the first was an LDFF, and waits on where it was an LDFE. -/
def Sys2Proof.Says.WakeChains : Prop :=
  ∀ (s : State) (n : Nat) (f : Flight), s.Turn n f → f.size = 4 ∨ f.size = 8 → f.pa % f.size = 0 →
    ((∃ v, f.op = .st v ∨ f.op = .stff v) ∨ f.op = .feclr) → s.discards f.core f.topinf f.pa = false →
    (∀ g, g ∈ s.flights → g.order ≠ none → g.op.waits ∧ ∀ p, g.op = .barwait p → g.size = 16) →
    (∃ t, exec (.accessPerform n) s = .next t ∧
      ∀ g, g ∈ t.flights → g.order ≠ none → t.feReady g = true →
        s.feReady g = true ∧ ∀ w, w ∈ g.words → ¬ (f.pa / 4 ≤ w ∧ w < (f.pa + f.size) / 4)) ∧
    (∀ (v : W64) (a b : Flight) (k l d e : Nat) (take keeps : Bool), f.op = .stff v → f.size = 4 → hasFe f.pa = true →
      a ∈ s.flights → b ∈ s.flights → a.id ≠ n → b.id ≠ n → a.id ≠ b.id → a.pa = f.pa → b.pa = f.pa → a.size = 4 → b.size = 4 →
      a.op = .ldSync take d → b.op = .ldSync keeps e → a.stage = .waiting k false → b.stage = .waiting l false → k < l →
      (∀ g, g ∈ s.flights → g.order ≠ none → g = a ∨ g = b) →
      let x := (v.extractLsb' 0 32).signExtend 64
      ∃ t, exec (.accessPerform n) s = .next t ∧
        t.flights = (s.flights.filter fun g => g.id != n).map (fun g =>
          if g.id = a.id then { a with stage := .returning x 0 false }
          else if g.id = b.id ∧ take = false then { b with stage := .returning x 0 false } else g) ∧
        t.fullAt f.pa = (!take && !keeps))

/-- R162: an atomic of codes 0 to 9 replaces its word or doubleword in one step, where it writes, and answers with the old value,
sign-extended. -/
def Sys2Proof.Says.AtomicsPerform : Prop :=
  ∀ (s : State) (n code d : Nat) (f : Flight) (b c : W64), s.Due n f → f.op = .atom code d b c → code ≤ 9 → f.size = 4 ∨ f.size = 8 →
    s.discards f.core f.topinf f.pa = false →
    let m : BitVec (8 * f.size) := BitVec.ofNat (8 * f.size) (s.loadN f.pa f.size)
    ∃ t, exec (.accessPerform n) s = .next t ∧ Answered s t f (m.signExtend 64) 0 ∧ t.empty = s.empty ∧
      match atomic code m (b.setWidth (8 * f.size)) (c.setWidth (8 * f.size)) with
      | some x => Stored s t f.pa f.size x.toNat
      | none => t.mem = s.mem

/-- R128 to R130, R166 to R169: BARINIT writes the object; an arrival counts its bytes and itself, and the one that completes the phase
advances it and restores the counts, whatever the sender's TOPINF (assumption 65); BARWAIT passes once the phase has; BARRD reads. -/
def Sys2Proof.Says.BarriersPerform : Prop :=
  ∀ (s : State) (n : Nat) (f : Flight), s.Due n f → f.size = 16 →
    let o := s.barrier f.pa
    (∀ v, f.op = .barinit v → s.discards f.core f.topinf f.pa = false →
      ∃ t, exec (.accessPerform n) s = .next t ∧
        t.barrier f.pa = ⟨v.toNat / 2 ^ 16 % 2 ^ 16, v.toNat % 2 ^ 16, 0, 0, v.toNat / 2 ^ 32, v.toNat / 2 ^ 32⟩ ∧
        ∀ a, a < f.pa ∨ f.pa + 16 ≤ a → readByte t.mem a = readByte s.mem a) ∧
    (∀ k, f.op = .bararr k → k ≤ o.pend → o.arrived < 65535 →
      ∃ t, exec (.accessPerform n) s = .next t ∧
        (∀ a, a < f.pa ∨ f.pa + 16 ≤ a → readByte t.mem a = readByte s.mem a) ∧
        (o.arrived + 1 ≠ o.expect → t.barrier f.pa = { o with arrived := o.arrived + 1, pend := o.pend - k }) ∧
        (o.arrived + 1 = o.expect → (t.barrier f.pa).phase = (o.phase + 1) % 65536 ∧ (t.barrier f.pa).arrived = 0 ∧
          (t.barrier f.pa).pend = o.ebytes ∧ ((t.barrier f.pa).flags % 2 = 0 ↔ o.pend = k))) ∧
    (∀ ph, f.op = .barwait ph → phasePassed o.phase ph = true →
      ∃ t, exec (.accessPerform n) s = .next t ∧ t.mem = s.mem ∧ Answered s t f 0 0) ∧
    (∀ ph, f.op = .barwait ph → phasePassed o.phase ph = false →
      ∃ t k, exec (.accessPerform n) s = .next t ∧ t.mem = s.mem ∧
        t.flights = s.flights.map (fun g => if g.id = f.id then { f with stage := .waiting k false } else g)) ∧
    (∀ d, f.op = .barrd d →
      ∃ t, exec (.accessPerform n) s = .next t ∧ t.mem = s.mem ∧
        Answered s t f (BitVec.ofNat 64 (o.phase + o.arrived * 2 ^ 16 + o.pend * 2 ^ 32)) 0)

/-- R152, R163, R250, R329, R453: a value that returns is written to the thread's register, which is full and awaits nothing more, an
AFADD's flags with it; an element of a vector load is written to its lane, and the last one leaves the register full; a value
completes a synchronising load that its thread waits in; a store that a thread waits in completes. -/
def Sys2Proof.Says.ValuesReturn : Prop :=
  ∀ (s : State) (n : Nat) (f : Flight) (v : W64) (fl : Flags), s.flights.find? (fun g => g.id == n) = some f →
    f.stage = .returning v fl false → (s.slot f.core f.slot).live = true → (s.slot f.core f.slot).tid = f.tid →
    (s.slot f.core f.slot).role = .single →
    let u := s.slot f.core f.slot
    let r := s.by_ f.core f.slot
    (∀ (signed : Bool) (d : BitVec 6), f.op = .ld signed d.toNat ∨ f.op = .barrd d.toNat → u.isPort d.toNat = false →
      ∃ t, exec (.loadValueReturn n) s = .next t ∧ HoldsS r t d v ∧ bitAt (t.thread r).sAwait d.toNat = false ∧
        (t.thread r).pc = u.pc ∧ (t.thread r).wait = u.wait ∧ t.flights = s.flights.filter (fun g => g.id != n) ∧ t.mem = s.mem) ∧
    (∀ (code : Nat) (d : BitVec 6) (b c : W64), f.op = .atom code d.toNat b c → u.isPort d.toNat = false →
      ∃ t, exec (.loadValueReturn n) s = .next t ∧ HoldsS r t d v ∧ bitAt (t.thread r).sAwait d.toNat = false ∧
        (t.thread r).fstat = u.fstat ||| w64 fl.toNat ∧ (t.thread r).pc = u.pc ∧ (t.thread r).wait = u.wait ∧
        t.flights = s.flights.filter (fun g => g.id != n) ∧ t.mem = s.mem) ∧
    (∀ (d : BitVec 5) (i : Nat), f.op = .vld d.toNat i → i < 16 →
      let last := ∀ g, g ∈ s.flights → g.id ≠ f.id → g.tid = f.tid → ∀ j, g.op ≠ .vld d.toNat j
      ∃ t, exec (.loadValueReturn n) s = .next t ∧ Counted (fun x => { x with flights := [] }) r t ∧
        t.flights = s.flights.filter (fun g => g.id != n) ∧
        (∀ (m : BitVec 5) (j : Nat), j < 16 → (t.thread r).lane m.toNat j = if m = d ∧ j = i then v.extractLsb' 0 32 else u.lane m.toNat j) ∧
        (last → bitAt (t.thread r).vFull d.toNat = true ∧ bitAt (t.thread r).vAwait d.toNat = false) ∧
        (¬ last → (t.thread r).vFull = u.vFull ∧ (t.thread r).vAwait = u.vAwait) ∧ (t.thread r).pc = u.pc ∧ (t.thread r).wait = u.wait) ∧
    (∀ (take : Bool) (d : BitVec 6), f.op = .ldSync take d.toNat → u.isPort d.toNat = false → u.wait = .busy 4 (.access f.id) →
      ∃ t, exec (.loadValueReturn n) s = .next t ∧ HoldsS r t d v ∧ (t.thread r).pc = u.next.pc ∧ (t.thread r).wait = .run) ∧
    (∀ x code, f.op = .stfe x ∨ f.op = .barwait code → u.wait = .busy code (.access f.id) →
      ∃ t, exec (.loadValueReturn n) s = .next t ∧ (t.thread r).pc = u.next.pc ∧ (t.thread r).wait = .run ∧ (t.thread r).sr = u.sr)

/-- R141: a read of SPTAG answers with a line's presence and full bits, and a write sets its full bits. -/
def Sys2Proof.Says.TagsPerform : Prop :=
  ∀ (s : State) (n : Nat) (f : Flight), s.Due n f → f.pa % 64 = 0 →
    (∀ d, f.op = .sptagRead d →
      ∃ t v, exec (.sptagRead n) s = .next t ∧ Answered s t f v 0 ∧ t.mem = s.mem ∧ t.empty = s.empty ∧
        v.getLsbD 16 = s.present f.pa ∧ ∀ i, i < 16 → v.getLsbD i = s.fullAt (f.pa + 4 * i)) ∧
    (∀ v, f.op = .sptagWrite v →
      ∃ t, exec (.sptagWrite n) s = .next t ∧ Answered s t f 0 0 ∧ t.mem = s.mem ∧
        (∀ i, i < 16 → t.fullAt (f.pa + 4 * i) = v.getLsbD i) ∧
        ∀ w, w < f.pa / 4 ∨ f.pa / 4 + 16 ≤ w → t.fullAt (4 * w) = s.fullAt (4 * w))

/-! ### Batches and mailboxes -/

/-- R126, R170, R171: BSEAL seals the open batch, which is finished at once when it and the earlier ones hold nothing, and waits while 64
sealed ones are unfinished; BWAIT waits while more than s[a] sealed batches are unfinished. -/
def Sys2Proof.Says.BatchResults : Prop :=
  ∀ (s : State) (a : BitVec 6), s.begun →
    let b := s.me.bat
    let open_ := b.openN - b.done
    let parks (i : Instr) (code : Nat) : Prop :=
      ∃ t, exec i s = .next t ∧ OnlyThread s t ∧ t.thread s = { s.me with wait := .park code s.epoch }
    (open_.toNat < 64 → ∃ t, exec .bseal s = .next t ∧ Went s t s.me.next.pc (fun x => { x with bat := {} }) ∧
      (t.thread s).bat.openN = b.openN + 1 ∧ (b.counts = [] → (t.thread s).bat.done = b.openN + 1) ∧
      (look 0 b.counts b.done.toNat ≠ 0 → (t.thread s).bat.done = b.done)) ∧
    (64 ≤ open_.toNat → parks .bseal 8) ∧
    (s.me.readyS a → open_.toNat ≤ (s.me.scalar a).toNat ∨ 64 ≤ (s.me.scalar a).toNat → GoesTo (.bwait a) s s.me.next.pc) ∧
    (s.me.readyS a → (s.me.scalar a).toNat < 64 → (s.me.scalar a).toNat < open_.toNat → parks (.bwait a) 8)

/-- R110, R111, R172, R173: MBSEND to an empty mailbox fills it with eight registers and the sender's stamp, and counts the request into
its open batch; MBTAKE in slot 15 takes a mail's words and opens its request. -/
def Sys2Proof.Says.MailResults : Prop :=
  ∀ (s : State) (m : BitVec 3) (a : BitVec 6), s.begun → s.idle → s.me.live = true → a.toNat + 8 ≤ 60 →
    let c := s.cur.core
    let x := s.myCore
    ((∀ i, i < 8 → s.me.readyS (a + BitVec.ofNat 6 i)) → (look {} x.mail m.toNat).full = false → x.mailWait = [] →
      ∃ t, exec (.mbsend m a) s = .next t ∧ (t.thread s).pc = s.me.next.pc ∧ (t.thread s).wait = .run ∧
        look {} (t.core c).mail m.toNat =
          { full := true, words := (List.range 8).map (fun i => s.me.scalar (a + BitVec.ofNat 6 i)), slot := s.cur.slot, tid := s.me.tid,
            privS := s.me.privS, batch := s.me.bat.openN } ∧
        look 0 (t.thread s).bat.counts s.me.bat.openN.toNat = look 0 s.me.bat.counts s.me.bat.openN.toNat + 1) ∧
    (s.cur.slot = 15 → (∀ i, i < 8 → s.me.openS (a + BitVec.ofNat 6 i)) → (look {} x.mail m.toNat).full = true → 0 < a.toNat →
      x.slreq.open_ = false →
      let q := look {} x.mail m.toNat
      ∃ t, exec (.mbtake a m) s = .next t ∧ (t.thread s).pc = s.me.next.pc ∧ (t.thread s).wait = .run ∧
        (∀ i, i < 8 → (t.thread s).scalar (a + BitVec.ofNat 6 i) = q.words.getD i 0) ∧
        (look {} (t.core c).mail m.toNat).full = false ∧
        (t.core c).slreq = { slot := q.slot, tid := q.tid, open_ := true, batch := q.batch, privS := q.privS })


/-! ### Vector instructions -/

/-- R240, R242: every integer instruction writes the lanes of E = (A ∪ H) ∩ P of v[d], modulo 2^32 or saturated, and leaves the other lanes;
a compare writes the bits of E and clears the others. -/
def Sys2Proof.Says.VectorIntegers : Prop :=
  ∀ (s : State) (d a b : BitVec 5) (q k : BitVec 3), s.begun → s.me.readyV a → s.me.readyV b → s.me.openV d →
    let e := (s.me.act ||| s.me.hlp) &&& (if k = 0 then 0xFFFF else look 0 s.me.kr k.toNat)
    let x (i : Nat) : W32 := s.me.lane a.toNat i
    let y (i : Nat) : W32 := s.me.lane b.toNat i
    let sh (i : Nat) : Nat := (y i).toNat % 32
    let signed (z : Int) : W32 := BitVec.ofInt 32 (Max.max (-2 ^ 31) (Min.min (2 ^ 31 - 1) z))
    let unsigned (z : Int) : W32 := BitVec.ofInt 32 (Max.max 0 (Min.min (2 ^ 32 - 1) z))
    CompletesV (.vadd d a b k) s d e (fun i => x i + y i) ∧
    CompletesV (.vsub d a b k) s d e (fun i => x i - y i) ∧
    CompletesV (.vmul d a b k) s d e (fun i => BitVec.ofNat 32 ((x i).toNat * (y i).toNat)) ∧
    CompletesV (.vmulh d a b k) s d e (fun i => BitVec.ofInt 32 ((x i).toInt * (y i).toInt / 2 ^ 32)) ∧
    CompletesV (.vmulhu d a b k) s d e (fun i => BitVec.ofNat 32 ((x i).toNat * (y i).toNat / 2 ^ 32)) ∧
    CompletesV (.vand d a b k) s d e (fun i => x i &&& y i) ∧
    CompletesV (.vor d a b k) s d e (fun i => x i ||| y i) ∧
    CompletesV (.vxor d a b k) s d e (fun i => x i ^^^ y i) ∧
    CompletesV (.vandn d a b k) s d e (fun i => x i &&& ~~~ y i) ∧
    CompletesV (.vsll d a b k) s d e (fun i => BitVec.ofNat 32 ((x i).toNat * 2 ^ sh i)) ∧
    CompletesV (.vsrl d a b k) s d e (fun i => BitVec.ofNat 32 ((x i).toNat / 2 ^ sh i)) ∧
    CompletesV (.vsra d a b k) s d e (fun i => BitVec.ofInt 32 ((x i).toInt / 2 ^ sh i)) ∧
    CompletesV (.vmin d a b k) s d e (fun i => BitVec.ofInt 32 (Min.min (x i).toInt (y i).toInt)) ∧
    CompletesV (.vmax d a b k) s d e (fun i => BitVec.ofInt 32 (Max.max (x i).toInt (y i).toInt)) ∧
    CompletesV (.vminu d a b k) s d e (fun i => BitVec.ofNat 32 (Min.min (x i).toNat (y i).toNat)) ∧
    CompletesV (.vmaxu d a b k) s d e (fun i => BitVec.ofNat 32 (Max.max (x i).toNat (y i).toNat)) ∧
    CompletesV (.vadds d a b k) s d e (fun i => signed ((x i).toInt + (y i).toInt)) ∧
    CompletesV (.vsubs d a b k) s d e (fun i => signed ((x i).toInt - (y i).toInt)) ∧
    CompletesV (.vaddsu d a b k) s d e (fun i => unsigned ((x i).toNat + (y i).toNat)) ∧
    CompletesV (.vsubsu d a b k) s d e (fun i => unsigned ((x i).toNat - (y i).toNat)) ∧
    CompletesV (.vabs d a k) s d e (fun i => BitVec.ofNat 32 (x i).toInt.natAbs) ∧
    CompletesV (.vclz d a k) s d e (fun i => (x i).clz) ∧
    CompletesV (.vpopc d a k) s d e (fun i => BitVec.ofNat 32 ((List.range 32).countP fun j => (x i).getLsbD j)) ∧
    CompletesK (.vceq q a b k) s q (fun i => bitAt e i && decide (x i = y i)) ∧
    CompletesK (.vclt q a b k) s q (fun i => bitAt e i && decide ((x i).toInt < (y i).toInt)) ∧
    CompletesK (.vcltu q a b k) s q (fun i => bitAt e i && decide ((x i).toNat < (y i).toNat))

/-- R240, R243, R245: every FP32 instruction and conversion that completes at once writes the lanes of E by its lane function, under the
thread's RM and FTZ, and raises the flags of the lanes of E_L = A ∩ P only; VFABS and VFNEG move bits and raise none. -/
def Sys2Proof.Says.VectorFloats : Prop :=
  ∀ (s : State) (d a b : BitVec 5) (q k f g : BitVec 3), s.begun → s.me.readyV a → s.me.readyV b → s.me.openV d →
    let p : W16 := if k = 0 then 0xFFFF else look 0 s.me.kr k.toNat
    let e := (s.me.act ||| s.me.hlp) &&& p
    let live := s.me.act &&& p
    let rm := s.me.rm
    let z := s.me.ftz
    let n (v : BitVec 5) (i : Nat) : Nat := (s.me.lane v.toNat i).toNat
    let two (j : Instr) (h : Nat → Nat → Nat × Flags) : Prop :=
      CompletesF j s d e (fun i => BitVec.ofNat 32 (h (n a i) (n b i)).1) (laneFlags live fun i => (h (n a i) (n b i)).2)
    let compare (j : Instr) (h : Nat → Nat → Bool × Flags) : Prop :=
      CompletesKF j s q (fun i => bitAt e i && (h (n a i) (n b i)).1) (laneFlags live fun i => (h (n a i) (n b i)).2)
    let fused (j : Instr) (negP negC : Bool) : Prop :=
      let h (i : Nat) := ffma rm z negP negC (n a i) (n b i) (n d i)
      CompletesF j s d e (fun i => BitVec.ofNat 32 (h i).1) (laneFlags live fun i => (h i).2)
    two (.vfadd d a b k) (fadd rm z) ∧ two (.vfsub d a b k) (fsub rm z) ∧ two (.vfmul d a b k) (fmul rm z) ∧
    two (.vfmin d a b k) (fpick false z) ∧ two (.vfmax d a b k) (fpick true z) ∧
    (s.me.readyV d → fused (.vfma d a b k) false false ∧ fused (.vfms d a b k) false true ∧ fused (.vfnma d a b k) true false) ∧
    CompletesV (.vfabs d a k) s d e (fun i => s.me.lane a.toNat i &&& 0x7FFFFFFF) ∧
    CompletesV (.vfneg d a k) s d e (fun i => s.me.lane a.toNat i ^^^ 0x80000000) ∧
    compare (.vfceq q a b k) (fcompare false (fun c => c == 0) z) ∧
    compare (.vfclt q a b k) (fcompare true (fun c => decide (c < 0)) z) ∧
    compare (.vfcle q a b k) (fcompare true (fun c => decide (c ≤ 0)) z) ∧
    compare (.vfcun q a b k) (funordered z) ∧
    (let h (i : Nat) := cvtLane f.toNat g.toNat rm z s.myCore.topinf (n a i)
     CompletesF (.vcvt d a k f g) s d e (fun i => BitVec.ofNat 32 (h i).1) (laneFlags live fun i => (h i).2))

/-- R227, R241, R244: VFDIV, VFSQRT and the functions park their thread with reason register and change nothing yet; the completion writes
the lanes of E, raises the flags of the lanes of E_L and lets the thread go on.  The lane results of the seven functions are funLane's, the
choice of assumption 13 within the error that FunctionBounds states. -/
def Sys2Proof.Says.VectorFunctions : Prop :=
  (∀ (s : State) (d a b : BitVec 5) (k : BitVec 3), s.begun → s.me.readyV a → s.me.readyV b → s.me.openV d →
    let p : W16 := if k = 0 then 0xFFFF else look 0 s.me.kr k.toNat
    let e := (s.me.act ||| s.me.hlp) &&& p
    let live := s.me.act &&& p
    let rm := s.me.rm
    let z := s.me.ftz
    let n (v : BitVec 5) (i : Nat) : Nat := (s.me.lane v.toNat i).toNat
    let parks (j : Instr) (h : Nat → Nat × Flags) : Prop :=
      ∃ l : Map W32, Begins j s 3 (.vdivide d.toNat l (laneFlags live fun i => (h i).2)) ∧ l.map (·.1) = lanesOf e ∧
        ∀ i, bitAt e i = true → i < 16 → find l i = some (BitVec.ofNat 32 (h i).1)
    parks (.vfdiv d a b k) (fun i => fdiv rm z (n a i) (n b i)) ∧
    parks (.vfsqrt d a k) (fun i => fsqrt rm z (n a i)) ∧
    parks (.vfrsq d a k) (fun i => funLane 1 z (n a i)) ∧
    parks (.vfrcp d a k) (fun i => funLane 2 z (n a i)) ∧
    parks (.vfexp2 d a k) (fun i => funLane 3 z (n a i)) ∧
    parks (.vflog2 d a k) (fun i => funLane 4 z (n a i)) ∧
    parks (.vfsin d a k) (fun i => funLane 5 z (n a i)) ∧
    parks (.vfcos d a k) (fun i => funLane 6 z (n a i)) ∧
    parks (.vftanh d a k) (fun i => funLane 7 z (n a i))) ∧
  (∀ (s : State) (c m code : Nat) (d : BitVec 5) (e : W16) (l : Map W32) (fl : Flags),
    (s.slot c m).wait = .busy code (.vdivide d.toNat l fl) → (s.slot c m).pops = [] → s.noLanding c m → l.map (·.1) = lanesOf e →
    let r := s.by_ c m
    ∃ t, exec (.divideComplete c m) s = .next t ∧ Beyond whole (fun x => { x with pmc := [] }) r t ∧
      Passed r t r.me.next.pc (fun x => { noV x with fstat := 0 }) ∧ HoldsV r t d e (fun i => look 0 l i) ∧
      (t.thread r).fstat = r.me.fstat ||| w64 fl.toNat)

/-- R83, R103, R243, R244: a NaN operand gives the canonical NaN, with NV when it signals; infinities and zeros are divided as the manual
says; VFMIN and VFMAX pass over a quiet NaN; and each special operand of a function has its exact result and its flag. -/
def Sys2Proof.Says.FloatSpecials : Prop :=
  let q : Nat := 0x7FC00000
  let inf : Nat := 0x7F800000
  let minus : Nat := 0x80000000
  (∀ (rm : Rm) (z : Bool) (x y : W32), isNan x = true ∨ isNan y = true →
    let fl : Flags := if isSignalling x ∨ isSignalling y then fNV else 0
    fadd rm z x.toNat y.toNat = (q, fl) ∧ fsub rm z x.toNat y.toNat = (q, fl) ∧ fmul rm z x.toNat y.toNat = (q, fl) ∧
    fdiv rm z x.toNat y.toNat = (q, fl)) ∧
  (∀ (big z : Bool) (x y : W32), isNan x = true → isNan y = true →
    fpick big z x.toNat y.toNat = (q, if isSignalling x ∨ isSignalling y then fNV else 0)) ∧
  (∀ (big : Bool) (x y : W32), isNan x = true → isNan y = false →
    fpick big false x.toNat y.toNat = (y.toNat, if isSignalling x then fNV else 0) ∧
    fpick big false y.toNat x.toNat = (y.toNat, if isSignalling x then fNV else 0)) ∧
  (∀ (fn : Nat) (z : Bool) (x : W32), 1 ≤ fn → fn ≤ 7 → isNan x = true →
    funLane fn z x.toNat = (q, if isSignalling x then fNV else 0)) ∧
  (∀ (rm : Rm) (z : Bool),
    fdiv rm z 0x3F800000 0 = (inf, fDZ) ∧ fdiv rm z 0x3F800000 minus = (minus + inf, fDZ) ∧ fdiv rm z 0 0 = (q, fNV) ∧
    fsub rm z inf inf = (q, fNV) ∧ fmul rm z 0 inf = (q, fNV) ∧
    (∀ c : W32, isNan c = true → ffma rm z false false 0 inf c.toNat = (q, fNV)) ∧
    fsqrt rm z minus = (minus, 0) ∧ fsqrt rm z inf = (inf, 0) ∧ fsqrt rm z 0xBF800000 = (q, fNV) ∧
    fsqrt rm z 0x40000000 = (if rm = .rup then 0x3FB504F4 else 0x3FB504F3, fNX)) ∧
  (∀ z : Bool,
    funLane 1 z 0 = (inf, fDZ) ∧ funLane 1 z minus = (minus + inf, fDZ) ∧ funLane 1 z inf = (0, 0) ∧ funLane 1 z 0xBF800000 = (q, fNV) ∧
    funLane 2 z 0 = (inf, fDZ) ∧ funLane 2 z inf = (0, 0) ∧ funLane 2 z (minus + inf) = (minus, 0) ∧
    funLane 3 z (minus + inf) = (0, 0) ∧ funLane 3 z inf = (inf, fOF ||| fNX) ∧ funLane 4 z 0 = (minus + inf, fDZ) ∧ funLane 4 z inf = (inf, 0) ∧
    funLane 5 z 0 = (0, 0) ∧ funLane 5 z minus = (minus, 0) ∧ funLane 5 z inf = (q, fNV) ∧ funLane 5 z (minus + inf) = (q, fNV) ∧
    funLane 6 z 0 = (0x3F800000, 0) ∧ funLane 6 z minus = (0x3F800000, 0) ∧ funLane 6 z inf = (q, fNV) ∧ funLane 6 z (minus + inf) = (q, fNV) ∧
    funLane 7 z 0 = (0, 0) ∧ funLane 7 z minus = (minus, 0) ∧ funLane 7 z inf = (0x3F800000, 0) ∧ funLane 7 z (minus + inf) = (0xBF800000, 0)) ∧
  (∀ (z : Bool) (x : W32), isFinite x →
    (units x < 0 → (z = true → units x ≤ -2 ^ 23) → funLane 1 z x.toNat = (q, fNV) ∧ funLane 4 z x.toNat = (q, fNV)) ∧
    (128 * 2 ^ 149 ≤ units x → funLane 3 z x.toNat = (inf, fOF ||| fNX)) ∧
    (9 * 2 ^ 149 ≤ units x → funLane 7 z x.toNat = (0x3F800000, 0)) ∧ (units x ≤ -(9 * 2 ^ 149) → funLane 7 z x.toNat = (0xBF800000, 0))) ∧
  (∀ (z : Bool) (x : W32) (i : Int), isFinite x → units x = i * 2 ^ 149 →
    (-126 ≤ i → i ≤ 127 → funLane 3 z x.toNat = ((i + 127).toNat * 2 ^ 23, 0)) ∧
    (-149 ≤ i → i < -126 → funLane 3 z x.toNat = if z then (0, fUF ||| fNX) else (2 ^ (i + 149).toNat, 0))) ∧
  (∀ (z : Bool) (x : W32) (k : Nat), isFinite x → units x = 2 ^ k → (z = true → 23 ≤ k) →
    let r := funLane 4 z x.toNat
    isFinite (BitVec.ofNat 32 r.1) ∧ units (BitVec.ofNat 32 r.1) = ((k : Int) - 149) * 2 ^ 149 ∧ r.2 = 0)

/-- R103, R104, R244: at every finite operand the result of a function lies within R244's error of the exact value, in the spacing of FP32
values at the exact result's magnitude or absolutely, and a result that no special row names raises NX alone; VFRCP of a magnitude above
2^126 is a subnormal or zero with UF.  Under FTZ the operand is read flushed, and the result flushed.  The result's bits are Config.vfun where
they lie within the error, which is assumption 13's choice, and so is VFRCP's overflow at or below 2^-128. -/
def Sys2Proof.Says.FunctionBounds : Prop :=
  ∀ x : W32, isFinite x →
    let v : ℝ := units x / 2 ^ 149
    let lane (fn : Nat) : Nat × Flags := funLane fn false x.toNat
    let bits (fn : Nat) : W32 := BitVec.ofNat 32 (lane fn).1
    let out (fn : Nat) : ℝ := units (bits fn) / 2 ^ 149
    let ulp (r : ℝ) : ℝ := Max.max ((2 : ℝ) ^ (-149 : ℤ)) ((2 : ℝ) ^ (Int.log 2 |r| - 23))
    let within (fn : Nat) (exact bound : ℝ) : Prop := (lane fn).1 < 2 ^ 32 ∧ isFinite (bits fn) ∧ |out fn - exact| ≤ bound
    let flushed (y : Nat) : Nat := if y / 2 ^ 23 % 256 = 0 then y / 2 ^ 31 * 2 ^ 31 else y
    let root : ℝ := 1 / Real.sqrt v
    let power : ℝ := (2 : ℝ) ^ v
    (0 < v → within 1 root (2 * ulp root) ∧ (lane 1).2 = fNX) ∧
    ((2 : ℝ) ^ (-128 : ℤ) < |v| → within 2 (1 / v) (ulp (1 / v)) ∧
      (|v| ≤ 2 ^ 126 → (lane 2).2 = fNX) ∧ (2 ^ 126 < |v| → (lane 2).2 = fUF ∧ (lane 2).1 / 2 ^ 23 % 256 = 0)) ∧
    (v ≠ 0 → |v| ≤ (2 : ℝ) ^ (-128 : ℤ) → lane 2 = (if 0 < v then 0x7F800000 else 0xFF800000, fOF ||| fNX)) ∧
    (v < 128 → within 3 power (2 * ulp power) ∧ ((∀ i : ℤ, -149 ≤ i → v ≠ i) → (lane 3).2 = fNX)) ∧
    (0 < v → within 4 (Real.logb 2 v) (if 3 / 4 ≤ v ∧ v ≤ 3 / 2 then (2 : ℝ) ^ (-22 : ℤ) else 2 * ulp (Real.logb 2 v)) ∧
      ((∀ n : ℤ, v ≠ (2 : ℝ) ^ n) → (lane 4).2 = fNX)) ∧
    (|v| ≤ 2 ^ 16 → within 5 (Real.sin v) ((2 : ℝ) ^ (-21 : ℤ)) ∧ within 6 (Real.cos v) ((2 : ℝ) ^ (-21 : ℤ))) ∧
    (2 ^ 16 < |v| → within 5 0 1 ∧ within 6 0 1) ∧
    (v ≠ 0 → (lane 5).2 = fNX ∧ (lane 6).2 = fNX) ∧
    within 7 (Real.tanh v) ((2 : ℝ) ^ (-22 : ℤ)) ∧ (v ≠ 0 → |v| < 9 → (lane 7).2 = fNX) ∧
    ∀ fn, 1 ≤ fn → fn ≤ 7 → (funLane fn true x.toNat).1 = flushed (funLane fn false (flushed x.toNat)).1

/-- R103, R243 to R245: on finite operands, with FTZ clear, a sum, difference, product, fused product or quotient is the exact value
rounded once under the mode, with NX where rounding changed it; VFSQRT rounds the exact root; an integer converts to FP32 in the same
way, and a finite FP32 value to the integer that the mode gives, within I32's range. -/
def Sys2Proof.Says.FloatRounding : Prop :=
  ∀ (rm : Rm) (x y c : W32), isFinite x → isFinite y → isFinite c →
    let sign (negative : Bool) (n : Int) : Int := if negative then -n else n
    RoundsTo rm (units x + units y) 1 (fadd rm false x.toNat y.toNat) ∧
    RoundsTo rm (units x - units y) 1 (fsub rm false x.toNat y.toNat) ∧
    RoundsTo rm (units x * units y) (2 ^ 149) (fmul rm false x.toNat y.toNat) ∧
    (∀ p q : Bool, RoundsTo rm (sign p (units x * units y) + sign q (units c * 2 ^ 149)) (2 ^ 149)
      (ffma rm false p q x.toNat y.toNat c.toNat)) ∧
    (units y ≠ 0 → RoundsTo rm (sign (decide (units y < 0)) (units x * 2 ^ 149)) (units y).natAbs (fdiv rm false x.toNat y.toNat)) ∧
    (0 < units x →
      let r := BitVec.ofNat 32 (fsqrt rm false x.toNat).1
      let square := units x * 2 ^ 149
      isFinite r ∧ 0 ≤ units r ∧
        (rm = .rne → ∀ z, isFinite z → 0 ≤ units z → (units r < units z → 4 * square ≤ (units r + units z) ^ 2) ∧
          (units z < units r → (units r + units z) ^ 2 ≤ 4 * square)) ∧
        (rm = .rtz ∨ rm = .rdn → units r ^ 2 ≤ square ∧ ∀ z, isFinite z → units z ^ 2 ≤ square → units z ≤ units r) ∧
        (rm = .rup → square ≤ units r ^ 2 ∧ ∀ z, isFinite z → 0 ≤ units z → square ≤ units z ^ 2 → units r ≤ units z)) ∧
    (∀ (ti : Bool) (n : W32), RoundsTo rm (n.toInt * 2 ^ 149) 1 (cvtLane 5 1 rm false ti n.toNat)) ∧
    (∀ ti : Bool, ∃ n : Int, (cvtLane 1 5 rm false ti x.toNat).1 = (BitVec.ofInt 32 (Max.max (-2 ^ 31) (Min.min (2 ^ 31 - 1) n))).toNat ∧
      (rm = .rne → 2 * (n * 2 ^ 149 - units x).natAbs ≤ 2 ^ 149 ∧ (2 * (n * 2 ^ 149 - units x).natAbs = 2 ^ 149 → n % 2 = 0)) ∧
      (rm = .rtz → n = (units x).tdiv (2 ^ 149)) ∧ (rm = .rdn → n = units x / 2 ^ 149) ∧ (rm = .rup → n = -(-units x / 2 ^ 149)))

/-- R92, R245: the worked lanes of VCVT.T8.F32 and back, and the integer conversions. -/
def Sys2Proof.Says.ConversionExamples : Prop :=
  cvtLane 1 6 .rne false false 0x3F333333 = (0x36, fNX) ∧ cvtLane 1 6 .rne false false 0x453B8000 = (0x7F, fNX) ∧
  cvtLane 1 6 .rne false false 0x80000000 = (0, 0) ∧ cvtLane 1 6 .rne false false 0x3727C5AC = (0, fUF ||| fNX) ∧
  (cvtLane 1 6 .rne false false 0x7FC00000).1 = 0x80 ∧ cvtLane 6 1 .rne false false 0x36 = (0x3F300000, 0) ∧
  cvtLane 6 1 .rne false false 0x7F = (0x45800000, 0) ∧ cvtLane 6 1 .rne false false 0x80 = (0x7FC00000, 0) ∧
  cvtLane 1 5 .rne false false 0x40200000 = (2, fNX) ∧ cvtLane 1 5 .rup false false 0x40200000 = (3, fNX) ∧
  cvtLane 1 5 .rne false false 0x7FC00000 = (0, fNV) ∧ cvtLane 1 5 .rne false false 0x7F800000 = (0x7FFFFFFF, fNV) ∧
  (cvtLane 1 4 .rne false false 0x43480000).1 = 127 ∧ cvtLane 1 4 .rne false false 0xC0000000 = (0xFFFFFFFE, 0) ∧
  cvtLane 4 1 .rne false false 0xFF = (0xBF800000, 0)

/-- R106, R246, R247: the cross-lane instructions read source lanes whatever the masks and write the lanes of E; reductions and scans take
the lanes of E_L, an integer sum modulo 2^32, an FP32 sum over the tree or lane by lane, its subnormal lanes read as zeros under FTZ.
That a scan with one contributing lane up to its place passes that lane on unchanged, without a flag, as a node of R106 does, is assumption
43's. -/
def Sys2Proof.Says.CrossLanes : Prop :=
  ∀ (s : State) (d a b : BitVec 5) (k : BitVec 3) (p : BitVec 2) (n : BitVec 4), s.begun → s.me.readyV a → s.me.readyV b → s.me.openV d →
    let m : W16 := if k = 0 then 0xFFFF else look 0 s.me.kr k.toNat
    let e := (s.me.act ||| s.me.hlp) &&& m
    let live := s.me.act &&& m
    let x (i : Nat) : W32 := s.me.lane a.toNat i
    let y (i : Nat) : W32 := s.me.lane b.toNat i
    let sum (j : Nat) : W32 := ((List.range j).filter fun i => bitAt live i).foldl (fun r i => r + x i) 0
    let read (v : W32) : W32 := if s.me.ftz = true ∧ v.toNat / 2 ^ 23 % 256 = 0 then v &&& 0x80000000 else v
    let gave := contribute live ((List.range 16).map fun i => read (x i))
    let tree (j : Instr) (empty : Nat) (f : Nat → Nat → Nat × Flags) : Prop :=
      let r := (treeSum f gave).getD (empty, 0)
      CompletesF j s d e (fun _ => BitVec.ofNat 32 r.1) r.2
    CompletesV (.vperm d a b k) s d e (fun i => x ((y i).toNat % 16)) ∧
    (p.toNat < 3 → CompletesV (.qxch d a p k) s d e (fun i => x (i ^^^ (p.toNat + 1)))) ∧
    CompletesV (.qbcast d a p k) s d e (fun i => x (4 * (i / 4) + p.toNat)) ∧
    CompletesV (.vshup d a n k) s d e (fun i => if n.toNat ≤ i then x (i - n.toNat) else 0) ∧
    CompletesV (.vshdn d a n k) s d e (fun i => if i + n.toNat ≤ 15 then x (i + n.toNat) else 0) ∧
    CompletesV (.vraddi d a k) s d e (fun _ => sum 16) ∧
    CompletesV (.vscani d a k) s d e (fun i => sum (i + 1)) ∧
    tree (.vradd d a k) 0 (fadd s.me.rm s.me.ftz) ∧
    tree (.vrmax d a k) 0xFF800000 (fpick true s.me.ftz) ∧
    tree (.vrmin d a k) 0x7F800000 (fpick false s.me.ftz) ∧
    (let at_ (i : Nat) := ((prefixes (fadd s.me.rm s.me.ftz) none gave).getD i none).getD (0, 0)
     CompletesF (.vscan d a k) s d e (fun i => BitVec.ofNat 32 (at_ i).1) (at_ 15).2)

/-- R206, R248: moves, votes and mask instructions. -/
def Sys2Proof.Says.MovesAndMasks : Prop :=
  ∀ (s : State) (d a b : BitVec 5) (r c : BitVec 6) (n : BitVec 4) (k q u v : BitVec 3), s.begun → s.me.readyV a → s.me.readyV b →
    s.me.openV d → s.me.readyS r → s.me.openS c →
    let p : W16 := if k = 0 then 0xFFFF else look 0 s.me.kr k.toNat
    let e := (s.me.act ||| s.me.hlp) &&& p
    let x (i : Nat) : W32 := s.me.lane a.toNat i
    let y (i : Nat) : W32 := s.me.lane b.toNat i
    let w : W32 := (s.me.scalar r).extractLsb' 0 32
    let f (z : BitVec 3) : W16 := if z = 0 then s.me.act else look 0 s.me.kr z.toNat
    let vote := f u &&& s.me.act
    CompletesV (.vmov d a k) s d e x ∧
    CompletesV (.vsel d a b k) s d (s.me.act ||| s.me.hlp) (fun i => if bitAt p i then x i else y i) ∧
    CompletesV (.vbcast d r k) s d e (fun _ => w) ∧
    CompletesS (.vext a c n) s c ((x n.toNat).signExtend 64) ∧
    CompletesV (.vins d r n k) s d (e &&& BitVec.ofNat 16 (2 ^ n.toNat)) (fun _ => w) ∧
    CompletesK (.kand q u v) s q (fun i => bitAt (f u) i && bitAt (f v) i) ∧
    CompletesK (.kor q u v) s q (fun i => bitAt (f u) i || bitAt (f v) i) ∧
    CompletesK (.kxor q u v) s q (fun i => bitAt (f u) i != bitAt (f v) i) ∧
    CompletesK (.knot q u) s q (fun i => !bitAt (f u) i) ∧
    CompletesK (.kmov q u) s q (fun i => bitAt (f u) i) ∧
    CompletesK (.elect q u) s q (fun i => bitAt vote i && (List.range i).all fun j => !bitAt vote j) ∧
    CompletesK (.stok q r) s q (fun i => bitAt (s.me.scalar r) i) ∧
    CompletesS (.ktos u c) s c ((f u).setWidth 64) ∧
    CompletesS (.vany u c) s c (if vote ≠ 0 then 1 else 0) ∧
    CompletesS (.vall u c) s c (if vote = s.me.act then 1 else 0) ∧
    CompletesS (.kpopc u c) s c (BitVec.ofNat 64 ((List.range 16).countP fun i => bitAt vote i))

/-- R152, R153, R205, R249, R250: a vector load sends a read for every lane of E whose address passes the checks and leaves v[d] awaiting, a
dropped helper lane reading 0; a vector store sends the lanes of E_L; no lane is sent before every lane is checked. -/
def Sys2Proof.Says.VectorMemory : Prop :=
  ∀ (s : State) (d x : BitVec 5) (n : BitVec 4) (k : BitVec 3) (imm : BitVec 14) (locs : Nat → Loc) (sent : List Nat),
    s.begun → s.free_ →
    let p : W16 := if k = 0 then 0xFFFF else look 0 s.me.kr k.toNat
    let e := (s.me.act ||| s.me.hlp) &&& p
    let live := s.me.act &&& p
    let lane (i : Nat) : Int := (s.me.aff n).1.toNat + i * (s.me.aff n).2.toInt
    let off (i : Nat) : W64 := BitVec.ofInt 64 (lane i + 4 * imm.toInt)
    let index (scale i : Nat) : W64 := BitVec.ofInt 64 (lane i + scale * (s.me.lane x.toNat i).toInt)
    let loads (j : Instr) (addr : Nat → W64) : Prop :=
      s.me.openV d → s.outstanding s.me.tid < 16 → s.Checked e addr .load locs sent →
      (∀ i, i ∈ sent → s.unwatched (addr i) 4 (.vld d.toNat i)) →
      ∃ t, exec j s = .next t ∧
        SentAll s t (sent.zipIdx.map fun z => { s.access (addr z.1) (locs z.1) 4 (.vld d.toNat z.1) false with id := s.nextId + z.2 }) ∧
        Passed s t s.me.next.pc (fun u => { noV u with vAwait := 0 }) ∧
        (∀ m : BitVec 5, bitAt (t.thread s).vAwait m.toNat = (decide (m = d ∧ sent ≠ []) || bitAt s.me.vAwait m.toNat) ∧
          bitAt (t.thread s).vFull m.toNat = (if m = d then decide (sent = []) else bitAt s.me.vFull m.toNat)) ∧
        ∀ (m : BitVec 5) (i : Nat), i < 16 → (t.thread s).lane m.toNat i =
          if m = d ∧ i ∈ lanesOf e ∧ i ∉ sent then 0 else s.me.lane m.toNat i
    let stores (j : Instr) (addr : Nat → W64) : Prop :=
      let data (i : Nat) : W64 := (s.me.lane d.toNat i).setWidth 64
      s.me.readyV d → s.Checked e addr .store locs sent → (∀ i, i ∈ sent → s.unwatched (addr i) 4 (.st (data i))) →
      ∃ t, exec j s = .next t ∧
        SentAll s t ((sent.filter fun i => bitAt live i).zipIdx.map fun z =>
          { s.access (addr z.1) (locs z.1) 4 (.st (data z.1)) false with id := s.nextId + z.2, seq := s.nextId + z.2 }) ∧
        Passed s t s.me.next.pc all
    loads (.vld d n k imm) off ∧ stores (.vst d n k imm) off ∧
    (s.me.readyV x →
      loads (.vldx d x n k) (index 1) ∧ stores (.vstx d x n k) (index 1) ∧
      loads (.vldxW d x n k) (index 4) ∧ stores (.vstxW d x n k) (index 4))

/-- R250: the first lane of E that is no helper and whose address is misaligned traps with its address and its index, and nothing has been
sent. -/
def Sys2Proof.Says.VectorTraps : Prop :=
  ∀ (s : State) (d x : BitVec 5) (n : BitVec 4) (k : BitVec 3) (imm : BitVec 14) (i : Nat), s.begun → s.untraced →
    s.me.evec ≠ 0 →
    let e := (s.me.act ||| s.me.hlp) &&& (if k = 0 then 0xFFFF else look 0 s.me.kr k.toNat)
    let lane (j : Nat) : Int := (s.me.aff n).1.toNat + j * (s.me.aff n).2.toInt
    let off (j : Nat) : W64 := BitVec.ofInt 64 (lane j + 4 * imm.toInt)
    let index (scale j : Nat) : W64 := BitVec.ofInt 64 (lane j + scale * (s.me.lane x.toNat j).toInt)
    i < 16 → bitAt e i = true → bitAt s.me.hlp i = false →
    let first (addr : Nat → W64) (a : Acc) : Prop :=
      (addr i).toNat % 4 ≠ 0 ∧
      ∀ j, j < i → bitAt e j = true → (∃ l, s.Reaches (addr j) 4 a l) ∨ (bitAt s.me.hlp j = true ∧ s.Fails (addr j) 4 a)
    (s.me.openV d → first off .load → Traps (.vld d n k imm) s 3 (off i) (w64 i)) ∧
    (s.me.readyV d → first off .store → Traps (.vst d n k imm) s 3 (off i) (w64 i)) ∧
    (s.me.readyV x →
      (s.me.openV d → first (index 1) .load → Traps (.vldx d x n k) s 3 (index 1 i) (w64 i)) ∧
      (s.me.readyV d → first (index 1) .store → Traps (.vstx d x n k) s 3 (index 1 i) (w64 i)) ∧
      (s.me.openV d → first (index 4) .load → Traps (.vldxW d x n k) s 3 (index 4 i) (w64 i)) ∧
      (s.me.readyV d → first (index 4) .store → Traps (.vstxW d x n k) s 3 (index 4 i) (w64 i)))

/-! ### The matrix engine -/

/-- R208 to R210, R255 to R258, R261 to R265, R270 to R272: the commands that move, clear and convert tiles and accumulators latch their
operands, commit a shadow shape where the manual says so, and issue; MXREC writes the slot's own registers. -/
def Sys2Proof.Says.MatrixIssues : Prop :=
  ∀ (s : State) (a b d : BitVec 6) (w : BitVec 3) (v : BitVec 2) (m : BitVec 1) (p : Nat) (l : List Piece), s.begun → s.mayCommand →
    s.me.readyS a → s.me.readyS b →
    let x := s.me.scalar a
    let y := s.me.scalar b
    let task := s.taskOf s.cur.core s.me.task
    let shadow := look 0 s.me.tsh w.toNat
    let live := look 0 s.myCore.tshape p
    let acc := look 0 s.myCore.ashape p
    let rows (n bytes : Nat) : Prop := x.toNat % 8 = 0 ∧ y.toNat % 8 = 0 ∧ s.engineRows s.myCtx (rowAddrs x y n) bytes = .ok l
    let moves (q : MxCmd) : Prop :=
      q.op1 = x ∧ q.op2 = y ∧ q.pieces = l.map fun z => ((s.homeOf z.pa).getD 0, z.row, z.off, z.len, z.pa)
    (task.tiles[w.toNat]? = some p →
      (tshapeOk shadow = true → rows (tsRows shadow) (rowBytes (tsFmt shadow) (tsCols shadow)) →
        Issues (.tld a b w) s .tld all (fun q => moves q ∧ q.ta = p ∧ q.shA = shadow)) ∧
      (tsFmt live ≠ .raw → rows (tsRows live) (rowBytes (tsFmt live) (tsCols live)) →
        Issues (.tst a b w) s .tst all (fun q => moves q ∧ q.ta = p ∧ q.shA = live)) ∧
      (tsFmt live = .fp32 ∨ tsFmt live = .bf16 → ∀ f first, s.engineRows s.myCtx (rowAddrs x y 1) 1 = .ok [first] →
        bfmtFmt (s.bfmtAt first.pa) = f → f.tapered = true → x.toNat < 0x80000 → rows (tsRows live) (rowBytes f (tsCols live)) →
        s.quantBanks f l = true → Issues (.tquant a b w) s .tquant all (fun q => moves q ∧ q.ta = p ∧ q.shA = live))) ∧
    (∀ t : Nat, t = (if m = 1 then a.toNat else x.toNat) → task.tiles[t]? = some p →
      (tshapeOk (look 0 s.me.tsh t) = true → Issues (.tzero a m) s .tzero all (fun q => q.ta = p ∧ q.shA = look 0 s.me.tsh t)) ∧
      (∀ (j : BitVec 1) (e : Nat), e = (if m = 1 then b.toNat else y.toNat) → tsFmt live = .bf16 ∨ tsFmt live = .fp32 → 4 ≤ e → e ≤ 6 →
        (if j = 0 then tsCols live else tsRows live) % 2 ^ e = 0 →
        Issues (.had a b m j) s .had all (fun q => q.ta = p ∧ q.shA = live ∧ q.op2.toNat = e ∧ q.d = j.toNat))) ∧
    (∀ t : Nat, t = (if m = 1 then a.toNat else x.toNat) → task.accs[t]? = some p → ashapeOk (look 0 s.me.ash t) = true →
      Issues (.acczero a m) s .acczero all (fun q => q.acc = p ∧ q.shC = look 0 s.me.ash t)) ∧
    (task.accs[v.toNat]? = some p → s.myCore.accLocked p = false →
      (asRows acc ≠ 0 → asCols acc ≠ 0 → rows (asRows acc) (4 * asCols acc) →
        Issues (.accst a b v) s .accst all (fun q => moves q ∧ q.acc = p ∧ q.shC = acc)) ∧
      (s.me.openS d → y.toNat % 2 = 0 → y.toNat < asRows acc * asCols acc →
        ∃ t, exec (.accrd d b v) s = .next t ∧
          Issued s t .accrd (fun u => { u with sFull := 0, sAwait := 0 }) (fun q => q.acc = p ∧ q.shC = acc ∧ q.op1 = y ∧ q.d = d.toNat) ∧
          ∀ n, n < 64 → bitAt (t.thread s).sAwait n = (decide (n = d.toNat ∧ n ≠ 0) || bitAt s.me.sAwait n))) ∧
    ((∀ i, i < 4 → recOpOk (x.toNat / 2 ^ (12 * i) % 2 ^ 12) = true) → x.toNat < 2 ^ 48 →
      ∃ t, exec (.mxrec a b) s = .next t ∧ Beyond whole (fun z => { z with pmc := [] }) s t ∧
        Passed s t s.me.next.pc (fun u => { u with mxrprog := 0, mxrinit := 0 }) ∧ (t.thread s).mxrprog = x ∧
        (t.thread s).mxrinit = BitVec.ofNat 64 (y.toNat % 2 ^ 32))

/-- R256, R258, R266, R273, R297: MMA, MXRUN, SPMMA and SPMMAT latch MXCFG, the live shapes, a committed accumulator shape with ZACC, the
scales, and for a sparse product its window and its pattern.  That a scale stays open while an earlier TLD or TZERO of its tile is under way
(Core.latchScale) is assumption 31's. -/
def Sys2Proof.Says.ProductIssues : Prop :=
  ∀ (s : State) (o : BitVec 6) (m : BitVec 1) (v : BitVec 2) (ta tb acc : Nat), s.begun → s.mayCommand →
    let cfg := s.me.mxcfg
    let x := s.myCore
    let task := s.taskOf s.cur.core s.me.task
    let c := cfg.toNat / 2 ^ 8 % 4
    task.tiles[cfg.toNat % 8]? = some ta → task.tiles[cfg.toNat / 2 ^ 4 % 8]? = some tb → task.accs[c]? = some acc →
    let fresh := look 0 s.me.ash c
    (cfgZacc cfg = true → ashapeOk fresh = true) →
    let shA := look 0 x.tshape ta
    let shB := look 0 x.tshape tb
    let shC := if cfgZacc cfg = true then fresh else look 0 x.ashape acc
    let dims (kmax : Nat) : Prop := 1 ≤ cfgM cfg ∧ 1 ≤ cfgN cfg ∧ 1 ≤ cfgK cfg ∧ cfgK cfg ≤ kmax ∧
      holds shB (cfgTrb cfg) (cfgK cfg) (cfgN cfg) = true ∧ cfgM cfg ≤ asRows shC ∧ cfgN cfg ≤ asCols shC
    let fits : Prop := holds shA (cfgTra cfg) (cfgM cfg) (cfgK cfg) = true
    let latched (q : MxCmd) : Prop := q.cfg = cfg ∧ q.ta = ta ∧ q.tb = tb ∧ q.acc = acc ∧ q.shA = shA ∧ q.shB = shB ∧ q.shC = shC ∧
      q.scA = x.latchScale ta ∧ q.scB = x.latchScale tb
    (comboOk (tsFmt shA) (tsFmt shB) (asInt shC) = true → dims (kMax (tsFmt shA)) → fits → Issues .mma s .mma all latched) ∧
    (tsFmt shA = .fp32 → tsFmt shB = .fp32 → asInt shC = false → dims 64 → fits →
      Issues .mxrun s .mxrun all (fun q => latched q ∧ q.prog = s.me.mxrprog ∧ q.init = s.me.mxrinit)) ∧
    (∀ (n : Nat) (g : Prog), (m = 1 ∨ s.me.readyS o) → s.patSlot s.cur.core s.me.task v.toNat = some n →
      (look {} x.pslots n).prog = some g →
      comboOk (tsFmt shA) (tsFmt shB) (asInt shC) = true → dims (kMax (tsFmt shA)) → cfgTra cfg = false →
      let z : W64 := if m = 1 then BitVec.ofNat 64 o.toNat else s.me.scalar o
      let row := z.toNat % 2 ^ 16
      let col := z.toNat / 2 ^ 16 % 2 ^ 16
      let sparse (q : MxCmd) : Prop := latched q ∧ q.op1 = z ∧ q.ps = look {} x.pslots n
      (row + cfgM cfg ≤ g.r → col + cfgK cfg ≤ g.c → Issues (.spmma o m v) s .spmma all sparse) ∧
      (row + cfgK cfg ≤ g.r → col + cfgM cfg ≤ g.c →
        (look {} x.pslots n).inv = true ∨
          ((look {} x.pslots n).rankFail col (cfgM cfg) = none ∧ ∃ l, s.tableRows s.myCtx (look {} x.pslots n) = .ok l) →
        Issues (.spmmat o m v) s .spmmat all sparse))

/-- R255: a matrix instruction with an inactive lane traps with the active mask in ESTAT, and issues nothing. -/
def Sys2Proof.Says.CollectiveTraps : Prop :=
  ∀ (s : State) (a b : BitVec 6) (w : BitVec 3) (v : BitVec 2) (m j : BitVec 1), s.begun → s.untraced → s.me.evec ≠ 0 →
    s.me.act ≠ 0xFFFF →
    let bad (i : Instr) : Prop := Traps i s 9 0 (s.me.act.setWidth 64)
    bad (.tld a b w) ∧ bad (.tst a b w) ∧ bad (.tquant a b w) ∧ bad (.tzero a m) ∧ bad (.acczero a m) ∧ bad (.had a b m j) ∧
    bad (.accrd a b v) ∧ bad (.accst a b v) ∧ bad .mma ∧ bad .mxrun ∧ bad (.spmma a m v) ∧ bad (.spmmat a m v) ∧ bad (.mxrec a b)

/-- R257, R259, R262, R264, R265, R267, R268, R270, R273, R298: a command whose accesses are done and that no earlier command blocks ends,
and only then has its effect; its flags reach its thread, and nothing else changes.  When TSCALE is written, that a later MOVTC's value
stays, and that the commands which wait for the scale take it then, is assumption 31's. -/
def Sys2Proof.Says.MatrixCompletes : Prop :=
  ∀ (s : State) (c n : Nat) (q : MxCmd), (s.core c).mxCmd n = some q → (∀ i f, i ∈ q.flights → f ∈ s.flights → f.id ≠ i) →
    (s.core c).mxClear q = true → q.flights ≠ [] ∨ s.hasPath c q = true → q.poison = false →
    (∀ e, e ∈ (s.core c).engErr → e.1 / 4096 ∉ q.reads) →
    let r := s.by_ c q.slot
    let x := s.core c
    let unscaled (p : MxCmd) : MxCmd := { p with scA := none, scB := none }
    let there : Bool := (s.slot c q.slot).live && (s.slot c q.slot).tid == q.tid
    (s.slot c q.slot).role = .single →
    let ends (fl : Flags) (effect : Core → Prop) : Prop :=
      ∃ t, exec (.matrixComplete c n) s = .next t ∧
        Beyond whole (fun y => { y with mx := [], pmc := [], tile := [], tscale := [], accv := [], engErr := [] }) r t ∧
        (t.core c).engErr = x.engErr.filter (fun e => !q.writes.contains (e.1 / 4096)) ∧
        (t.core c).mx.map unscaled = (x.mx.filter (fun p => p.id != n)).map unscaled ∧
        (q.kind ≠ .tld → q.kind ≠ .tzero → (t.core c).mx = x.mx.filter (fun p => p.id != n)) ∧
        t.thread r = (if there then { r.me with fstat := r.me.fstat ||| w64 fl.toNat } else r.me) ∧ effect (t.core c)
    let sameAcc (y : Core) : Prop := y.accv = x.accv
    let sameTile (y : Core) : Prop := y.tile = x.tile ∧ y.tscale = x.tscale
    let others (y : Core) : Prop := ∀ p, p ≠ q.ta → look 0 y.tscale p = look 0 x.tscale p ∧ ∀ i, i < 8192 → y.tileByte p i = x.tileByte p i
    let scaled (y : Core) (v : BitVec 8) : Prop :=
      look 0 y.tscale q.ta = (if q.overtaken = true then look 0 x.tscale q.ta else v) ∧
      ∀ l1 l2 z l3, x.mx = l1 ++ q :: (l2 ++ z :: l3) → (x.mx.map MxCmd.id).Nodup → z.scales q.ta = false →
        (∀ p, p ∈ l2 → p.scales q.ta = false) →
        { z with scA := if z.ta = q.ta ∧ z.scA = none then some v else z.scA,
                 scB := if z.tb = q.ta ∧ z.scB = none then some v else z.scB } ∈ y.mx
    let made (y : Core) (f : Nat → Nat → Nat → Nat) : Prop :=
      (∀ i j, i < cfgM q.cfg → j < cfgN q.cfg → y.accElem q.acc (i * asCols q.shC + j) =
        f i j (x.accElem q.acc (i * asCols q.shC + j)) % 2 ^ 32) ∧
      ∀ p e, e < 8192 → (¬ ∃ i j, i < cfgM q.cfg ∧ j < cfgN q.cfg ∧ p = q.acc ∧ e = i * asCols q.shC + j) → y.accElem p e = x.accElem p e
    let shaped : Prop := dimsOk q 64 = true ∧ ashapeOk q.shC = true
    let sc : Int := (q.scA.getD (look 0 x.tscale q.ta)).toInt + (q.scB.getD (look 0 x.tscale q.tb)).toInt
    let vals (i j : Nat) := (x.terms q i j).1.map fun p => (decodeNum (tsFmt q.shA) x.topinf 0 p.1, decodeNum (tsFmt q.shB) x.topinf 0 p.2)
    let total (i j c0 : Nat) : Int := (if cfgZacc q.cfg then 0 else (BitVec.ofNat 32 c0).toInt) +
      ((x.terms q i j).1.map fun p => (BitVec.ofNat 8 p.1).toInt * (BitVec.ofNat 8 p.2).toInt).sum
    let raised (fl : Flags) (f : Nat → Nat → Nat → Flags) : Prop :=
      ∀ b, fl.getLsbD b = true ↔ ∃ i j, i < cfgM q.cfg ∧ j < cfgN q.cfg ∧
        (f i j (x.accElem q.acc (i * asCols q.shC + j))).getLsbD b = true
    (q.kind = .tld → q.data.Pairwise (fun a b => a.1 < b.1) → (∀ e, e ∈ q.data → e.1 < 8192) →
      ends 0 (fun y => sameAcc y ∧ others y ∧ (∀ i, i < 8192 → y.tileByte q.ta i = (find q.data i).getD (x.tileByte q.ta i)) ∧
        scaled y (if (tsFmt q.shA).tapered then q.scale else 0))) ∧
    (q.kind = .tzero → ends 0 (fun y => sameAcc y ∧ others y ∧ (∀ i, i < 8192 → y.tileByte q.ta i = 0) ∧ scaled y 0)) ∧
    (q.kind = .acczero →
      ends 0 (fun y => sameTile y ∧ ∀ p e, e < 8192 → y.accElem p e = if p = q.acc then 0 else x.accElem p e)) ∧
    (q.kind = .tst ∨ q.kind = .tquant → ends q.fl (fun y => sameAcc y ∧ sameTile y)) ∧
    (q.kind = .accst → ends 0 (fun y => sameAcc y ∧ sameTile y)) ∧
    (q.kind = .mma ∨ q.kind = .spmma ∨ q.kind = .spmmat → shaped →
      ∃ fl, ends fl (fun y => sameTile y ∧
        (asInt q.shC = true →
          raised fl (fun i j c0 => (x.terms q i j).2 ||| if total i j c0 < -2 ^ 31 ∨ 2 ^ 31 - 1 < total i j c0 then fNV else 0) ∧
          made y (fun i j c0 => (BitVec.ofInt 32 (Max.max (-2 ^ 31) (Min.min (2 ^ 31 - 1) (total i j c0)))).toNat)) ∧
        (asInt q.shC = false →
          raised fl (fun i j c0 => (x.terms q i j).2 ||| (mmaFloat (cfgZacc q.cfg) sc c0 (vals i j)).2) ∧
          made y (fun i j c0 => (mmaFloat (cfgZacc q.cfg) sc c0 (vals i j)).1)))) ∧
    (q.kind = .mma → ∀ i j, x.terms q i j = ((List.range (cfgK q.cfg)).map fun k => (x.xEl q i k, x.yEl q k j), 0)) ∧
    (q.kind = .mxrun → shaped →
      let run_ (i j c0 : Nat) := (List.range (cfgK q.cfg)).foldl (fun st k => (List.range 4).foldl (fun st o =>
        recOp (q.prog.toNat / 2 ^ (12 * o) % 2 ^ 12) (x.xEl q i k) (x.yEl q k j) st) st)
        (if cfgZacc q.cfg then q.init.toNat % 2 ^ 32 else c0, 0, (0 : Flags))
      ∃ fl, raised fl (fun i j c0 => (run_ i j c0).2.2) ∧ ends fl (fun y => sameTile y ∧ made y (fun i j c0 => (run_ i j c0).1))) ∧
    (q.kind = .had → tshapeOk q.shA = true → (tsFmt q.shA = .fp32 ∨ tsFmt q.shA = .bf16) → q.op2.toNat ≤ 6 → q.d < 2 →
      (if q.d = 0 then tsCols q.shA else tsRows q.shA) % 2 ^ q.op2.toNat = 0 →
      let n := 2 ^ q.op2.toNat
      let point (r k : Nat) (i : Nat) : Machine.Num := decodeNum (tsFmt q.shA) false 0
        (if q.d = 0 then x.elem q.ta q.shA r (k / n * n + i) else x.elem q.ta q.shA (r / n * n + i) k)
      let out (r k : Nat) : Nat × Flags :=
        hadOut (tsFmt q.shA) q.op2.toNat ((if q.d = 0 then k else r) % n) ((List.range n).map (point r k))
      ∃ fl : Flags, (∀ b, fl.getLsbD b = true ↔ ∃ r k, r < tsRows q.shA ∧ k < tsCols q.shA ∧ (out r k).2.getLsbD b = true) ∧
        ends fl (fun y => sameAcc y ∧ others y ∧ y.tscale = x.tscale ∧
          (∀ r k, r < tsRows q.shA → k < tsCols q.shA → y.elem q.ta q.shA r k = (out r k).1 % 2 ^ (8 * (tsFmt q.shA).bytes)) ∧
          ∀ i, tsRows q.shA * rowBytes (tsFmt q.shA) (tsCols q.shA) ≤ i → i < 8192 → y.tileByte q.ta i = x.tileByte q.ta i)) ∧
    (∀ d : BitVec 6, q.kind = .accrd → s.accReady c q = true → q.d = d.toNat → there = true → (s.slot c q.slot).isPort d.toNat = false →
      let e := q.op1.toNat
      let hi := if e + 1 = asRows q.shC * asCols q.shC then 0 else x.accElem q.acc (e + 1)
      ∃ t, exec (.matrixComplete c n) s = .next t ∧ HoldsS r t d (BitVec.ofNat 64 (hi * 2 ^ 32 + x.accElem q.acc e)) ∧
        bitAt (t.thread r).sAwait d.toNat = false ∧ (t.core c).mx = x.mx.filter (fun p => p.id != n) ∧ sameAcc (t.core c) ∧ sameTile (t.core c))

/-- R105, R268, R270: an element of a floating-point product is its accumulator's value plus the exact sum of the exact products under both
scales, rounded once to nearest even; an output of HAD is the exact signed sum of its block times 2^-⌊p/2⌋, rounded once to nearest even
in the tile's format.  A value is a sign, a whole number and a power of two. -/
def Sys2Proof.Says.EngineRounding : Prop :=
  ∀ (den : Nat),
    let num (x : Bool × Nat × Int) : Machine.Num := .fin x.1 x.2.1 x.2.2
    let sign (b : Bool) : Int := if b then -1 else 1
    (∀ (l : List ((Bool × Nat × Int) × (Bool × Nat × Int))) (sc : Int) (c : W32) (z : Bool), isFinite c →
      (∀ p, p ∈ l → 0 ≤ p.1.2.2 + p.2.2.2 + sc + 149 + den) →
      let exact := (l.map fun p => sign p.1.1 * sign p.2.1 * p.1.2.1 * p.2.2.1 * 2 ^ (p.1.2.2 + p.2.2.2 + sc + 149 + den).toNat).sum
      RoundsTo .rne ((if z then 0 else units c * 2 ^ den) + exact) (2 ^ den) (mmaFloat z sc c.toNat (l.map fun p => (num p.1, num p.2)))) ∧
    (∀ (l : List (Bool × Nat × Int)) (p i : Nat), p ≤ 6 → l.length = 2 ^ p → i < 2 ^ p →
      (∀ x, x ∈ l → 0 ≤ x.2.2 - ((p / 2 : Nat) : Int) + 149 + den) →
      let odd (j : Nat) : Bool := ((List.range 6).filter fun b => i.testBit b && j.testBit b).length % 2 == 1
      let exact := (l.zipIdx.map fun (x : (Bool × Nat × Int) × Nat) => sign (odd x.2) * sign x.1.1 * x.1.2.1 * 2 ^ (x.1.2.2 - ((p / 2 : Nat) : Int) + 149 + den).toNat).sum
      RoundsTo .rne exact (2 ^ den) (hadOut .fp32 p i (l.map num)) ∧
      (exact.natAbs ≤ (2 ^ 8 - 1) * 2 ^ (253 + 16) * 2 ^ den →
        let r := BitVec.ofNat 32 ((hadOut .bf16 p i (l.map num)).1 * 2 ^ 16)
        (hadOut .bf16 p i (l.map num)).1 < 2 ^ 16 ∧ isFinite r ∧
        ∀ y : W32, isFinite y → y.toNat % 2 ^ 16 = 0 →
          (units r * 2 ^ den - exact).natAbs ≤ (units y * 2 ^ den - exact).natAbs ∧
          ((units r * 2 ^ den - exact).natAbs = (units y * 2 ^ den - exact).natAbs → units y ≠ units r → r.getLsbD 16 = false)))

/-! ### The pattern generator -/

/-- R201, R214, R277, R290: every pattern instruction joins the generator's queue with its operands, and its thread waits with its
destinations empty. -/
def Sys2Proof.Says.PatternQueues : Prop :=
  ∀ (s : State) (a b d v n : BitVec 6) (m : BitVec 1) (p : BitVec 2), s.begun → s.free_ → s.me.readyS a → s.me.readyS b → s.me.openS d →
    (s.patSlot s.cur.core s.me.task p.toNat).isSome = true →
    let q (k : PgKind) (x y : W64) : PgCmd :=
      { id := s.nextId, kind := k, slot := s.cur.slot, tid := s.me.tid, task := s.me.task, p := p.toNat, op1 := x, op2 := y }
    let x := s.me.scalar a
    let y := s.me.scalar b
    QueuesPattern (.psld a b p) s (q .psld x y) ∧
    ((v.toNat ≤ 30 → bitAt s.me.vAwait v.toNat = false ∧ bitAt s.me.vAwait (v.toNat + 1) = false) →
      QueuesPattern (.psgen v n m p) s { q .psgen (v.setWidth 64) 0 with
        n := n.toNat, trans := decide (m = 1), full := (bitAt s.me.vFull v.toNat, bitAt s.me.vFull (v.toNat + 1)) }) ∧
    QueuesPattern (.prank a b p) s (q .prank x y) ∧
    QueuesPattern (.pschk d b p) s { q .pschk 0 y with d := d.toNat, full := (bitAt s.me.sFull d.toNat, false) } ∧
    QueuesPattern (.pssave a p) s (q .pssave x 0) ∧
    QueuesPattern (.psrest a p) s (q .psrest x 0)

/-- R276, R284 to R286, R288, R290 to R296: the generator carries out the oldest command once its reads are made: PSLD loads a program, PSGEN
emits the next kept coordinates in either order with their ranks, PSCHK ranks one, PRANK registers a table once its counts are written,
PSSAVE and PSREST move an image; the thread goes on.  That PSLD keeps TC0, TW and ADDR, of which R291 says nothing, is assumption 31's. -/
def Sys2Proof.Says.PatternCompletes : Prop :=
  ∀ (s : State) (c n : Nat) (q : PgCmd) (r : List PgCmd), (s.core c).pg = q :: r → q.flights = [] → q.reads = [] →
    s.patSlot c q.task q.p = some n → (s.slot c q.slot).role = .single →
    let p := look {} (s.core c).pslots n
    let x := s.ctxOf c q.slot
    let view := s.by_ c q.slot
    let gives (but : Slot → Slot) (effect : State → Prop) : Prop :=
      ∃ t, exec (.patternCommandComplete c) s = .next t ∧ Generated s t c q r but ∧ effect t
    let slot (t : State) : PSlot := look {} (t.core c).pslots n
    (∀ g, q.kind = .psgen → p.prog = some g → q.op1.toNat ≤ 30 → 1 ≤ q.n → q.n ≤ 16 → (q.trans = true → p.inv = true ∨ q.sent = true) →
      let (row, col, rank, done) := if p.mode = q.trans then (p.row, p.col, p.rank, p.done) else (0, 0, 0, false)
      let later (z : Nat × Nat) : Bool :=
        if q.trans then decide (col < z.2 ∨ (col = z.2 ∧ row ≤ z.1)) else decide (row < z.1 ∨ (row = z.1 ∧ col ≤ z.2))
      let found := if done then [] else ((if q.trans then g.keptDown else g.kept).filter later).take q.n
      gives noV (fun t =>
        (∀ i, i < 16 → (t.thread view).lane q.op1.toNat i =
            (match found[i]? with | some z => BitVec.ofNat 32 (z.2 * 2 ^ 16 + z.1) | none => 0xFFFFFFFF) ∧
          (t.thread view).lane (q.op1.toNat + 1) i =
            (match found[i]? with
             | some z => BitVec.ofNat 32 (if q.trans then q.rankIn g p.inv z else rank + i)
             | none => 0xFFFFFFFF)) ∧
        (slot t).last = found.length ∧ ((slot t).done = true ↔ found.length < q.n) ∧ (slot t).mode = q.trans ∧
        (found ≠ [] → (slot t).rank = (rank + found.length) % 2 ^ 32) ∧
        (done = false → found.length < q.n → (slot t).row = (if q.trans then 0 else g.r) ∧ (slot t).col = if q.trans then g.c else 0) ∧
        (∀ z, found.length = q.n → found.getLast? = some z →
          ((slot t).row, (slot t).col) = if q.trans then (if z.1 + 1 < g.r then (z.1 + 1, z.2) else (0, z.2 + 1))
            else (if z.2 + 1 < g.c then (z.1, z.2 + 1) else (z.1 + 1, 0))))) ∧
    (∀ (g : Prog) (d : BitVec 6), q.kind = .pschk → p.prog = some g → q.d = d.toNat → (s.slot c q.slot).isPort d.toNat = false →
      let row := q.op2.toNat % 2 ^ 16
      let col := q.op2.toNat / 2 ^ 16 % 2 ^ 16
      p.inv = true ∨ q.sent = true ∨ (g.keep row col = false ∧ p.tab = true ∧ p.tc0 = 0 ∧ p.tw = g.c ∧ ∃ l, s.tableRows x p = .ok l) →
      gives noS (fun t => HoldsS view t d
        (if g.keep row col = true then BitVec.ofNat 64 (q.rankIn g p.inv (row, col)) else BitVec.allOnes 64))) ∧
    (∀ (e : PEnt), q.kind = .psld → q.op1.toNat % 4 = 0 → patLoad (q.words.map Prod.snd) none q.op2 = .ok (e, q.words.length) →
      gives all (fun t => (slot t).code = q.words.map (fun w => BitVec.ofNat 32 w.2) ∧ (slot t).inv = e.p.inv ∧
        (slot t).r = q.op2.toNat % 2 ^ 16 ∧ (slot t).c = q.op2.toNat / 2 ^ 16 % 2 ^ 16 ∧ (slot t).ir = q.op2.toNat / 2 ^ 32 % 2 ^ 16 ∧
        (slot t).ic = q.op2.toNat / 2 ^ 48 % 2 ^ 16 ∧ (slot t).row = 0 ∧ (slot t).col = 0 ∧ (slot t).rank = 0 ∧ (slot t).done = false ∧
        (slot t).mode = false ∧ (slot t).tab = false ∧ (slot t).last = 0 ∧ (slot t).tv = e.p.inv ∧
        (e.p.inv = false → (slot t).t = 0) ∧
        (∀ g : Prog, e.p.inv = true → g = ⟨e.p, (slot t).r, (slot t).c, (slot t).ir, (slot t).ic⟩ → (slot t).t = g.kept.length) ∧ (slot t).tc0 = p.tc0 ∧ (slot t).tw = p.tw ∧ (slot t).addr = p.addr)) ∧
    (∀ g, q.kind = .prank → p.prog = some g → q.op1.toNat % 4 = 0 →
      let tc0 := q.op2.toNat % 2 ^ 16
      let tw := q.op2.toNat / 2 ^ 16 % 2 ^ 16
      tw ≠ 0 → tc0 + tw ≤ g.c →
      (q.sent = true → gives all (fun t => (slot t) = { p with addr := q.op1, tc0 := tc0, tw := tw, tab := true, t := g.total, tv := true })) ∧
      (q.sent = false → ∀ l, s.engineRows x ((List.range g.r).map fun j => (j, (q.op1 + BitVec.ofNat 64 (4 * j)).toNat)) 4 = .ok l →
        ∃ t, exec (.patternCommandComplete c) s = .next t ∧ t.thread view = view.me ∧
          t.flights.map (fun f => (f.pa, f.op)) = s.flights.map (fun f => (f.pa, f.op)) ++ l.map (fun z => (z.pa, FOp.st (BitVec.ofNat 64
            (g.kept.filter fun y => decide (y.1 < z.row ∧ tc0 ≤ y.2 ∧ y.2 < tc0 + tw)).length))))) ∧
    (q.kind = .pssave → q.sent = true → gives all (fun t => slot t = p)) ∧
    (q.kind = .pssave → q.sent = false → q.op1.toNat % 64 = 0 → ∀ l,
      s.engineRows x ((List.range 32).map fun j => (j, (q.op1 + BitVec.ofNat 64 (8 * j)).toNat)) 8 = .ok l →
      ∃ t, exec (.patternCommandComplete c) s = .next t ∧ t.thread view = view.me ∧
        t.flights.map (fun f => (f.pa, f.op)) = s.flights.map (fun f => (f.pa, f.op)) ++ l.map (fun z => (z.pa, FOp.st (p.image.getD z.row 0)))) ∧
    (q.kind = .psrest → q.sent = true → q.op1.toNat % 64 = 0 →
      let dw (i : Nat) : Nat := look 0 q.words i % 2 ^ 64
      let field (i lo n : Nat) : Nat := dw i / 2 ^ lo % 2 ^ n
      let words : List Nat := (List.range 32).map fun i => field (i / 2) (32 * (i % 2)) 32
      let plen := field 16 16 8
      field 16 56 8 = 1 →
      (plen = 0 → gives all (fun t => slot t = {})) ∧
      (∀ e : PEnt, plen ≠ 0 → plen ≤ 32 → patLoad words (some plen) (BitVec.ofNat 64 (dw 17)) = .ok (e, plen) →
        field 18 0 16 ≤ field 17 0 16 → field 18 16 16 ≤ field 17 16 16 →
        let tab := (dw 16).testBit 9
        (tab = true → 1 ≤ field 19 48 16 ∧ field 19 32 16 + field 19 48 16 ≤ field 17 16 16) →
        gives all (fun t => (slot t).code = (words.take plen).map (BitVec.ofNat 32) ∧ (slot t).inv = e.p.inv ∧
          (slot t).mode = (dw 16).testBit 0 ∧ (slot t).done = (dw 16).testBit 1 ∧ (slot t).last = field 16 24 8 ∧ (slot t).tab = tab ∧
          (slot t).r = field 17 0 16 ∧ (slot t).c = field 17 16 16 ∧ (slot t).ir = field 17 32 16 ∧ (slot t).ic = field 17 48 16 ∧
          (slot t).row = field 18 0 16 ∧ (slot t).col = field 18 16 16 ∧ (slot t).rank = field 18 32 32 ∧
          (slot t).tc0 = field 19 32 16 ∧ (slot t).tw = field 19 48 16 ∧ (slot t).addr = BitVec.ofNat 64 (dw 20 / 4 * 4) ∧
          (tab = true ∨ e.p.inv = false → (slot t).t = field 19 0 32 ∧ (slot t).tv = (dw 16).testBit 10) ∧
          (tab = false → e.p.inv = true → (slot t).tv = true ∧
            ∀ g : Prog, g = ⟨e.p, field 17 0 16, field 17 16 16, field 17 32 16, field 17 48 16⟩ → (slot t).t = g.kept.length))))

/-- R175, R184, R286, R290, R291, R295, R296: the words that a command reads are accesses of their own: a transposed PSGEN and PSCHK of a
program that is not invertible name those of the registered table that they need, PSREST names its image; those at one home are read at one
point, at the first home that can give them all; PSLD reads on from home to home up to PEND. -/
def Sys2Proof.Says.PatternReads : Prop :=
  ∀ (s : State) (c n : Nat) (q : PgCmd) (r : List PgCmd), (s.core c).pg = q :: r → q.flights = [] →
    s.patSlot c q.task q.p = some n →
    let p := look {} (s.core c).pslots n
    let x := s.ctxOf c q.slot
    let becomes (u : PgCmd) : Prop := ∃ t, exec (.patternCommandComplete c) s = .next t ∧ (t.core c).pg = u :: r ∧ t.mem = s.mem ∧
      t.flights = s.flights ∧ t.thread (s.by_ c q.slot) = s.slot c q.slot ∧ (t.core c).pslots = (s.core c).pslots
    let with_ (l : List Piece) : PgCmd := { q with
      words := l.foldl (fun m z => Machine.put m z.row (s.loadN z.pa z.len)) q.words, reads := q.reads.filter fun z => !l.contains z }
    let clean (l : List Piece) : Prop := ∀ z, z ∈ l → s.sound z.pa z.len
    (∀ w, q.reads.find? (fun w => s.pieceReady c q.tid q.id (q.reads.filter fun z => s.homeOf z.pa == s.homeOf w.pa)) = some w →
      let l := q.reads.filter fun z => s.homeOf z.pa == s.homeOf w.pa
      clean l → becomes (with_ l)) ∧
    (q.reads = [] → q.sent = false →
      (∀ g l, p.prog = some g → p.inv = false → p.tab = true → p.tc0 = 0 → p.tw = g.c → s.tableRows x p = .ok l →
        let needs (rows : List Nat) : PgCmd := { q with sent := true, reads := ((0 :: rows).eraseDups).filterMap fun j => l[j]? }
        let row := q.op2.toNat % 2 ^ 16
        (q.kind = .pschk → g.keep row (q.op2.toNat / 2 ^ 16 % 2 ^ 16) = true → becomes (needs [row])) ∧
        (q.kind = .psgen → q.trans = true → q.op1.toNat ≤ 30 → 1 ≤ q.n → q.n ≤ 16 → p.mode = true → p.done = false →
          let found := (g.keptDown.filter fun z => decide (p.col < z.2 ∨ (p.col = z.2 ∧ p.row ≤ z.1))).take q.n
          found ≠ [] → becomes (needs (found.map Prod.fst)))) ∧
      (∀ l, q.kind = .psrest → q.op1.toNat % 64 = 0 →
        s.engineRows x ((List.range 32).map fun j => (j, (q.op1 + BitVec.ofNat 64 (8 * j)).toNat)) 8 = .ok l → l ≠ [] →
        becomes { q with sent := true, reads := l })) ∧
    (∀ i skip pa pol l, q.kind = .psld → q.reads = [] → q.op1.toNat % 4 = 0 → psldAt (q.words.map Prod.snd) 0 0 = (i, skip, false) → i < 32 →
      s.engineByte x (q.op1 + BitVec.ofNat 64 (4 * i)).toNat = .ok (pa, pol) →
      s.psldHome x q (s.homeOf pa) (32 - i) i skip = .ok l → clean l →
      becomes { q with words := l.foldl (fun m z => Machine.put m z.row (s.loadN z.pa z.len)) q.words })

/-- R282, R290, R294 to R296, R379: a command that fails traps at its instruction, with its code, and has no effect: an empty slot (PATTERN 9),
ranks that are not to be had (NONINV 1 or 2), an image of another version or out of its limits (PATTERN 10).  Destinations that were full
are full again: R290 says that they keep their state, where R214 says that they stay empty, and that the model follows R290 is assumption
56's; that EADDR of PATTERN 9 and 10 is 0 is assumption 70's. -/
def Sys2Proof.Says.PatternFailures : Prop :=
  ∀ (s : State) (c n : Nat) (q : PgCmd) (r : List PgCmd), (s.core c).pg = q :: r → q.flights = [] → q.reads = [] →
    s.patSlot c q.task q.p = some n → (s.slot c q.slot).role = .single → (s.slot c q.slot).evec ≠ 0 →
    bitAt (s.core c).dbg.btbase 0 = false →
    let p := look {} (s.core c).pslots n
    let u := s.slot c q.slot
    let traps (cause stat : Nat) : Prop := ∃ t, exec (.patternCommandComplete c) s = .next t ∧
      let v := t.slot c q.slot
      v.ecause.toNat = cause ∧ v.estat.toNat % 2 ^ 32 = stat ∧ v.eaddr = 0 ∧ v.epc = u.pc ∧ (t.core c).pslots = (s.core c).pslots ∧ t.mem = s.mem ∧
        (q.kind = .pschk → q.d ≠ 0 → q.d < 64 → u.isPort q.d = false → bitAt v.sFull q.d = (q.full.1 || bitAt u.sFull q.d)) ∧
        (q.kind = .psgen → q.op1.toNat ≤ 30 → bitAt v.vFull q.op1.toNat = (q.full.1 || bitAt u.vFull q.op1.toNat) ∧
          bitAt v.vFull (q.op1.toNat + 1) = (q.full.2 || bitAt u.vFull (q.op1.toNat + 1)))
    (q.kind = .psgen ∨ q.kind = .pschk ∨ q.kind = .prank → p.prog = none → traps 0x0C 9) ∧
    (∀ g, p.prog = some g → p.inv = false → q.sent = false →
      q.kind = .pschk ∨ (q.kind = .psgen ∧ q.trans = true ∧ q.op1.toNat ≤ 30 ∧ 1 ≤ q.n ∧ q.n ≤ 16) →
      (p.tab = false → traps 0x0B 1) ∧ (p.tab = true → p.tc0 ≠ 0 ∨ p.tw ≠ g.c → traps 0x0B 2)) ∧
    (q.kind = .psrest → q.sent = true → q.op1.toNat % 64 = 0 →
      let dw (i : Nat) : Nat := look 0 q.words i % 2 ^ 64
      let plen := dw 16 / 2 ^ 16 % 2 ^ 8
      (dw 16 / 2 ^ 56 % 2 ^ 8 ≠ 1 → traps 0x0C 10) ∧ (dw 16 / 2 ^ 56 % 2 ^ 8 = 1 → 32 < plen → traps 0x0C 10))

/-! ### The sluice -/

/-- R109, R111, R117: in slot 15, with fewer than eight commands in the sluice and a requester that lives, every copy and reduction
instruction issues: the command takes the next number, latches its operands, the shadow registers, its requester's context and the
reduction registers, and counts into its requester's batch; END ends the open request. -/
def Sys2Proof.Says.SluiceIssues : Prop :=
  ∀ (s : State) (a b : BitVec 6) (e m f : BitVec 1), s.begun → s.free_ → s.cur.slot = 15 → s.me.readyS a → s.me.readyS b →
    let c := s.cur.core
    let x := s.myCore
    let r := s.requester c
    let op1 := s.me.scalar a
    x.slcmds.length < 8 → (∀ p, p ∈ x.slcmds → p.uid ≠ s.nextId) →
    r.live = true → (s.slot c r.slot).quiesced = false → (s.slot c r.slot).wait ≠ .dumping →
    let latched (q : SlCmd) (cmd fl : Nat) (y : W64) : Prop :=
      q.num = x.slnum ∧ q.cmd = cmd ∧ q.fl = fl ∧ q.op1 = op1 ∧ q.op2 = y ∧ q.desc = x.slsh ∧ q.slot = r.slot ∧ q.tid = r.tid ∧
      q.task = r.task ∧ q.privS = r.privS ∧ q.batch = r.batch ∧ q.root = r.root ∧ q.asp = r.asp ∧ q.srcfg = x.srcfg ∧
      q.srbase = x.srbase ∧ q.time = s.time
    let issues (i : Instr) (cmd fl : Nat) (y : W64) : Prop :=
      ∃ t, exec i s = .next t ∧ (t.thread s).pc = s.me.next.pc ∧ (t.thread s).wait = .run ∧
        (t.core c).slnum = (x.slnum + 1) % 256 ∧ (e = 1 → (t.core c).slreq.open_ = false) ∧
        (∃ q, q ∈ (t.core c).slcmds ∧ q.uid = s.nextId ∧ latched q cmd fl y) ∧
        (cmd < 6 ∨ (s.group (op1.toNat % 64)).away = [] →
          look 0 (t.slot c r.slot).bat.counts r.batch.toNat = look 0 (s.slot c r.slot).bat.counts r.batch.toNat + 1)
    let y := s.me.scalar b
    let fl := f.toNat + 4 * e.toNat
    issues (.slcopy a b e m f) 0 (fl + 2 * m.toNat) y ∧ issues (.slcopy2 a b e m f) 1 (fl + 2 * m.toNat) y ∧
    issues (.slgath a b e f) 2 fl y ∧ issues (.slscat a b e f) 3 fl y ∧ issues (.slfill a e f) 4 fl 0 ∧ issues (.slpat a e f) 5 fl 0 ∧
    issues (.slsend a b e f) 6 fl y ∧ issues (.slrecv a b e f) 7 fl y ∧ issues (.sldred a b e f) 8 fl y

/-- R48, R109: outside slot 15 a command of the sluice is ILLEGAL, with its word in EADDR. -/
def Sys2Proof.Says.SluiceOutside : Prop :=
  ∀ (s : State) (a b d : BitVec 6) (e m f : BitVec 1), s.begun → s.untraced → s.me.evec ≠ 0 → s.cur.slot ≠ 15 →
    let bad (i : Instr) : Prop := Traps i s 1 (s.cur.word.setWidth 64) 0
    bad (.slcopy a b e m f) ∧ bad (.slcopy2 a b e m f) ∧ bad (.slgath a b e f) ∧ bad (.slscat a b e f) ∧ bad (.slfill a e f) ∧
    bad (.slpat a e f) ∧ bad (.slsend a b e f) ∧ bad (.slrecv a b e f) ∧ bad (.sldred a b e f) ∧ bad (.slquiesce a b e f) ∧
    bad (.slresume a b e f) ∧ bad (.slstat d e)

/-- R111, R131 to R135: SLSTAT reads the status word; SLQUIESCE marks its slots and discards their commands, or moves them into an image;
SLRESUME restarts a stopped command, or takes an image and clears its slots' marks; at U, or under an open request stamped U, they fail
with PRIV.  That SLQUIESCE waits for writes and arrivals already sent is assumption 73's. -/
def Sys2Proof.Says.QuiesceResults : Prop :=
  ∀ (s : State) (a b d : BitVec 6) (e f : BitVec 1), s.begun → s.free_ → s.cur.slot = 15 → s.me.readyS a → s.me.readyS b → s.me.openS d →
    let c := s.cur.core
    let x := s.myCore
    let r := s.requester c
    let op1 := s.me.scalar a
    let mask := (s.me.scalar b).toNat % 2 ^ 16
    let goes (i : Instr) (effect : State → Prop) : Prop :=
      ∃ t, exec i s = .next t ∧ (t.thread s).pc = s.me.next.pc ∧ (t.thread s).wait = .run ∧ (t.core c).slnum = (x.slnum + 1) % 256 ∧
        (e = 1 → (t.core c).slreq.open_ = false) ∧ effect t
    let kept := x.slcmds.filter fun q => !Nat.testBit mask q.slot
    let marked (t : State) : Prop := ∀ k, k < 16 → Nat.testBit mask k = true → (t.slot c k).quiesced = true
    let may : Prop := s.me.privS = true ∧ (x.slreq.open_ = true → x.slreq.privS = true)
    let mayNot : Prop := (s.me.live = true ∧ s.me.privS = false) ∨ (x.slreq.open_ = true ∧ x.slreq.privS = false)
    let refused (i : Instr) : Prop := goes i fun t => (t.slot c r.slot).bat.failed = true ∧ (t.slot c r.slot).bat.status = 8 ∧
      (t.slot c r.slot).bat.fbatch = r.batch ∧ (t.core c).slcmds = x.slcmds
    r.live = true →
    goes (.slstat d e) (fun t => HoldsS s t d (s.slsts c)) ∧
    (mayNot → (s.slot c r.slot).bat.failed = false → refused (.slquiesce a b e f) ∧ refused (.slresume a b e f)) ∧
    (may → (x.slcmds.map (·.uid)).Nodup → (∀ g, g ∈ s.flights → g.core = c → g.slot < 16) →
      (∀ q, q ∈ x.slcmds → Nat.testBit mask q.slot = true → q.pend = []) →
      (f = 1 → goes (.slquiesce a b e f) (fun t => marked t ∧ (t.core c).slcmds = kept)) ∧
      (∀ locs, f = 0 → op1.toNat % 64 = 0 →
        let s1 := s.slStop c mask
        let image := s1.slImage c mask
        s1.imageLines c r op1.toNat image.length .store = .ok locs →
        (∀ l, l ∈ locs → s1.present l.pa = true ∧ s1.homeOpen c l.pa = true) →
        goes (.slquiesce a b e f) (fun t => marked t ∧ (t.core c).slcmds = kept ∧ t.mem = (s1.putLines c locs image).1.mem ∧
          ∀ m, m < 8 → (look {} (t.core c).mail m).full = ((look {} x.mail m).full && !Nat.testBit mask (look {} x.mail m).slot)))) ∧
    (may → f = 0 → ∀ q, q ∈ x.slcmds → q.stopped = true → q.num = op1.toNat % 256 → q.cmd < 6 →
      (x.slcmds.map (·.num)).Nodup → (x.slcmds.map (·.uid)).Nodup → (s.slot c q.slot).wait ≠ .dumping → (s.slot c q.slot).live = true →
      (s.slot c q.slot).task = q.task →
      goes (.slresume a b e f) (fun t => ∃ p, t.slCmd c q.uid = some p ∧ p.cmd = q.cmd ∧ p.op1 = q.op1 ∧ p.op2 = q.op2 ∧ p.desc = q.desc ∧
        (p.stopped = false ∨ p.status ≠ 0))) ∧
    (may → f = 1 → x.slMail = [] → x.slGone = [] → op1.toNat % 64 = 0 → ∀ h locs,
      s.imageLines c r op1.toNat 64 .load = .ok [h] → s.present h.pa = true → s.homeOpen c h.pa = true →
      let head := (s.readImage c 2 [h]).1
      let n := fieldAt head 0 2
      imageOk head = true → fieldAt head 2 2 = 0 → x.slcmds.length + n ≤ 8 →
      s.imageLines c r op1.toNat (16 + 96 * n) .load = .ok locs →
      (∀ l, l ∈ locs → s.present l.pa = true ∧ s.homeOpen c l.pa = true) →
      ∃ t, exec (.slresume a b e f) s = .next t ∧ (t.thread s).pc = s.me.next.pc ∧ (t.thread s).wait = .run ∧
        (t.core c).slnum = (x.slnum + n + 1) % 256 ∧
        ∀ j, j < 16 → Nat.testBit (fieldAt (s.readImage c (2 + 12 * n) locs).1 4 2) j = true →
          (t.slot c ((s.me.scalar b).toNat / 2 ^ (4 * j) % 16)).quiesced = false)

/-- R118, R119, R123, R126, R129, R175, R183: a command claims a home's lines in one step; it reads one element, sends its write and goes on,
and the write is performed at its home as an access of its own; it completes when all are moved: its arrival is sent, its lines become
present, it leaves its batch and the sluice.  How an element splits into these steps, and that a RAW element moves up to a word at once, is
assumption 10's. -/
def Sys2Proof.Says.SluiceSteps : Prop :=
  ∀ (s : State) (c n : Nat) (q : SlCmd), s.slCmd c n = some q → q.started = true → q.stopped = false → q.cut = false →
    (s.core c).dbg.freeze = false →
    (∀ h ls rest, q.toClaim = (h, ls) :: rest → (∀ x, x ∈ rest → x.1 ≠ h) → (s.core c).slcmds.head? = some q → ls ≠ [] →
      (∀ l, l ∈ ls → s.present (l * 64) = true) → s.homeOpen c (ls.headD 0 * 64) = true →
      ∃ t p, exec (.sluiceClaim c n) s = .next t ∧ t.slCmd c n = some p ∧ p.toClaim = rest ∧
        (∀ l, find t.absent l = if l ∈ ls then some (c, q.num, false) else find s.absent l) ∧ t.mem = s.mem) ∧
    (q.toClaim = [] → q.pos < q.n →
      let dst := (q.op1.toNat + q.pos * q.dw) % 2 ^ 64
      let reads (P : SlVal → Prop) : Prop :=
        ∃ t p v, exec (.sluiceElement c ⟨n, 0⟩) s = .next t ∧ t.slCmd c n = some p ∧ p.val = some v ∧ P v ∧ v.wrote = 0 ∧ p.pos = q.pos ∧
          t.mem = s.mem
      let sends : Prop := ∀ (v : SlVal) (ld : Loc), q.val = some v → v.wrote = 0 → s.slLoc c q dst .store = .ok ld →
        ∃ t p w, exec (.sluiceElement c ⟨n, 0⟩) s = .next t ∧ t.slCmd c n = some p ∧ p.pos = q.pos + v.count ∧ p.val = none ∧
          p.pend = q.pend ++ [w] ∧ w.id = s.nextId ∧ w.elem = q.pos ∧ w.val = v ∧ w.pa = ld.pa ∧ w.topinf = (s.core c).topinf ∧ t.mem = s.mem
      (q.cmd = 4 → q.dw = 1 →
        (q.val = none → reads fun v => v.count = 1 ∧ v.bits = (look 0 q.desc 7).toNat / 2 ^ (8 * ((q.op1.toNat + q.pos) % 8)) % 256) ∧
        sends) ∧
      (∀ u : Nat, q.cmd = 0 → q.fl / 2 % 2 = 0 → u = 2 ^ q.esz → q.sw = u → q.dw = u →
        (∀ ls : Loc, q.val = none → q.old = [] → q.pend = [] → s.slLoc c q ((q.op2.toNat + q.pos * u) % 2 ^ 64) .load = .ok ls → s.present ls.pa = true →
          s.homeOpen c ls.pa = true → inMemory ls.pa = true → (s.sideFmt q true ls.pa).1 = .raw →
          reads fun v => v.fmt = .raw ∧ v.count = q.span .raw ls.pa dst ∧ v.bits = s.loadN ls.pa (v.count * u)) ∧
        sends)) ∧
    (∀ (k : Nat) (w : SlWrite), q.pend[k]? = some w → (q.pend.map SlWrite.id).Nodup →
      (∀ p, p ∈ q.pend.take k → s.homeOf p.pa ≠ s.homeOf w.pa) → s.present w.pa = true → s.homeOpen c w.pa = true → inMemory w.pa = true →
      s.discards c w.topinf w.pa = false → (∀ g, g ∈ s.flights → g.order = none) →
      (q.cmd = 4 ∧ q.dw = 1) ∨ (q.cmd = 0 ∧ q.sw = 2 ^ q.esz ∧ q.dw = q.sw ∧ w.val.fmt = .raw ∧ (s.sideFmt q false w.pa).1 = .raw) →
      ∃ t p, exec (.sluiceElement c ⟨n, k + 1⟩) s = .next t ∧ t.slCmd c n = some p ∧ p.pend = q.pend.filter (fun p => p.id != w.id) ∧
        p.pos = q.pos ∧ Stored s t w.pa (w.val.count * q.dw) w.val.bits) ∧
    (q.cmd < 6 → q.toClaim = [] → q.n ≤ q.pos → q.pend = [] →
      let own := s.slot c q.slot
      ∃ t, exec (.sluiceComplete c n) s = .next t ∧ (t.core c).slcmds = (s.core c).slcmds.filter (fun p => p.uid != q.uid) ∧
        t.absent = s.absent.filter (fun p => !(q.claimed.contains p.1 && p.2 == (c, q.num, false))) ∧ t.mem = s.mem ∧
        (q.fl % 2 = 0 ∨ q.bar = none → t.flights = s.flights) ∧
        (∀ pa, q.fl % 2 = 1 → q.bar = some pa →
          ∃ f, t.flights = s.flights ++ [f] ∧ f.op = .bararr (s.slBytes c q) ∧ f.pa = pa ∧ f.size = 16) ∧
        (own.tid = q.tid →
          (t.slot c q.slot).bat.flags = own.bat.flags ||| q.flags ∧
          look 0 (t.slot c q.slot).bat.counts q.batch.toNat = look 0 own.bat.counts q.batch.toNat - 1))

/-! ### Reduction groups and weirs -/

/-- R311, R314, R315: RGOPEN takes a free group with its members and waits for the weirs; the set-up opens it; RGCLOSE closes an idle group;
RGSTAT reads the status word of any group. -/
def Sys2Proof.Says.GroupResults : Prop :=
  (∀ (s : State) (a b d n : BitVec 6) (i : BitVec 1), s.begun → s.me.role = .single → s.me.readyS a → s.me.readyS b → s.me.openS d →
    let g := (s.me.scalar a).toNat
    let v := s.me.scalar b
    let members := (keys s.cores).filter fun c => coreExists c && bitAt (s.core c).srgrp g
    (s.me.privS = true → g ≤ 63 → v.toNat < 2 ^ 24 → v.toNat / 2 ^ 13 % 8 = 0 → bitAt v 12 = true ∨ coreExists (v.toNat % 2 ^ 12) = true →
      (s.group g).open_ = false → (s.group g).members = [] → members ≠ [] →
      ∃ t, exec (.rgopen a b) s = .next t ∧ t.thread s = { s.me with wait := .busy 3 (.rgopen g), word := s.cur.word } ∧
        t.group g = { root := v.toNat % 2 ^ 12, bcast := bitAt v 12, peers := v.toNat / 2 ^ 16 % 2 ^ 8, members := members }) ∧
    (∀ w, s.me.privS = true → w = (if i = 1 then n.toNat else (s.me.scalar n).toNat) → i = 1 ∨ s.me.readyS n → w ≤ 63 →
      (s.group w).open_ = true → (s.group w).running = [] → s.groupBusy w = false →
      ∃ t, exec (.rgclose n i) s = .next t ∧ Passed s t s.me.next.pc all ∧ t.group w = {}) ∧
    (g ≤ 63 →
      let x := s.group g
      CompletesS (.rgstat d a) s d (if x.open_ = false then 0 else BitVec.ofNat 64
        (1 + (if x.bcast then 2 else 0) + x.members.length * 2 ^ 8 + x.root * 2 ^ 20 +
          (x.completed + (x.rounds.filter fun r => x.roundDone r.2).length) % 2 ^ 16 * 2 ^ 32 +
          (if x.stalled then 2 ^ 48 else 0))))) ∧
  (∀ (s : State) (c k code g : Nat), (s.slot c k).wait = .busy code (.rgopen g) →
    ∃ t, exec (.groupSetupComplete c k) s = .next t ∧ (t.group g) = { s.group g with open_ := true } ∧
      (t.slot c k).wait = .run ∧ (t.slot c k).pc = (s.slot c k).next.pc)

/-- R303, R304, R308, R309, R312, R321: a weir merges the next window that both its inputs have passed, index by index, left plus right; a
round that every member has sent and every receiver taken completes; an expired watchdog cuts a round; a full buffer of 64 entries holds its
sender.  That a buffer which one unfinished window fills takes the rest of that window is assumption 71's. -/
def Sys2Proof.Says.WeirSteps : Prop :=
  (∀ (s : State) (g k n a b q : Nat) (r : Round), find (s.group g).rounds k = some r → (s.group g).open_ = true → r.cut = false →
    (s.group g).inOrder k n = true → (s.group g).inputs n = some (a, b) → n < 0x400000 → (s.group g).fed n = true →
    n ≠ moduleStream → a ≠ n → b ≠ n → a ≠ moduleStream → b ≠ moduleStream → (s.group g).fed a = true → (s.group g).fed b = true → a ≠ b →
    let l := look {} r.streams a
    let m := look {} r.streams b
    let o := look {} r.streams n
    o.ended = false → o.wins = [] → s.buffered n = 0 → nextWin (l.from_ o.floor) (m.from_ o.floor) = some q → l.passed q = true → m.passed q = true →
    ∃ t, exec (.weirMerge g k n) s = .next t ∧
      let y := look {} (t.round g k).streams n
      y.floor = q + 1 ∧ y.ended = false ∧ find (look {} (t.round g k).streams a).wins q = none ∧
      find (look {} (t.round g k).streams b).wins q = none ∧
      ∀ i, i < 64 → find (look (false, []) y.wins q).2 i =
        match find (look (false, []) l.wins q).2 i, find (look (false, []) m.wins q).2 i with
        | some u, some v => some (weirAdd r.mode u v).1
        | some u, none => some u
        | none, some v => some v
        | none, none => none) ∧
  (∀ (s : State) (g k : Nat) (r : Round), find (s.group g).rounds k = some r → r.cut = false → r.reqs ≠ [] →
    (∀ c, c ∈ (s.group g).members → c ∈ r.sent) → (∀ c, c ∈ (s.group g).receivers r → c ∈ r.taken) →
    ∃ t, exec (.roundComplete g k) s = .next t ∧ (t.group g).rounds = del (s.group g).rounds k ∧
      (t.group g).completed = (s.group g).completed + 1) ∧
  (∀ (s : State) (c n k : Nat) (q : SlCmd), s.slCmd c n = some q → 6 ≤ q.cmd → q.cmd ≤ 8 → q.round = some k → q.cut = false →
    (q.srcfg.toNat / 2 ^ 48 ≠ 0 → q.time + q.srcfg.toNat / 2 ^ 48 * 65536 ≤ s.time → (s.round (q.op1.toNat % 64) k).cut = false →
      ∃ t, exec (.watchdogExpiry c n) s = .next t ∧ (t.round (q.op1.toNat % 64) k).cut = true ∧
        Nat.testBit (t.round (q.op1.toNat % 64) k).flags 6 = true) ∧
    (q.cmd ≠ 7 → q.held ≠ s.leafFull c (look {} (s.round (q.op1.toNat % 64) k).streams c) →
      ∃ t p, exec (.weirHold c n) s = .next t ∧ t.slCmd c n = some p ∧ p = { q with held := !q.held }))

/-! ### The module, the host and the peers -/

/-- R424, R425, R452: a module reset zeroes every scratchpad and column, sets every word full and every line present, ends every thread and
task, and returns LEVEL to 0; a raise lifts LEVEL by one up to 3, from 0 only with firmware whose signature verifies and whose version is at
least the fused rollback counter. -/
def Sys2Proof.Says.ResetAndLevels : Prop :=
  (∀ s : State, ∃ t, exec .moduleReset s = .next t ∧ t.mem = [] ∧ t.empty = [] ∧ t.absent = [] ∧ t.cores = [] ∧ t.hubs = [] ∧ t.dies = [] ∧
    t.groups = [] ∧ t.flights = [] ∧ t.msgs = [] ∧ t.level = 0 ∧ t.out = s.out ∧ t.lost = s.lost ∧
    (∀ c k, (t.slot c k).live = false) ∧ ∀ a, readByte t.mem a = 0 ∧ t.fullAt a = true ∧ t.present a = true) ∧
  (∀ s : State, s.level = 1 ∨ s.level = 2 → s.fwok = true →
    ∃ t, exec .bringupLevelRaise s = .next t ∧ t.level = s.level + 1 ∧ { t with level := 0, watts := 0, free := 0 } = { s with level := 0, watts := 0, free := 0 }) ∧
  (∀ s : State, s.level = 3 → exec .bringupLevelRaise s = .next s) ∧
  (∀ s : State, s.level = 0 →
    ∃ t, exec .bringupLevelRaise s = .next t ∧ t.mem = s.mem ∧
      let good := Config.hssOk && decide (Config.rollback ≤ Config.fwVersion.toNat)
      t.fwok = good ∧ t.level = (if good = true then 1 else 0) ∧ (good = true → t.fwver = Config.fwVersion))

/-- R403, R404, R420, R424: a peer window has a home while its link has trained and both ends are open; the first rail lost degrades a
link, a second takes it down; a far port comes up with its capacity and goes down. -/
def Sys2Proof.Says.LinkEvents : Prop :=
  ∀ (s : State) (p rail : Nat) (serial : BitVec 16) (gib : BitVec 11),
    let q := look ({} : Peer) s.peer p
    let other (t : State) : Prop := t.mem = s.mem ∧ t.cores = s.cores ∧ t.flights = s.flights
    (p < 8 → s.railsOf p < 2 →
      ∃ t, exec (.peerLinkUp p serial) s = .next t ∧ other t ∧
        look {} t.peer p = { q with trained := true, openThere := true, remote := serial, up := q.openHere }) ∧
    (p < 8 → ∃ t, exec (.remoteOpenClear p) s = .next t ∧ other t ∧ look {} t.peer p = { q with openThere := false, up := false }) ∧
    (rail < 5 → s.lost.contains (p * 8 + rail) = false → s.railsOf p = 0 →
      ∃ t, exec (.railLoss p rail) s = .next t ∧ other t ∧ p * 8 + rail ∈ t.lost ∧ t.relRails = min 255 (s.relRails + 1) ∧ t.relDegr = true ∧
        t.relRepl = true ∧ (look {} t.peer p).up = q.up) ∧
    (rail < 5 → s.lost.contains (p * 8 + rail) = false → s.railsOf p = 1 →
      ∃ t, exec (.linkDown p rail) s = .next t ∧ other t ∧ p * 8 + rail ∈ t.lost ∧ t.relLinkdn = true ∧
        (p < 8 → (look {} t.peer p).trained = false ∧ (look {} t.peer p).up = false)) ∧
    (p < 4 → gib.toNat ≤ 1024 → ∃ t, exec (.farPortUp p gib) s = .next t ∧ other t ∧ look {} t.far p = { up := true, gib := gib.toNat }) ∧
    (p < 4 → (look ({} : Far) s.far p).up = true →
      ∃ t, exec (.farPortDown p) s = .next t ∧ other t ∧ (look {} t.far p).up = false ∧ t.relLinkdn = true)

/-- R359, R417 to R419, R424: what the host does to the module: a CXL access reads or writes one line's bytes of memory, once its line is
present and its home takes it, and one with no home reads all ones, poisoned, and counts; a write to a launch window queues a valid record or is refused and counted; the management window
reads and writes the registers of a core, a die, a hub or the module. -/
def Sys2Proof.Says.HostAccesses : Prop :=
  (∀ (s : State) (x n : Nat) (l : List (BitVec 8)), 0 < n → x % 64 + n ≤ 64 →
    (2 ^ 48 ≤ x ∨ s.homeOf x = none →
      (∃ t, exec (.cxlMemAccess x n none) s = .next t ∧ t.hosterr = s.hosterr + 1 ∧
        t.out = s.out ++ [{ port := 9, kind := .answer, addr := x, bytes := List.replicate n 0xFF, poison := true }] ∧ t.mem = s.mem) ∧
      ∃ t, exec (.cxlMemAccess x n (some l)) s = .next t ∧ t.hosterr = s.hosterr + 1 ∧ t.mem = s.mem) ∧
    (x < 2 ^ 48 → (s.homeOf x).isSome = true → inMemory x = true →
      (s.extReady x (.host x n none) = true → s.sound x n → ∃ t, exec (.cxlMemAccess x n none) s = .next t ∧
        t.out = s.out ++ [{ port := 9, kind := .answer, addr := x, bytes := readBytes s.mem x n, poison := false }] ∧ t.mem = s.mem) ∧
      (s.extReady x (.host x n (some l)) = true → l.length = n → (∀ f, f ∈ s.flights → f.order = none) →
        ∃ t, exec (.cxlMemAccess x n (some l)) s = .next t ∧
          ∀ a, readByte t.mem a = if x ≤ a ∧ a < x + n then l.getD (a - x) 0 else readByte s.mem a))) ∧
  (∀ (s : State) (pa h off : Nat) (l : List (BitVec 8)), regionOf pa = .launch h off →
    (s.served (h / 64) = false → ∃ t, exec (.launchWindowWrite pa l) s = .next t ∧ t.hosterr = s.hosterr + 1 ∧ t.hubs = s.hubs) ∧
    (s.served (h / 64) = true →
      (l.length ≠ 64 ∨ off % 64 ≠ 0 ∨ recordOk l = false →
        ∃ t, exec (.launchWindowWrite pa l) s = .next t ∧ (t.hub h).drops = min 65535 ((s.hub h).drops + 1) ∧ (t.hub h).bank = (s.hub h).bank) ∧
      (l.length = 64 → off % 64 = 0 → recordOk l = true → recSib l = false → recCore l / 16 = h → (s.hub h).bank.length < 256 →
        ∃ t, exec (.launchWindowWrite pa l) s = .next t ∧ (t.hub h).drops = (s.hub h).drops ∧
          (t.hub h).bank = (s.hub h).bank ++ [⟨l, s.time, (s.hub h).lroot, (s.hub h).laspace, []⟩]))) ∧
  (∀ (s : State) (c n : Nat) (num : BitVec 14) (v : W64),
    let answer (t : State) (l : List (BitVec 8)) : Prop := ∃ x, t.out = s.out ++ [{ port := 9, kind := .answer, addr := x, bytes := l, poison := false }]
    (n ≠ 8 ∨ mgmtReaches c num.toNat = false →
      (∃ t, exec (.managementWindowAccess c num n none) s = .next t ∧ answer t (natLe n 0) ∧ t.cores = s.cores) ∧
      exec (.managementWindowAccess c num n (some v)) s = .next s) ∧
    (n = 8 → mgmtReaches c num.toNat = true →
      (∃ t, exec (.managementWindowAccess c num n none) s = .next t ∧ answer t (natLe 8 (s.sharedReg c num.toNat).toNat)) ∧
      (num = 0x324 → ∃ t, exec (.managementWindowAccess c num n (some v)) s = .next t ∧ (t.hub (c / 16)).laspace = v.setWidth 16)))

/-- R322, R420: a peer's read, write and atomic reach this module's memory, and one with no home answers all ones, poisoned; an entry
of a round's stream (a sparse pair, or a dense header with its values, masked or not) and its end reach the stream of their port while
its buffer of 64 words has room for them. -/
def Sys2Proof.Says.PeerAccesses : Prop :=
  (∀ (s : State) (p x n : Nat) (l : List (BitVec 8)) (ti : Bool) (src : BitVec 12), 0 < n → x % 64 + n ≤ 64 → l.length = n →
    let answer (t : State) (b : List (BitVec 8)) (bad : Bool) : Prop := t.out = s.out ++ [{ port := 10 + p, kind := .answer, addr := x, bytes := b, poison := bad }]
    (s.homeOf x = none →
      ∃ t, exec (.peerAccess p (.read x n)) s = .next t ∧ answer t (List.replicate n 0xFF) true ∧ t.mem = s.mem) ∧
    ((s.homeOf x).isSome = true → inMemory x = true →
      (s.extReady x (.peer p (.read x n)) = true → s.sound x n → ∃ t, exec (.peerAccess p (.read x n)) s = .next t ∧ answer t (readBytes s.mem x n) false ∧ t.mem = s.mem) ∧
      (s.extReady x (.peer p (.write x l ti src)) = true → s.discards 4096 ti x = false → (∀ f, f ∈ s.flights → f.order = none) →
        ∃ t, exec (.peerAccess p (.write x l ti src)) s = .next t ∧
          ∀ a, readByte t.mem a = if x ≤ a ∧ a < x + n then l.getD (a - x) 0 else readByte s.mem a) ∧
      (∀ (op : BitVec 4) (b c : W64), n = 8 → x % 8 = 0 → op.toNat ≤ 9 → s.extReady x (.peer p (.atomic x op true b c ti src)) = true →
        s.sound x 8 → s.discards 4096 ti x = false →
        let m : W64 := BitVec.ofNat 64 (s.loadN x 8)
        ∃ t, exec (.peerAccess p (.atomic x op true b c ti src)) s = .next t ∧ answer t (readBytes s.mem x 8) false ∧
          match atomic op.toNat m b c with
          | some v => Stored s t x 8 v.toNat
          | none => t.mem = s.mem))) ∧
  (∀ (s : State) (p g k : Nat) (h : W64) (vs : List W64), (s.group g).open_ = true → (s.round g k).cut = false →
    let was := look {} (s.round g k).streams (peerStream p)
    was.hdr = none → s.buffered (peerStream p) ≤ 64 → s.badFlits.contains p = false →
    let base := h.toNat / 2 ^ 32 % 2 ^ 30
    let n := h.toNat % 2 ^ 16
    let half (w : W64) (j : Nat) : W32 := w.extractLsb' (32 * (j % 2)) 32
    let holds (t : State) (i : Nat) (v : W32) : Prop :=
      find (look (false, []) (look {} (t.round g k).streams (peerStream p)).wins (i / 64)).2 (i % 64) = some v
    (∃ t, exec (.peerAccess p (.streamEnd g k)) s = .next t ∧
      look {} (t.round g k).streams (peerStream p) = { was with ended := true } ∧ t.mem = s.mem) ∧
    (h.toNat / 2 ^ 62 = 0 → s.buffered (peerStream p) < 64 →
      ∃ t, exec (.peerAccess p (.entry g k [h])) s = .next t ∧ holds t base (half h 0) ∧ t.mem = s.mem) ∧
    (h.toNat / 2 ^ 62 = 1 → bitAt h 16 = false → vs.length = (n + 1) / 2 → s.buffered (peerStream p) + vs.length < 64 →
      ∃ t, exec (.peerAccess p (.entry g k (h :: vs))) s = .next t ∧ t.mem = s.mem ∧
        ∀ j, j < n → holds t (base + j) (half (vs.getD (j / 2) 0) j)) ∧
    (h.toNat / 2 ^ 62 = 1 → bitAt h 16 = true → base % 64 = 0 → vs.length = n / 64 * 33 → s.buffered (peerStream p) + vs.length < 64 →
      ∃ t, exec (.peerAccess p (.entry g k (h :: vs))) s = .next t ∧ t.mem = s.mem ∧
        ∀ w j, w < n / 64 → j < 64 → bitAt (vs.getD (33 * w) 0) j = true →
          holds t (base + 64 * w + j) (half (vs.getD (33 * w + 1 + j / 2) 0) j)))

/-- R425: every SPDM request of the host is answered, and changes nothing else; the device offers LMS with SHA-256, and its measurements
cover the boot ROM, the firmware with its version, the fuses with the rollback counter, and BRINGUP; the bytes are the firmware's,
which the manual leaves open. -/
def Sys2Proof.Says.IdentityRequests : Prop :=
  ∀ (s : State) (a b : Nat) (n : BitVec 256) (i : Instr),
    i = .getVersion ∨ i = .getCapabilities ∨ i = .negotiateAlgorithms ∨ i = .getDigests ∨ i = .getCertificate a b ∨ i = .challenge n ∨
      i = .getMeasurements n →
    ∃ t l, exec i s = .next t ∧ t.spdm = s.spdm ++ [l] ∧ { t with spdm := [], free := 0 } = { s with spdm := [], free := 0 } ∧
      (i = .negotiateAlgorithms → l.offers = [.lmsSha256]) ∧
      (i = .getMeasurements n → l.covers = [.bootRom, .firmware s.fwver, .fuses Config.rollback, .bringup (s.moduleReg 0 0x380)])

/-- R399, R402, R406, R407, R414 to R416: a sampling pulse takes the next sequence number once; a scrub corrects a granule's single-bit errors
and poisons it for a double one, and corrects and counts an error of one bit in a tile, an accumulator, a mailbox or a register, where one
of more keeps its mark and sets RELSTAT's UEEV; a dump that has drained counts, and lets its thread go on. -/
def Sys2Proof.Says.ObservationEvents : Prop :=
  (∀ s : State, s.pulseDue = true →
    ∃ t, exec .samplingPulse s = .next t ∧ t.smpSeq = s.smpSeq + 1 ∧ t.smpAt = some s.time ∧ t.pulseDue = false ∧
      ((∀ d, d < 4 → s.served d = true → (s.die d).smpbuf.toNat % 2 ^ 16 = 0) → t.mem = s.mem ∧ t.cores = s.cores)) ∧
  (∀ s : State, s.pulseDue = false → exec .samplingPulse s = .next s) ∧
  (∀ (s : State) (pa : Nat),
    ∃ t, exec (.scrub (.memory pa)) s = .next t ∧ t.mem = s.mem ∧ t.latent = s.latent.filter (fun g => g.1 != pa / 8) ∧
      ((pa / 8, true) ∈ s.latent → t.poisoned pa 1 = true) ∧
      (∀ a, a / 8 ≠ pa / 8 → t.poisoned a 1 = s.poisoned a 1)) ∧
  (∀ (s : State) (c k n w : Nat) (m i : Nat) (g : Granule) (hit : Option Bool),
    (g = .engine c n ∧ hit = find (s.core c).engErr n) ∨ (g = .mailbox c m w ∧ hit = find (look {} (s.core c).mail m).err w) ∨
      (g = .shared c n ∧ hit = find (s.core c).gErr n) ∨ (g = .register c k n ∧ hit = find (s.slot c k).rErr n) ∨
      (g = .scalar c k n ∧ hit = if bitAt (s.slot c k).sErr n then some false else none) ∨
      (g = .vector c k n i ∧ hit = if (s.slot c k).vErr.contains (8 * n + i) then some false else none) →
    ∃ t, exec (.scrub g) s = .next t ∧ t.mem = s.mem ∧ t.relCe = (if hit = some false then s.relCe + 1 else s.relCe) ∧
      t.relUeev = (s.relUeev || hit == some true) ∧ (hit = none → t = s) ∧
      (hit = some false → (g = .engine c n → find (t.core c).engErr n = none) ∧
        (g = .mailbox c m w → find (look {} (t.core c).mail m).err w = none) ∧ (g = .shared c n → find (t.core c).gErr n = none) ∧
        (g = .register c k n → find (t.slot c k).rErr n = none) ∧ (g = .vector c k n i → 8 * n + i ∉ (t.slot c k).vErr) ∧ (g = .scalar c k n → bitAt (t.slot c k).sErr n = false))) ∧
  (∀ (s : State) (c : Nat) (j : DumpJob), (s.core c).dump = some j → s.dumpDrained c j = true →
    (∀ f, f ∈ s.flights → f.order = none) →
    ∃ t, exec (.dump c) s = .next t ∧ (t.core c).dump = none ∧ (t.core c).dumpDone = (s.core c).dumpDone + 1 ∧
      (j.ended = false → (s.slot c j.slot).wait = .dumping → (t.slot c j.slot).wait = .run ∧ (t.slot c j.slot).pc = (s.slot c j.slot).pc))

/-! ### The machine as a whole -/

/-- R17, R48: every well-formed encoded instruction has a word, and the decoder gives it back. -/
def Sys2Proof.Says.RoundTrip : Prop :=
  ∀ i : Instr, i.encoded = true → i.wf = true → ∃ w, encode i = some w ∧ decode w = some i

/-- R17, R48: a word that decodes stands for one well-formed instruction, whose encoding is that word; no bit of it is ignored. -/
def Sys2Proof.Says.Unambiguous : Prop :=
  ∀ (w : BitVec 32) (i : Instr), decode w = some i → encode i = some w ∧ i.encoded = true ∧ i.wf = true

/-- Words that the manual writes out, and what they stand for; words that it calls illegal. -/
def Sys2Proof.Says.ManualWords : Prop :=
  decode 0x04518700 = some (.add 5 6 7) ∧ decode 0x04310013 = some (.clz 3 4) ∧ decode 0x24312005 = some (.srai 3 4 5) ∧
  decode 0x60515800 = some (.ldD 5 5 0) ∧ decode 0x0C61BFFF = some (.addi 6 6 0x3FFF) ∧ decode 0x47FFFFFF = some (.br 0x3FFFFFF) ∧
  decode 0x3C000500 = some (.trap 5) ∧ decode 0x84642A00 = some (.vfadd 3 4 5 2) ∧ decode 0x80611017 = some (.vceq 3 1 2 0) ∧
  decode 0x88C7004A = some (.vcvt 6 7 0 1 2) ∧ decode 0xA01128B1 = none ∧ decode 0x00000000 = none ∧ decode 0xFFFFFFFF = none

/-- No instruction and no event stops the model: each answers a next state, from every state. -/
def Sys2Proof.Says.EverythingRuns : Prop := ∀ (i : Instr) (s : State), ∃ t, exec i s = .next t

/-- R17, R67, R327, R329: when the next choice is a core's turn and its next slot's thread is neither halted nor in a stream, no breakpoint
matches, and its PC translates to a place whose line is present, sound and not cached, and whose home takes the read, the step carries out the instruction that the
word there decodes to, an undecodable one as ILLEGAL, in a state that differs only by the fetch; and then notes the issue. -/
def Sys2Proof.Says.StepRunsDecoded : Prop :=
  ∀ (s : State) (c k : Nat) (r : List Choice) (l : Loc) (w : BitVec 32), s.agenda = .issue c k :: r →
    let u : State := { s with agenda := r }
    let t := s.slot c k
    u.nextSlot c = some k → t.inStream = false → t.halted = false → bpMatch (s.core c).dbg t.nextPc = false → t.pc.toNat < 2 ^ 57 →
    s.translate { core := c, task := t.task, root := t.ptroot, asp := t.aspace.toNat, privS := t.privS } t.pc.toNat .fetch = .ok l →
    (s.core c).icache.find? (fun b => b.asp == t.aspace.toNat && b.blk == t.pc.toNat / 64) = none →
    (s.homeOf l.pa).isSome = true → s.present l.pa = true → s.homeTakes c l.pa t.queued = true → inMemory (l.pa / 64 * 64) = true →
    s.flitSound c l.pa →
    s.sound (l.pa / 64 * 64) 64 → t.pc.toNat % 4 = 0 → l.pa % 64 = t.pc.toNat % 64 → w.toNat = s.loadN l.pa 4 →
    ∃ v : State, step s = v.settle c k (exec (match decode w with | some i => i | none => .illegal w) v) ∧
      v.cur = { core := c, slot := k, word := w } ∧
      (∀ d j, v.slot d j = if (d, j) = (c, k) then { t with entering := false, queued := none } else s.slot d j) ∧
      { v with cores := [], cur := {}, free := 0 } = { u with cores := [], cur := {}, free := 0 } ∧
      ∀ d, { v.core d with slots := [], icache := [], pmc := [], arrivals := [] } = { s.core d with slots := [], icache := [], pmc := [], arrivals := [] }

/-- R327, R329: what a step leaves of an instruction that did not park: the issue takes the core's turn, and memory, accesses and the thread's
registers stand as the instruction left them. -/
def Sys2Proof.Says.StepKeepsResult : Prop :=
  ∀ (s t : State) (c k : Nat) (i : Instr), exec i s = .next t → (∀ n e, (t.slot c k).wait ≠ .park n e) →
    (∀ n u l, (t.slot c k).wait ≠ .busy n (.yield u l)) →
    ∃ v, s.settle c k (exec i s) = .next v ∧ v.mem = t.mem ∧ v.flights = t.flights ∧ (v.core c).last = k ∧ v.epoch = t.epoch + 1 ∧
      (v.slot c k).pc = (t.slot c k).pc ∧ (v.slot c k).sr = (t.slot c k).sr ∧ (v.slot c k).wait = (t.slot c k).wait ∧
      (v.slot c k).vr = (t.slot c k).vr ∧ (v.slot c k).privS = (t.slot c k).privS

/-- A step whose next choice is an event carries that event out. -/
def Sys2Proof.Says.StepRunsEvent : Prop :=
  ∀ (s t : State) (i : Instr) (r : List Choice), s.agenda = .event i :: r → exec i { s with agenda := r } = .next t →
    step s = .next { t with epoch := t.epoch + 1 }

/-- Memory's canonical form: rising addresses, and no byte listed that an unlisted address reads as. -/
def Sys2Proof.Says.MemoryInvariant : Prop :=
  ∀ s t : State, Memory.wf s.mem = true → step s = .next t → Memory.wf t.mem = true

/-- R80, R218, R219, R404, R406, R419, R424, R452: the machine after module reset. -/
def Sys2Proof.Says.ResetState : Prop :=
  let s := State.reset
  Memory.wf s.mem = true ∧ (∀ a, readByte s.mem a = 0 ∧ s.fullAt a = true ∧ s.present a = true) ∧ s.level = 0 ∧ s.time = 0 ∧
    (∀ d, s.cyc d = 1 ∧ (s.die d).freq = 0 ∧ (s.die d).stepCount = 0 ∧ (s.die d).newest = 0 ∧ (s.die d).steplog = []) ∧
    (∀ n, look 0 s.hmap n = 0) ∧ s.relCe = 0 ∧ s.relUe = 0 ∧ s.relRails = 0 ∧ s.relLinkdn = false ∧ s.relDegr = false ∧ s.relUeev = false ∧
    s.relRepl = false ∧ s.smpInterval = 0 ∧ s.hosterr = 0 ∧ s.hostwin = 0 ∧ (∀ c k, (s.slot c k).live = false) ∧ s.flights = [] ∧
    (∀ c h, (s.taskOf c h).live = false) ∧ ∀ g, (s.group g).open_ = false

/-! ### Frames -/

/-- R197, R216: what the instructions of tasks, channels, sluices, polders and groups leave alone, whether they complete, wait or trap:
registers of their thread but their destination, the trap registers unless they trap, every other thread's registers (scalar ones, where
the instruction answers no other thread and its own goes on), tiles, accumulators, their shapes, matrix commands, pattern slots, shared
registers, and memory but for the block of TMAKE, the directory entry of PJOIN and PLEAVE. -/
def Sys2Proof.Says.RestUnchanged : Prop :=
  ∀ (s t : State) (i : Instr) (a b d : BitVec 6) (o : BitVec 14) (m : BitVec 3) (x y z : BitVec 1), s.begun → s.me.readyS a → s.me.readyS b →
    s.me.live = true → (∀ n w, s.me.wait ≠ .busy n w) → exec i s = .next t →
    (i ∈ [.retv a, .quit, .migr a, .chpub, .chsync, .chunsub, .chclose, .chleaveIf a o, .chrdv o] →
      Leaves s t True (fun _ => False) (fun _ => False)) ∧
    (i ∈ [.spawn a, .tdec a, .yield, .sleep a, .tlbinv a b, .qret, .mbsend m a, .rgopen a b, .rgclose a x, .slcopy a b x y z,
        .slcopy2 a b x y z, .slgath a b x y, .slscat a b x y, .slfill a x y, .slpat a x y, .slsend a b x y, .slrecv a b x y,
        .sldred a b x y, .slquiesce a b x 1, .slresume a b x y] →
      Leaves s t False (fun _ => False) (fun _ => False)) ∧
    (i ∈ [.callat d a, .slstat d x, .pquery d a, .rgstat d a] → Leaves s t False (· = d) (fun _ => False)) ∧
    (i ∈ [.chsub a, .chresub a o] → Leaves s t True (· = a) (fun _ => False)) ∧
    (i = .mbtake a m → Leaves s t False (fun n => a.toNat ≤ n.toNat ∧ n.toNat < a.toNat + 8) (fun _ => False)) ∧
    (i = .tmake d a b → Leaves s t False (· = d)
      (fun p => ∃ l, s.resolve s.myCtx (s.me.scalar a) .atomic = .ok l ∧ l.pa ≤ p ∧ p < l.pa + 128)) ∧
    (i = .pjoin a b →
      let e := s.myDir.toNat + 512 * (s.me.scalar a).toNat
      Leaves s t False (fun _ => False) (fun p => e ≤ p ∧ p < e + 512)) ∧
    (i = .pleave → Leaves s t False (fun _ => False) (fun p => ∃ q j, (s.taskOf s.cur.core s.me.task).member = some (q, j) ∧
      s.myDir.toNat + 512 * q ≤ p ∧ p < s.myDir.toNat + 512 * q + 512))

/-- R13, R216: the events that write registers outside the threads, move clocks, carry messages and end waits leave every thread's registers
(but for the fills that a pair's trailing thread takes as it goes on, R397), its trap registers and every byte of memory alone. -/
def Sys2Proof.Says.EventsLeaveThreads : Prop :=
  ∀ (s t : State) (i : Instr) (c k n : Nat) (v : W64) (d : BitVec 2) (p : BitVec 3) (temp : BitVec 8), exec i s = .next t →
    i ∈ [.slreqWrite v, .qringWrite v, .prpostWrite v, .smpbufWrite d v, .peerstatOpenWrite p v, .hostwinWrite v,
      .tadjWrite v, .tfreqWrite v, .timeSlew, .fcapWrite d v, .frequencyStep n, .newClockStart n, .thermalThrottle n temp,
      .throttleStep n, .thermalTrip n temp, .yieldExpiry c k, .sleepWake c k, .walkComplete c k, .ringRefill c, .polderWindowUpdate n,
      .queueEntryArrival c k, .bundleArrival c k, .channelHold c k, .departureReport c k, .clockCrossingRelock c k, .tlbShootdown n,
      .preempt n, .fmtmismatchRecord n, .dbgResume c k, .step c k,
      .groupSetupComplete c k, .hmapWrite c k, .pdirbaseWrite c k, .roundComplete c k, .weirMerge c k n, .weirHold c n] →
    (∀ c k, (s.noLanding c k = true → (t.slot c k).registers = (s.slot c k).registers) ∧ (t.slot c k).saved = (s.slot c k).saved) ∧
      ∀ a, readByte t.mem a = readByte s.mem a

/-- R327: a core issues only from a slot whose thread lives, waits for no event and is held by no dump. -/
def Sys2Proof.Says.IssuedThreadsRun : Prop :=
  ∀ (s : State) (c k : Nat), s.nextSlot c = some k → (s.slot c k).goesOn ∧ k < 16 ∧ ∀ n w, (s.slot c k).wait ≠ .busy n w

/-! ### Words of the scalar majors -/

/-- R22, R48, R222: the words of major 0x01, and those of it that are illegal. -/
def Sys2Proof.Says.IntegerWords : Prop :=
  (∀ d a b : BitVec 6,
    let w (b : BitVec 6) (fn : Nat) : BitVec 32 := BitVec.ofNat 32 (0x01 * 2 ^ 26 + d.toNat * 2 ^ 20 + a.toNat * 2 ^ 14 + b.toNat * 2 ^ 8 + fn)
    decode (w b 0x00) = some (.add d a b) ∧ decode (w b 0x01) = some (.sub d a b) ∧ decode (w b 0x02) = some (.and d a b) ∧
    decode (w b 0x03) = some (.or d a b) ∧ decode (w b 0x04) = some (.xor d a b) ∧ decode (w b 0x05) = some (.andn d a b) ∧
    decode (w b 0x06) = some (.sll d a b) ∧ decode (w b 0x07) = some (.srl d a b) ∧ decode (w b 0x08) = some (.sra d a b) ∧
    decode (w b 0x09) = some (.rol d a b) ∧ decode (w b 0x0A) = some (.ror d a b) ∧ decode (w b 0x0B) = some (.slt d a b) ∧
    decode (w b 0x0C) = some (.sltu d a b) ∧ decode (w b 0x0D) = some (.min d a b) ∧ decode (w b 0x0E) = some (.max d a b) ∧
    decode (w b 0x0F) = some (.minu d a b) ∧ decode (w b 0x10) = some (.maxu d a b) ∧ decode (w b 0x11) = some (.addw d a b) ∧
    decode (w b 0x12) = some (.subw d a b) ∧ decode (w 0 0x13) = some (.clz d a) ∧ decode (w 0 0x14) = some (.ctz d a) ∧
    decode (w 0 0x15) = some (.popc d a) ∧ decode (w 0 0x16) = some (.sextb d a) ∧ decode (w 0 0x17) = some (.sexth d a) ∧
    decode (w 0 0x18) = some (.sextw d a)) ∧
  ∀ w : BitVec 32, w.toNat / 2 ^ 26 = 0x01 →
    0x19 ≤ w.toNat % 2 ^ 8 ∨ (0x13 ≤ w.toNat % 2 ^ 8 ∧ w.toNat / 2 ^ 8 % 2 ^ 6 ≠ 0) → decode w = none

/-- R48, R223, R224, R228: the words of majors 0x03 to 0x0A, and those of major 0x09 that are illegal. -/
def Sys2Proof.Says.ImmediateWords : Prop :=
  (∀ (d a n : BitVec 6) (i : BitVec 14) (u : BitVec 20),
    let w (major low : Nat) : BitVec 32 := BitVec.ofNat 32 (major * 2 ^ 26 + d.toNat * 2 ^ 20 + a.toNat * 2 ^ 14 + low)
    decode (w 0x03 i.toNat) = some (.addi d a i) ∧ decode (w 0x04 i.toNat) = some (.slti d a i) ∧
    decode (w 0x05 i.toNat) = some (.sltiu d a i) ∧ decode (w 0x06 i.toNat) = some (.andi d a i) ∧
    decode (w 0x07 i.toNat) = some (.ori d a i) ∧ decode (w 0x08 i.toNat) = some (.xori d a i) ∧
    decode (w 0x09 (0 * 2 ^ 12 + n.toNat)) = some (.slli d a n) ∧ decode (w 0x09 (1 * 2 ^ 12 + n.toNat)) = some (.srli d a n) ∧
    decode (w 0x09 (2 * 2 ^ 12 + n.toNat)) = some (.srai d a n) ∧ decode (w 0x09 (3 * 2 ^ 12 + n.toNat)) = some (.rori d a n) ∧
    decode (BitVec.ofNat 32 (0x0A * 2 ^ 26 + d.toNat * 2 ^ 20 + u.toNat)) = some (.ldhi d u)) ∧
  decode 0x28920000 = some (.ldhi 9 0x20000) ∧
  ∀ w : BitVec 32, w.toNat / 2 ^ 26 = 0x09 → w.toNat / 2 ^ 6 % 2 ^ 6 ≠ 0 → decode w = none

/-- R23, R48, R225: the words of major 0x02, and those of it that are illegal. -/
def Sys2Proof.Says.MultiplyWords : Prop :=
  (∀ d a b : BitVec 6,
    let w (fn : Nat) : BitVec 32 := BitVec.ofNat 32 (0x02 * 2 ^ 26 + d.toNat * 2 ^ 20 + a.toNat * 2 ^ 14 + b.toNat * 2 ^ 8 + fn)
    decode (w 0x00) = some (.mul d a b) ∧ decode (w 0x01) = some (.mulh d a b) ∧ decode (w 0x02) = some (.mulhu d a b) ∧
    decode (w 0x03) = some (.mulhsu d a b) ∧ decode (w 0x04) = some (.div d a b) ∧ decode (w 0x05) = some (.divu d a b) ∧
    decode (w 0x06) = some (.rem d a b) ∧ decode (w 0x07) = some (.remu d a b) ∧ decode (w 0x08) = some (.mulw d a b) ∧
    decode (w 0x09) = some (.divw d a b) ∧ decode (w 0x0A) = some (.divwu d a b) ∧ decode (w 0x0B) = some (.remw d a b) ∧
    decode (w 0x0C) = some (.remwu d a b)) ∧
  ∀ w : BitVec 32, w.toNat / 2 ^ 26 = 0x02 → 0x0D ≤ w.toNat % 2 ^ 8 → decode w = none

/-! ### The obligations -/

/-- For every operand value, each instruction of major 0x01 whose operands are plain full registers completes, writes the table's
value to s[d], and changes nothing else; every function code of the table decodes to its instruction, and unassigned codes and a
nonzero rs2 of the one-operand forms decode to nothing. (R222) -/
def Obligations.IntegerResults : Prop :=
  Sys2Proof.Says.IntegerResults ∧ Sys2Proof.Says.IntegerWords

/-- ADDI to XORI with every immediate sign-extended, the immediate shifts and the rotate, and LDHI complete, write their value and
change nothing else; PCREL adds to the PC of the word; the words of majors 0x03 to 0x0A decode so. (R223, R224, R228) -/
def Obligations.ImmediateResults : Prop :=
  Sys2Proof.Says.ImmediateResults ∧ Sys2Proof.Says.ImmediateWords

/-- Each multiply writes its half of the exact product; each divide or remainder parks its thread with reason register and, when it
completes, writes the quotient or remainder of R226, sign-extended in the W forms, and nothing else; the words of major 0x02
decode so. (R225, R226) -/
def Obligations.MultiplyAndDivide : Prop :=
  Sys2Proof.Says.MultiplyResults ∧ Sys2Proof.Says.DivideResults ∧ Sys2Proof.Says.MultiplyWords

/-- Every affine instruction completes with the base and stride that the table of R230 gives, and leaves everything else alone. (R205,
R230) -/
def Obligations.AffineResults : Prop :=
  Sys2Proof.Says.AffineResults

/-- Each completes, marks or reports the bits the rules name and leaves values and every other bit alone. (R201, R202, R231, R232,
R233, R234) -/
def Obligations.FullEmptyBits : Prop :=
  Sys2Proof.Says.FullnessMarks ∧ Sys2Proof.Says.FullnessReports ∧ Sys2Proof.Says.FullnessWrites

/-- GLD, GST, GLDFE and GSTFE read and write g registers and their full bits, within the visibility window the manual allows, and
RFILL sends a value whose arrival fills its target. Which value a read within the window returns is free (assumption 12). (R203,
R204, R211, R212, R235, R236, R237, R397, R400, R403) -/
def Obligations.SharedRegisters : Prop :=
  Sys2Proof.Says.SharedResults ∧ Sys2Proof.Says.SharedWindow ∧ Sys2Proof.Says.FillResults

/-- Every branch goes to its target exactly when its condition holds, mask branches by the masks, jumps and calls always, with the
link register written. (R330, R331, R333, R343) -/
def Obligations.BranchesAndJumps : Prop :=
  Sys2Proof.Says.BranchResults ∧ Sys2Proof.Says.JumpResults

/-- DIF, DELSE, DEND, DBRK, WHOLE, WHOLE.H and ENDWHOLE leave the masks and the stack that the rules give, and trap where an entry of
the right kind is missing or the stack is full. (R334, R335, R336) -/
def Obligations.Divergence : Prop :=
  Sys2Proof.Says.DivergenceResults ∧ Sys2Proof.Says.ConvergenceTraps

/-- TRAP, ILLEGAL words and privileged instructions at U take their trap: EPC, ECAUSE, EADDR, ESTAT and ESMASK are saved, every lane
is active, the privilege is S, the PC is EVEC, and nothing else changes; with EVEC zero the thread ends with the fault. (R48, R49,
R215, R368, R378, R382) -/
def Obligations.Traps : Prop :=
  Sys2Proof.Says.TrapResults ∧ Sys2Proof.Says.PrivilegeTraps ∧ Sys2Proof.Says.TrapWithoutHandler

/-- ERET restores the PC, the masks and the privilege and keeps every other register; HALT and a BKPT that the debug module claims
complete and halt their slot with its reason; halt requests, resumes, steps and the freeze set the debug state that the rules say.
Where PC stands after a halting BKPT and what STEP does to its slot are readings of the model (assumption 34), and so is that
FREEZE halts no slot by a mark and sets no HALTREQ bit, where R410 says that each halt sets one (assumption 34). (R349, R381,
R382, R383, R410, R412) -/
def Obligations.ReturnsAndDebug : Prop :=
  Sys2Proof.Says.EretResults ∧ Sys2Proof.Says.HaltResults ∧ Sys2Proof.Says.DebugResults

/-- YIELD and SLEEP begin their waits and their events complete them; a wait that a trap abandons leaves its home's list. That SLEEP
takes only an attached subscriber out of its channel is a reading of the model (assumption 30), and that an event which is not due
leaves the state as it is is the model's form (assumption 45). (R161, R372) -/
def Obligations.YieldAndSleep : Prop :=
  Sys2Proof.Says.YieldAndSleep ∧ Sys2Proof.Says.WithdrawnWaits

/-- ICINV removes cached instruction words; TLBINV removes the matching translations of its core, sends the invalidation to every core
and walker of its scope, and completes once they have done it; a walk reads its levels in turn and ends in an entry or a fault.
The detail of a walk whose table has no home is a reading of the model (assumption 32), and that ALLADDR makes every walk of a hub
stale, of whatever address space, is another (assumption 42). (R69, R70, R71, R72, R73, R74, R75, R76, R384, R385) -/
def Obligations.Invalidation : Prop :=
  Sys2Proof.Says.InvalidationResults ∧ Sys2Proof.Says.WalkSteps

/-- A pending asynchronous cause is delivered at a boundary, lowest first, as a trap entry: at U, and PAIRMISMATCH at S too; a PREEMPT
post marks every thread of its task, and an FMTMISMATCH record joins its task's queue or is counted as lost. That an event which
is not due leaves the state as it is is the model's form (assumption 45). (R161, R380, R386, R387) -/
def Obligations.AsynchronousTraps : Prop :=
  Sys2Proof.Says.AsyncTrapDelivery ∧ Sys2Proof.Says.PostArrivals

/-- MOVC of each register named here writes its value to s[d]; MOVTC writes the writable bits of each register named here, and has no
effect on one that the thread may only read; nothing else changes. That bits [51:14] of PTROOT are its writable ones is a reading
of R69 (assumption 32). (R13, R65, R69, R93, R100, R141, R216, R238, R377, R386, R413, R419) -/
def Obligations.ControlRegisters : Prop :=
  Sys2Proof.Says.ControlReads ∧ Sys2Proof.Says.ControlWrites

/-- MOVTC of HMAP, PDIRBASE and RSTPOST and MOVC of PMRD begin a wait, and the events of HMAP, PDIRBASE and PMRD complete it with the
effect or the value; writes of SLREQ, QRING, QCFG and ACCPUT and the read of DROPD have the effect of the register at their core.
(R80, R111, R143, R207, R358, R393, R395, R396, R409) -/
def Obligations.RegisterEvents : Prop :=
  Sys2Proof.Says.SlowControlRegisters ∧ Sys2Proof.Says.CoreRegisterEvents

/-- Writes of PRPOST, MAPOUT, SMPBUF, DUMPREQ, PEERSTAT.OPEN and HOSTWIN have the effect of the register, and MOVTC of MAPOUT for a
busy core traps with RESOURCE 34. That the event of a MAPOUT write, which MOVTC raises only where it does not trap, leaves the
state as it is for a busy core is the model's form (assumption 45). (R386, R393, R405, R406, R414, R419, R420) -/
def Obligations.ModuleRegisterEvents : Prop :=
  Sys2Proof.Says.ModuleRegisterEvents ∧ Sys2Proof.Says.MapoutTrap

/-- A restore that is admitted completes its thread with a task that was free now running on the target; one to a core that does not
exist, is mapped out or lies in another partition traps with RESOURCE 33 and its reason. That reasons 7 and then 5 come ahead of
any other failing condition is the order of assumption 27. (R393) -/
def Obligations.RestoreResults : Prop :=
  Sys2Proof.Says.RestoreResults

/-- TADJ steps or slews TIME, TFREQ saturates, a frequency step stops a die's cycles and starts its new clock with a STEPLOG entry,
and a hot die is throttled, stepped down and tripped. That an event which is not due leaves the state as it is is the model's form
(assumption 45). When a die that stands in a frequency step writes the entry of a forward step of TIME is a reading of the model
(assumption 39). (R218, R219, R421, R422, R426) -/
def Obligations.Clocks : Prop :=
  Sys2Proof.Says.TimeAdjustment ∧ Sys2Proof.Says.ClockSteps ∧ Sys2Proof.Says.ThermalResults

/-- SPAWN and CALLAT of a valid record send it to its hub and wait until it arrives there; a SIB record starts a further thread in the
lowest free slot with the registers the manual gives. That a refusal by a cluster without service completes the SPAWN's wait is a
reading of the model (assumption 53). (R200, R357, R364, R365, R366, R403, R424) -/
def Obligations.SpawnAndSiblings : Prop :=
  Sys2Proof.Says.SpawnResults ∧ Sys2Proof.Says.SiblingStarts

/-- The dispatcher takes the record that the manual's order names, gives its task banks, and starts its first thread with its
registers; a refill moves the oldest ring entry into the bank. That the task's banks are the lowest-numbered free ones is the
model's choice (assumption 46). That a record with poison beyond its arguments starts a thread that dies at once is a reading of
the model (assumption 68). (R17, R357, R360, R361, R362, R400) -/
def Obligations.DispatchResults : Prop :=
  Sys2Proof.Says.DispatchResults

/-- A thread that ends frees its slot; RETV first sends its task's reply; a task whose threads and accesses have ended sends the reply
that none has sent, and then is free. (R367, R368, R389) -/
def Obligations.ThreadAndTaskEnds : Prop :=
  Sys2Proof.Says.ThreadEnds ∧ Sys2Proof.Says.TaskEnds

/-- TMAKE writes a countdown record, TDEC posts a decrement whose arrival counts it down, places the record at zero and drops one for
a block that is not pending, and MIGR moves the thread with its registers. That TMAKE's write is one that R101 may discard and the
decrement is not is the model's choice (assumption 59), and so is what becomes of a block that a store has made no valid record,
and of a decrement whose flit lost two rails (assumption 68). (R101, R369, R370, R371) -/
def Obligations.DependenceAndMigration : Prop :=
  Sys2Proof.Says.DependenceResults ∧ Sys2Proof.Says.MigrationResults

/-- Joining sets the joiner's bit and entry in the directory, fills the joiner's own window with the members, sends an install to each
of them and completes when all have answered; leaving clears bit and entry, sends a removal to each, empties the leaver's window
and completes when nothing is under way through it; PQUERY reads the mask. That a removal acts only on a window of the same polder
that still holds the leaver, and what it waits for, are readings of the model (assumption 58), and so is what a membership is
while its PLEAVE is under way (assumption 69). (R147, R148, R149) -/
def Obligations.Polders : Prop :=
  Sys2Proof.Says.PolderResults ∧ Sys2Proof.Says.PolderUpdates

/-- A read of an input port takes its oldest entry, a write to an output port sends one, QPUSHC sends a control entry, QSTAT counts,
and a control entry enters the handler that QRET leaves. (R207, R220, R373, R374, R375) -/
def Obligations.QueuePorts : Prop :=
  Sys2Proof.Says.PortResults ∧ Sys2Proof.Says.QueueHandlers

/-- CHPUB, CHSUB, CHSYNC, CHUNSUB, CHLEAVE.IF and CHRESUB change the channel's members and the thread's state as the rules say. (R341,
R342, R343, R346, R347) -/
def Obligations.ChannelMembers : Prop :=
  Sys2Proof.Says.ChannelMembership ∧ Sys2Proof.Says.ChannelDepartures

/-- A publisher's completed instruction is sent to its subscribers and CHCLOSE sends a close marker; bundles enter their buffers, and
holds, departures and rejoins reach the publisher; CHRDV waits, passes and times out as the rules say. What CHRDV waits for beside
execution is a reading of the model (assumption 37). (R338, R341, R344, R345, R346, R347) -/
def Obligations.ChannelTraffic : Prop :=
  Sys2Proof.Says.ChannelPublication ∧ Sys2Proof.Says.ChannelTraffic ∧ Sys2Proof.Says.Rendezvous

/-- Every load sends one read and leaves s[d] empty and awaiting; every store posts one write of the low bytes of its register; each
completes and changes nothing else. (R150, R151, R152, R153, R155) -/
def Obligations.LoadsAndStoresSend : Prop :=
  Sys2Proof.Says.LoadSends ∧ Sys2Proof.Says.StorePosts

/-- LDFE, LDFF and STFE park until their home has performed them; STFF, FECLR and the barrier operations post; atomics return the old
value; FENCE waits for what its scope covers. Which permissions the synchronising accesses need is a reading of the model
(assumption 60). (R156, R157, R162, R163, R164, R165, R166, R167, R168, R169, R453) -/
def Obligations.SynchronisingSends : Prop :=
  Sys2Proof.Says.SynchronisingSends ∧ Sys2Proof.Says.AtomicSends ∧ Sys2Proof.Says.BarrierSends

/-- A scalar access traps with ALIGN, TRANS or PERM and its address; a vector access traps with the first failing lane that is no
helper; nothing has been sent. (R62, R64, R151, R250, R379) -/
def Obligations.AddressTraps : Prop :=
  Sys2Proof.Says.AddressTraps ∧ Sys2Proof.Says.VectorTraps

/-- A load answers with its bytes, extended; a store writes exactly its bytes and marks their words full; a value that returns, an
atomic's old value and the elements of a vector load among them, fills its register and completes a waiting thread. That an access
performs in one step of its own is a reading of the model (assumption 7). (R137, R152, R155, R163, R175, R250, R329, R453) -/
def Obligations.AccessesPerform : Prop :=
  Sys2Proof.Says.LoadsAndStoresPerform ∧ Sys2Proof.Says.ValuesReturn

/-- LDFE, LDFF, STFE and FECLR act on full words as the rule says, or wait; a word that changes its state runs its wake chain, oldest
waiter first; SPTAG reads and writes a line's bits. (R141, R156, R158, R159) -/
def Obligations.FullEmptyMemory : Prop :=
  Sys2Proof.Says.SynchronisingPerform ∧ Sys2Proof.Says.WakeChains ∧ Sys2Proof.Says.TagsPerform

/-- An atomic replaces its word in one step and answers with the old value; arrivals count, complete phases and restore the object;
waits pass on the phase. That an arrival at a barrier object is performed whatever the sender's TOPINF is a reading of the model
(assumption 65). (R128, R129, R130, R162, R166, R167, R168, R169) -/
def Obligations.AtomicsAndBarriers : Prop :=
  Sys2Proof.Says.AtomicsPerform ∧ Sys2Proof.Says.BarriersPerform

/-- Sealing opens the next batch, waiting parks while too many are unfinished, mail fills an empty mailbox with its stamp, and taking
it opens its request. (R110, R111, R126, R170, R171, R172, R173) -/
def Obligations.BatchesAndMail : Prop :=
  Sys2Proof.Says.BatchResults ∧ Sys2Proof.Says.MailResults

/-- Every instruction of major 0x20 writes exactly the lanes of E with the table's value, saturated or modulo 2^32; compares write the
bits of E and clear the others; nothing else changes. (R240, R241, R242) -/
def Obligations.VectorIntegers : Prop :=
  Sys2Proof.Says.VectorIntegers

/-- Each writes the lanes of E by its lane function under RM and FTZ, and raises the flags of the lanes of E_L only; a finite lane
result of an addition, product, fused product, quotient, root or conversion is the exact value rounded once under the mode, and NX
tells whether that changed it. (R103, R240, R243, R244, R245) -/
def Obligations.VectorFloats : Prop :=
  Sys2Proof.Says.VectorFloats ∧ Sys2Proof.Says.FloatRounding

/-- Each parks its thread with reason register and changes nothing; its completion writes the lanes of E and raises the flags of E_L.
The results of the seven functions are the model's choice within R244's errors (assumption 13), which FunctionBounds states.
(R227, R241, R244) -/
def Obligations.VectorFunctions : Prop :=
  Sys2Proof.Says.VectorFunctions

/-- At every finite operand each of VFRSQ, VFRCP, VFEXP2, VFLOG2, VFSIN, VFCOS and VFTANH gives a result within the error that R244's
table states of the exact real value, with the flags of the table; under FTZ operand and result are flushed. Which result within
its error a function gives, and VFRCP's overflow, are the model's choices (assumption 13). (R103, R104, R244) -/
def Obligations.FunctionBounds : Prop :=
  Sys2Proof.Says.FunctionBounds

/-- NaN operands give the canonical NaN with NV when they signal; special operands of division and of every function give their exact
results and flags; the worked conversion lanes come out as printed. The flags of VFEXP2 of +infinity are a reading of the model
(assumption 13). (R83, R92, R103, R243, R244, R245) -/
def Obligations.FloatSpecials : Prop :=
  Sys2Proof.Says.FloatSpecials ∧ Sys2Proof.Says.ConversionExamples

/-- Each reads source lanes by position whatever the masks and writes the lanes of E; reductions and scans combine the lanes of E_L in
the order of R106 and R247. That a scan's place with one contributing lane takes that lane unchanged, without a flag, is a reading
of the model (assumption 43). (R106, R246, R247) -/
def Obligations.CrossLanes : Prop :=
  Sys2Proof.Says.CrossLanes

/-- Each instruction of major 0x24 has the effect of its row, on the lanes or bits named, and nothing else changes. (R206, R248) -/
def Obligations.MovesAndMasks : Prop :=
  Sys2Proof.Says.MovesAndMasks

/-- A vector load sends a read for each lane of E that passes the checks, in ascending order, and its register awaits; a vector store
sends the lanes of E_L; a dropped helper lane reads 0. (R152, R153, R205, R249, R250) -/
def Obligations.VectorMemory : Prop :=
  Sys2Proof.Says.VectorMemory

/-- Each command of the matrix engine that passes its checks joins the engine's queue with its operands and shapes latched, and with
the shadow shape that its kind commits live; with an inactive lane it traps with CONVERGENCE. (R208, R209, R210, R255, R256, R257,
R258, R261, R262, R263, R264, R265) -/
def Obligations.MatrixIssues : Prop :=
  Sys2Proof.Says.MatrixIssues ∧ Sys2Proof.Says.CollectiveTraps

/-- Each latches MXCFG, shapes, a shape committed with ZACC, scales, and for a sparse product its window and pattern. That a scale
which an earlier TLD or TZERO still writes is latched when that command has written it is a reading of the model (assumption 31).
(R256, R258, R266, R273, R297) -/
def Obligations.ProductIssues : Prop :=
  Sys2Proof.Says.ProductIssues

/-- A completed command leaves the queue and has exactly its effect on tiles, scales and accumulators: saturating integer products,
floating-point products and Hadamard transforms that are exact sums rounded once to nearest even, recurrences, loads and clears;
its flags are those of its elements. When TSCALE is written and who latches it is a reading of the model (assumption 31). (R105,
R257, R259, R262, R264, R265, R267, R268, R270, R273, R298) -/
def Obligations.MatrixCompletes : Prop :=
  Sys2Proof.Says.MatrixCompletes ∧ Sys2Proof.Says.EngineRounding

/-- Each joins the queue and waits; PSGEN emits the next kept coordinates in order with their ranks, PSCHK gives a coordinate's rank,
PSLD loads, PRANK registers a table of counts, PSSAVE and PSREST move an image, whose PSREST takes every image that passes the
checks; the words of a command are read home by home; a command that fails traps with its code. That PSLD keeps TC0, TW and ADDR
is a reading of the model (assumption 31); that the destinations of a command that traps are full again follows R290 where R214
says otherwise (assumption 56); EADDR and ESTAT of PATTERN 9 and 10 are assumption 70's. (R184, R201, R214, R276, R284, R285,
R286, R290, R291, R292, R295, R296) -/
def Obligations.PatternGenerator : Prop :=
  Sys2Proof.Says.PatternQueues ∧ Sys2Proof.Says.PatternCompletes ∧ Sys2Proof.Says.PatternReads ∧ Sys2Proof.Says.PatternFailures

/-- Each copy and reduction instruction in slot 15 completes with its command numbered and latched, and counted into its requester's
batch; outside slot 15 it is ILLEGAL. (R48, R109, R111, R117) -/
def Obligations.SluiceIssues : Prop :=
  Sys2Proof.Says.SluiceIssues ∧ Sys2Proof.Says.SluiceOutside

/-- SLSTAT reads the status word; SLQUIESCE stops, discards or images its slots' commands; SLRESUME restarts a command or takes an
image; both fail with PRIV where the slot or its request is at U. What an image holds beside the manual's layout is a reading of
the model (assumption 20). Which writes SLQUIESCE waits for is the model's choice (assumption 73). (R111, R131, R132, R133, R134,
R135) -/
def Obligations.QuiesceResults : Prop :=
  Sys2Proof.Says.QuiesceResults

/-- A claim makes a home's lines absent in one step, an element of a fill or of a raw copy is read in one step, and written in another
that changes its bytes and no other, and completion makes lines present, sends the arrival and leaves the batch. That an element
is read in one step and written in steps of its own, and the word size of a RAW element, are readings of the model (assumption
10). (R118, R119, R123, R126, R129, R175, R183) -/
def Obligations.SluiceSteps : Prop :=
  Sys2Proof.Says.SluiceSteps

/-- RGOPEN, RGCLOSE and RGSTAT act on their group; a weir merges the next window of its inputs index by index; complete rounds leave,
expired ones are cut, and full buffers hold. What a buffer that one unfinished window fills takes is the model's choice
(assumption 71). (R303, R304, R308, R309, R311, R312, R314, R315, R321) -/
def Obligations.GroupsAndWeirs : Prop :=
  Sys2Proof.Says.GroupResults ∧ Sys2Proof.Says.WeirSteps

/-- Module reset and each level raise leave the state the rules give; links, rails and far ports come and go with the registers that
report them. Whether the firmware's signature verifies, its version and the rollback counter are constants that the manual leaves
open (assumption 16), and lost rails outlast module reset by a reading of the model (assumption 28). (R403, R404, R420, R424,
R425, R452) -/
def Obligations.ResetAndLinks : Prop :=
  Sys2Proof.Says.ResetAndLevels ∧ Sys2Proof.Says.LinkEvents

/-- The host's line accesses, launch writes and register accesses, and a peer's accesses and stream entries, have the effect and the
answer the rules give. A peer's read of an absent home and accesses of the management window that R419 does not describe are
readings of the model (assumptions 23 and 24). (R322, R359, R417, R418, R419, R420, R424) -/
def Obligations.HostAndPeers : Prop :=
  Sys2Proof.Says.HostAccesses ∧ Sys2Proof.Says.PeerAccesses

/-- Every request is answered, the offered algorithm and what the measurements cover as R425 says, and changes nothing else (the
answer's bytes are free: the model's choice, assumption 14); a pulse takes the next sequence number; a scrub corrects or poisons;
a dump that has drained counts and lets its thread go on. (R399, R402, R406, R407, R414, R415, R416, R425) -/
def Obligations.IdentityAndObservation : Prop :=
  Sys2Proof.Says.IdentityRequests ∧ Sys2Proof.Says.ObservationEvents

/-- For every well-formed encoded instruction, with every operand at every value, decode of encode is the instruction. (R17, R18, R19,
R48) -/
def Obligations.EncodingRoundTrip : Prop :=
  Sys2Proof.Says.RoundTrip

/-- Every word that decodes stands for one well-formed instruction whose encoding is that word, so no bit of it is ignored. (R17, R48) -/
def Obligations.DecodingUnambiguous : Prop :=
  Sys2Proof.Says.Unambiguous

/-- A few words written out in the manual decode to their instruction, and malformed ones to nothing. (R17, R48) -/
def Obligations.ManualWords : Prop :=
  Sys2Proof.Says.ManualWords

/-- From every state every instruction and every event answers a next state: no fault and no refusal. That no meaning stops is the
model's finding, no rule of the manual (assumption 44). (R48, R327) -/
def Obligations.EverythingRuns : Prop :=
  Sys2Proof.Says.EverythingRuns

/-- When the turn is a thread's and the word at its PC decodes to an instruction, the step is exec of that instruction, preceded by
the fetch and followed by the note of the issue; an event's step is exec of the event. The agenda that names whose turn it is, and
the fetch past the cache, are the model's (assumptions 5 and 33). (R17, R67, R327, R329) -/
def Obligations.StepRunsTheInstruction : Prop :=
  Sys2Proof.Says.StepRunsDecoded ∧ Sys2Proof.Says.StepKeepsResult ∧ Sys2Proof.Says.StepRunsEvent

/-- Each instruction named leaves every register of its thread but its destination, the trap registers unless it traps, every other
thread's registers (of the instructions that may answer another thread, all but scalar ones), the engines' tiles, accumulators,
shapes, commands and pattern slots, and every other byte of memory; each event named leaves every thread's registers and memory; a
core issues only from a thread that lives and waits for no event. (R13, R197, R216, R327, R397) -/
def Obligations.WhatTheRestLeavesAlone : Prop :=
  Sys2Proof.Says.RestUnchanged ∧ Sys2Proof.Says.EventsLeaveThreads ∧ Sys2Proof.Says.IssuedThreadsRun

/-- From every state whose memory is canonical, a step that answers a next state leaves memory canonical (the form is the model's,
assumption 3). The canonical form is the model's, with the unlisted byte of assumption 3. (R452) -/
def Obligations.MemoryStaysCanonical : Prop :=
  Sys2Proof.Says.MemoryInvariant

/-- After reset memory is canonical and reads zero (LPDDR and far memory: the model's choice, assumption 3), every word is full and
every line present, LEVEL, TIME and the counters are zero, every clock is at 0.6 GHz, and no thread, task or group lives. (R80,
R218, R219, R404, R406, R419, R424, R452) -/
def Obligations.ResetState : Prop :=
  Sys2Proof.Says.ResetState
end

