-- ==== Sys2Proof/Laws/Encoding.lean ====
section
/-! SUPPORT. What decoding does, said once: a field read back from a word that was put together, a word's major code, and
which table each major code selects. -/

namespace Sys2Proof

/-- A field of `n` bits at `lo` is `x` where the word's bits there make its number. -/
theorem fld_eq {n : Nat} (w : BitVec 32) (lo : Nat) (x : BitVec n) (h : w.toNat / 2 ^ lo % 2 ^ n = x.toNat) :
    fld w lo = x := by
  apply BitVec.eq_of_toNat_eq
  simp only [fld, BitVec.toNat_ofNat, h]

/-- A word made of a number below 2^32 is that number. -/
theorem word_toNat {n : Nat} (h : n < 2 ^ 32) : (word n).toNat = n := by
  simp only [word, BitVec.toNat_ofNat]
  exact Nat.mod_eq_of_lt h

/-- Bits of a word made of a number below 2^32. -/
theorem bits_word {n : Nat} (lo k : Nat) (h : n < 2 ^ 32) : bits (word n) lo k = n / 2 ^ lo % 2 ^ k := by
  simp only [bits, word_toNat h]

/-- Fields and the checks of R48 make the decoded instruction. -/
theorem decode_of {w : BitVec 32} {i : Instr} (h : decodeFields w = some i) (hw : i.wf = true) : decode w = some i := by
  simp only [decode, h, hw, if_true]

/-- A decoded instruction is well-formed and stands in the word's fields. -/
theorem of_decode {w : BitVec 32} {i : Instr} (h : decode w = some i) : decodeFields w = some i ∧ i.wf = true := by
  unfold decode at h
  split at h
  · split at h
    · injection h with h; subst h; exact ⟨by assumption, by assumption⟩
    · cases h
  · cases h

/-- A word's bytes make the word again (R17). -/
theorem bytesWord_wordBytes (w : BitVec 32) : bytesWord (wordBytes w) = some w := by
  simp only [wordBytes, bytesWord, Option.some.injEq]
  apply BitVec.eq_of_toNat_eq
  have := w.isLt
  simp only [word, BitVec.toNat_ofNat]
  omega

/-- Decoding a word's bytes is decoding the word. -/
theorem decodeBytes_wordBytes (w : BitVec 32) : decodeBytes (wordBytes w) = decode w := by
  simp only [decodeBytes, bytesWord_wordBytes]

theorem decodeFields_01 {w : BitVec 32} (h : bits w 26 6 = 0x01) : decodeFields w = decInt w := by
  unfold decodeFields; rw [h]; rfl

theorem decodeFields_02 {w : BitVec 32} (h : bits w 26 6 = 0x02) : decodeFields w = decMulDiv w := by
  unfold decodeFields; rw [h]; rfl

theorem decodeFields_03 {w : BitVec 32} (h : bits w 26 6 = 0x03) : decodeFields w = decAddi w := by
  unfold decodeFields; rw [h]; rfl

theorem decodeFields_04 {w : BitVec 32} (h : bits w 26 6 = 0x04) : decodeFields w = decSlti w := by
  unfold decodeFields; rw [h]; rfl

theorem decodeFields_05 {w : BitVec 32} (h : bits w 26 6 = 0x05) : decodeFields w = decSltiu w := by
  unfold decodeFields; rw [h]; rfl

theorem decodeFields_06 {w : BitVec 32} (h : bits w 26 6 = 0x06) : decodeFields w = decAndi w := by
  unfold decodeFields; rw [h]; rfl

theorem decodeFields_07 {w : BitVec 32} (h : bits w 26 6 = 0x07) : decodeFields w = decOri w := by
  unfold decodeFields; rw [h]; rfl

theorem decodeFields_08 {w : BitVec 32} (h : bits w 26 6 = 0x08) : decodeFields w = decXori w := by
  unfold decodeFields; rw [h]; rfl

theorem decodeFields_09 {w : BitVec 32} (h : bits w 26 6 = 0x09) : decodeFields w = decShiftImm w := by
  unfold decodeFields; rw [h]; rfl

theorem decodeFields_0a {w : BitVec 32} (h : bits w 26 6 = 0x0A) : decodeFields w = decLdhi w := by
  unfold decodeFields; rw [h]; rfl

theorem decodeFields_0b {w : BitVec 32} (h : bits w 26 6 = 0x0B) : decodeFields w = decPcrel w := by
  unfold decodeFields; rw [h]; rfl

theorem decodeFields_0c {w : BitVec 32} (h : bits w 26 6 = 0x0C) : decodeFields w = decAffine w := by
  unfold decodeFields; rw [h]; rfl

theorem decodeFields_0d {w : BitVec 32} (h : bits w 26 6 = 0x0D) : decodeFields w = decRegState w := by
  unfold decodeFields; rw [h]; rfl

theorem decodeFields_0e {w : BitVec 32} (h : bits w 26 6 = 0x0E) : decodeFields w = decControl w := by
  unfold decodeFields; rw [h]; rfl

theorem decodeFields_0f {w : BitVec 32} (h : bits w 26 6 = 0x0F) : decodeFields w = decSystem w := by
  unfold decodeFields; rw [h]; rfl

theorem decodeFields_10 {w : BitVec 32} (h : bits w 26 6 = 0x10) : decodeFields w = decBranch w := by
  unfold decodeFields; rw [h]; rfl

theorem decodeFields_11 {w : BitVec 32} (h : bits w 26 6 = 0x11) : decodeFields w = decBr w := by
  unfold decodeFields; rw [h]; rfl

theorem decodeFields_12 {w : BitVec 32} (h : bits w 26 6 = 0x12) : decodeFields w = decCall w := by
  unfold decodeFields; rw [h]; rfl

theorem decodeFields_13 {w : BitVec 32} (h : bits w 26 6 = 0x13) : decodeFields w = decJalr w := by
  unfold decodeFields; rw [h]; rfl

theorem decodeFields_14 {w : BitVec 32} (h : bits w 26 6 = 0x14) : decodeFields w = decMaskBranch w := by
  unfold decodeFields; rw [h]; rfl

theorem decodeFields_15 {w : BitVec 32} (h : bits w 26 6 = 0x15) : decodeFields w = decDivergence w := by
  unfold decodeFields; rw [h]; rfl

theorem decodeFields_16 {w : BitVec 32} (h : bits w 26 6 = 0x16) : decodeFields w = decChannel w := by
  unfold decodeFields; rw [h]; rfl

theorem decodeFields_17 {w : BitVec 32} (h : bits w 26 6 = 0x17) : decodeFields w = decTask w := by
  unfold decodeFields; rw [h]; rfl

theorem decodeFields_18 {w : BitVec 32} (h : bits w 26 6 = 0x18) : decodeFields w = decLoad w := by
  unfold decodeFields; rw [h]; rfl

theorem decodeFields_19 {w : BitVec 32} (h : bits w 26 6 = 0x19) : decodeFields w = decStore w := by
  unfold decodeFields; rw [h]; rfl

theorem decodeFields_1a {w : BitVec 32} (h : bits w 26 6 = 0x1A) : decodeFields w = decSyncLoad w := by
  unfold decodeFields; rw [h]; rfl

theorem decodeFields_1b {w : BitVec 32} (h : bits w 26 6 = 0x1B) : decodeFields w = decSyncStore w := by
  unfold decodeFields; rw [h]; rfl

theorem decodeFields_1c {w : BitVec 32} (h : bits w 26 6 = 0x1C) : decodeFields w = decAtomic w := by
  unfold decodeFields; rw [h]; rfl

theorem decodeFields_1d {w : BitVec 32} (h : bits w 26 6 = 0x1D) : decodeFields w = decFenceBarrier w := by
  unfold decodeFields; rw [h]; rfl

theorem decodeFields_1e {w : BitVec 32} (h : bits w 26 6 = 0x1E) : decodeFields w = decPolderBatch w := by
  unfold decodeFields; rw [h]; rfl

theorem decodeFields_20 {w : BitVec 32} (h : bits w 26 6 = 0x20) : decodeFields w = decVecInt w := by
  unfold decodeFields; rw [h]; rfl

theorem decodeFields_21 {w : BitVec 32} (h : bits w 26 6 = 0x21) : decodeFields w = decVecFp w := by
  unfold decodeFields; rw [h]; rfl

theorem decodeFields_22 {w : BitVec 32} (h : bits w 26 6 = 0x22) : decodeFields w = decVecFun w := by
  unfold decodeFields; rw [h]; rfl

theorem decodeFields_23 {w : BitVec 32} (h : bits w 26 6 = 0x23) : decodeFields w = decCrossLane w := by
  unfold decodeFields; rw [h]; rfl

theorem decodeFields_24 {w : BitVec 32} (h : bits w 26 6 = 0x24) : decodeFields w = decVecMove w := by
  unfold decodeFields; rw [h]; rfl

theorem decodeFields_25 {w : BitVec 32} (h : bits w 26 6 = 0x25) : decodeFields w = decVld w := by
  unfold decodeFields; rw [h]; rfl

theorem decodeFields_26 {w : BitVec 32} (h : bits w 26 6 = 0x26) : decodeFields w = decVst w := by
  unfold decodeFields; rw [h]; rfl

theorem decodeFields_27 {w : BitVec 32} (h : bits w 26 6 = 0x27) : decodeFields w = decVecIndexed w := by
  unfold decodeFields; rw [h]; rfl

theorem decodeFields_28 {w : BitVec 32} (h : bits w 26 6 = 0x28) : decodeFields w = decEngine w := by
  unfold decodeFields; rw [h]; rfl

end Sys2Proof
end

