-- ==== Sys2Proof/Laws/Memory.lean ====
section
/-! SUPPORT. Memory as a canonical list of bytes: a read after a write, what a write leaves alone, and that every operation
that writes memory keeps the canonical form. -/

namespace Sys2Proof.Machine

/-! ### Bytes -/

theorem look_del {α : Type} (d : α) (m : Map α) (k j : Nat) : look d (del m k) j = if k = j then d else look d m j := by
  induction m with
  | nil => simp [del, look]
  | cons p r ih =>
    obtain ⟨a, x⟩ := p
    by_cases h : a = k
    · subst h; simp only [del, if_true, ih, look]; split <;> simp_all
    · simp only [del, h, if_false, look, ih]
      split <;> split <;> simp_all

/-- A byte reads as last written. -/
theorem readByte_writeByte (m : List Host.Cell) (a b : Nat) (x : Byte) :
    readByte (writeByte m a x) b = if a = b then x else readByte m b := by
  unfold readByte writeByte
  split
  · next h => subst h; rw [look_del]
  · rw [look_put]

/-- A run of bytes reads as last written, and every other byte reads as before. -/
theorem readByte_writeBytes (l : List Byte) : ∀ (m : List Host.Cell) (a b : Nat),
    readByte (writeBytes m a l) b = if a ≤ b ∧ b < a + l.length then l.getD (b - a) 0 else readByte m b := by
  induction l with
  | nil => intro m a b; simp [writeBytes, show ¬ (a ≤ b ∧ b < a) by omega]
  | cons x r ih =>
    intro m a b
    rw [writeBytes, ih, readByte_writeByte]
    by_cases h1 : a = b
    · subst h1; simp [show ¬ (a + 1 ≤ a) by omega]
    · by_cases h2 : a + 1 ≤ b ∧ b < a + 1 + r.length
      · obtain ⟨n, rfl⟩ : ∃ n, b = a + (n + 1) := ⟨b - a - 1, by omega⟩
        simp [show a + 1 ≤ a + (n + 1) by omega, show a + (n + 1) < a + 1 + r.length by omega,
          show n < r.length by omega, show a + (n + 1) - (a + 1) = n by omega]
      · rw [if_neg h2, if_neg h1, if_neg (by simp only [List.length_cons]; omega)]

theorem natLe_length (n : Nat) : ∀ x, (natLe n x).length = n := by
  induction n with
  | zero => intro x; rfl
  | succ k ih => intro x; simp [natLe, ih]

/-- Byte `i` of a number's bytes. -/
theorem natLe_getD (n : Nat) : ∀ x i, (natLe n x).getD i 0 = if i < n then BitVec.ofNat 8 (x / 2 ^ (8 * i)) else 0 := by
  induction n with
  | zero => intro x i; simp [natLe]
  | succ k ih =>
    intro x i
    cases i with
    | zero => simp [natLe]
    | succ j =>
      simp only [natLe, List.getD_cons_succ, ih, Nat.add_lt_add_iff_right]
      split
      · congr 1; rw [Nat.div_div_eq_div_mul, show 8 * (j + 1) = 8 + 8 * j by omega, Nat.pow_add]
      · rfl

theorem leNat_lt (l : List Byte) : leNat l < 256 ^ l.length := by
  induction l with
  | nil => simp [leNat]
  | cons b r ih => simp only [leNat, List.length_cons, Nat.pow_succ]; have := b.isLt; omega

/-- A number comes back from its bytes. -/
theorem leNat_natLe (n : Nat) : ∀ x, leNat (natLe n x) = x % 256 ^ n := by
  induction n with
  | zero => intro x; simp [natLe, leNat, Nat.mod_one]
  | succ k ih =>
    intro x
    simp only [natLe, leNat, ih, BitVec.toNat_ofNat]
    rw [show 256 ^ (k + 1) = 256 * 256 ^ k by rw [Nat.pow_succ, Nat.mul_comm], Nat.mod_mul]

/-- Reading a run of bytes is decided by the bytes alone. -/
theorem readBytes_congr (m t : List Host.Cell) (n : Nat) : ∀ a,
    (∀ b, a ≤ b → b < a + n → readByte m b = readByte t b) → readBytes m a n = readBytes t a n := by
  induction n with
  | zero => intro a _; rfl
  | succ k ih =>
    intro a h
    simp only [readBytes]
    rw [h a (by omega) (by omega), ih (a + 1) fun b h1 h2 => h b (by omega) (by omega)]

/-- A read after a write of the same bytes gives them. -/
theorem readBytes_writeBytes (l : List Byte) : ∀ (m : List Host.Cell) (a : Nat),
    readBytes (writeBytes m a l) a l.length = l := by
  induction l with
  | nil => intro m a; rfl
  | cons x r ih =>
    intro m a
    simp only [List.length_cons, readBytes]
    rw [readByte_writeBytes, show writeBytes m a (x :: r) = writeBytes (writeByte m a x) (a + 1) r from rfl, ih]
    simp

/-! ### The canonical form -/

/-- Every address a list holds is at least `k`. -/
def Memory.above (k : Nat) (m : List Host.Cell) : Prop := ∀ p ∈ m, k ≤ p.1

theorem Memory.wf_cons (a : Nat) (x : Byte) (r : List Host.Cell) :
    Memory.wf ((a, x) :: r) = true ↔ x ≠ 0 ∧ Memory.above (a + 1) r ∧ Memory.wf r = true := by
  constructor
  · intro h
    induction r generalizing a x with
    | nil => simp only [Memory.wf, Bool.and_true, decide_eq_true_eq] at h; exact ⟨h, ⟨(fun _ hp => absurd hp List.not_mem_nil), rfl⟩⟩
    | cons q t ih =>
      obtain ⟨b, y⟩ := q
      rw [Memory.wf] at h
      simp only [Bool.and_eq_true, decide_eq_true_eq] at h
      obtain ⟨⟨h1, h2⟩, h3⟩ := h
      obtain ⟨_, h5, _⟩ := ih b y h3
      refine ⟨h1, ?_, h3⟩
      intro p hp
      rcases List.mem_cons.1 hp with rfl | hp
      · exact h2
      · have := h5 p hp; omega
  · rintro ⟨h1, h2, h3⟩
    cases r with
    | nil => simp only [Memory.wf, Bool.and_true, decide_eq_true_eq]; exact h1
    | cons q t =>
      obtain ⟨b, y⟩ := q
      have := h2 (b, y) List.mem_cons_self
      rw [Memory.wf]
      simp only [Bool.and_eq_true, decide_eq_true_eq]
      exact ⟨⟨h1, this⟩, h3⟩

theorem Memory.mem_put (m : List Host.Cell) (a : Nat) (x : Byte) (p : Host.Cell) (h : p ∈ put m a x) : p = (a, x) ∨ p ∈ m := by
  induction m with
  | nil => simpa [put] using h
  | cons q r ih =>
    obtain ⟨b, y⟩ := q
    simp only [put] at h
    split at h
    · rcases List.mem_cons.1 h with rfl | h
      · exact .inl rfl
      · exact .inr (List.mem_cons_of_mem _ h)
    · split at h
      · rcases List.mem_cons.1 h with rfl | h
        · exact .inl rfl
        · exact .inr h
      · rcases List.mem_cons.1 h with rfl | h
        · exact .inr List.mem_cons_self
        · rcases ih h with rfl | h
          · exact .inl rfl
          · exact .inr (List.mem_cons_of_mem _ h)

theorem Memory.mem_del (m : List Host.Cell) (a : Nat) (p : Host.Cell) (h : p ∈ del m a) : p ∈ m := by
  induction m with
  | nil => exact h
  | cons q r ih =>
    obtain ⟨b, y⟩ := q
    simp only [del] at h
    split at h
    · exact List.mem_cons_of_mem _ (ih h)
    · rcases List.mem_cons.1 h with rfl | h
      · exact List.mem_cons_self
      · exact List.mem_cons_of_mem _ (ih h)

theorem Memory.wf_put (m : List Host.Cell) (a : Nat) (x : Byte) (hx : x ≠ 0) (h : Memory.wf m = true) :
    Memory.wf (put m a x) = true := by
  induction m with
  | nil => simp only [put, Memory.wf, Bool.and_true, decide_eq_true_eq]; exact hx
  | cons q r ih =>
    obtain ⟨b, y⟩ := q
    obtain ⟨h1, h2, h3⟩ := (Memory.wf_cons b y r).1 h
    simp only [put]
    split
    · next e => subst e; exact (Memory.wf_cons _ _ _).2 ⟨hx, h2, h3⟩
    · split
      · next e =>
        refine (Memory.wf_cons _ _ _).2 ⟨hx, ?_, h⟩
        intro p hp
        rcases List.mem_cons.1 hp with rfl | hp
        · exact e
        · have := h2 p hp; omega
      · refine (Memory.wf_cons _ _ _).2 ⟨h1, ?_, ih h3⟩
        intro p hp
        rcases Memory.mem_put _ _ _ _ hp with rfl | hp
        · simp only; omega
        · exact h2 p hp

theorem Memory.wf_del (m : List Host.Cell) (a : Nat) (h : Memory.wf m = true) : Memory.wf (del m a) = true := by
  induction m with
  | nil => exact h
  | cons q r ih =>
    obtain ⟨b, y⟩ := q
    obtain ⟨h1, h2, h3⟩ := (Memory.wf_cons b y r).1 h
    simp only [del]
    split
    · exact ih h3
    · exact (Memory.wf_cons _ _ _).2 ⟨h1, fun p hp => h2 p (Memory.mem_del _ _ _ hp), ih h3⟩

/-- Dropping bytes keeps the form. -/
theorem Memory.wf_filter (f : Host.Cell → Bool) (m : List Host.Cell) (h : Memory.wf m = true) : Memory.wf (m.filter f) = true := by
  induction m with
  | nil => exact h
  | cons q r ih =>
    obtain ⟨b, y⟩ := q
    obtain ⟨h1, h2, h3⟩ := (Memory.wf_cons b y r).1 h
    rw [List.filter_cons]
    split
    · exact (Memory.wf_cons _ _ _).2 ⟨h1, fun p hp => h2 p (List.mem_filter.1 hp).1, ih h3⟩
    · exact ih h3

/-- Writing a byte keeps the form. -/
theorem Memory.wf_writeByte (m : List Host.Cell) (a : Nat) (x : Byte) (h : Memory.wf m = true) :
    Memory.wf (writeByte m a x) = true := by
  unfold writeByte
  split
  · exact Memory.wf_del m a h
  · next hx => exact Memory.wf_put m a x hx h

/-- Writing bytes keeps the form. -/
theorem Memory.wf_writeBytes (l : List Byte) : ∀ (m : List Host.Cell) (a : Nat), Memory.wf m = true →
    Memory.wf (writeBytes m a l) = true := by
  induction l with
  | nil => intro m a h; exact h
  | cons x r ih => intro m a h; exact ih _ _ (Memory.wf_writeByte m a x h)

/-- Two canonical memories that read alike are the same list. -/
theorem Memory.ext (m : List Host.Cell) : ∀ t : List Host.Cell, Memory.wf m = true → Memory.wf t = true →
    (∀ a, readByte m a = readByte t a) → m = t := by
  have low : ∀ (r : List Host.Cell) (a : Nat), Memory.above (a + 1) r → readByte r a = 0 := by
    intro r a h
    induction r with
    | nil => rfl
    | cons q u ih =>
      obtain ⟨b, y⟩ := q
      have hb := h (b, y) List.mem_cons_self
      simp only [readByte, look]
      rw [if_neg (by simp only at hb; omega)]
      exact ih fun p hp => h p (List.mem_cons_of_mem _ hp)
  have hd : ∀ (a : Nat) (x : Byte) (r : List Host.Cell), readByte ((a, x) :: r) a = x := by intro a x r; simp [readByte, look]
  have tl : ∀ (a b : Nat) (x : Byte) (r : List Host.Cell), a ≠ b → readByte ((a, x) :: r) b = readByte r b := by
    intro a b x r h; simp [readByte, look, h]
  induction m with
  | nil =>
    intro t _ ht h
    cases t with
    | nil => rfl
    | cons q u =>
      obtain ⟨b, y⟩ := q
      have := h b
      rw [hd] at this
      exact absurd this.symm ((Memory.wf_cons _ _ _).1 ht).1
  | cons q r ih =>
    obtain ⟨a, x⟩ := q
    intro t hm ht h
    obtain ⟨h1, h2, h3⟩ := (Memory.wf_cons _ _ _).1 hm
    cases t with
    | nil => have := h a; rw [hd] at this; exact absurd this h1
    | cons p u =>
      obtain ⟨b, y⟩ := p
      obtain ⟨k1, k2, k3⟩ := (Memory.wf_cons _ _ _).1 ht
      rcases Nat.lt_trichotomy a b with e | e | e
      · have := h a
        rw [hd, tl _ _ _ _ (by omega), low u a fun p hp => by have := k2 p hp; omega] at this
        exact absurd this h1
      · subst e
        have e := h a
        rw [hd, hd] at e
        subst e
        have := ih u h3 k3 fun c => by
          by_cases hc : a = c
          · subst hc; rw [low r a h2, low u a k2]
          · have := h c; rwa [tl _ _ _ _ hc, tl _ _ _ _ hc] at this
        rw [this]
      · have := h b
        rw [hd, tl _ _ _ _ (by omega), low r b fun p hp => by have := h2 p hp; omega] at this
        exact absurd this.symm k1

/-! ### The operations that write memory -/

@[simp] theorem clearPoison_mem (s : State) (pa n : Nat) : (s.clearPoison pa n).mem = s.mem := rfl
@[simp] theorem fillWords_mem (s : State) (pa n : Nat) : (s.fillWords pa n).mem = s.mem := by unfold State.fillWords; split <;> rfl
@[simp] theorem setFull_mem (s : State) (pa : Nat) (b : Bool) : (s.setFull pa b).mem = s.mem := rfl
@[simp] theorem storeAt_mem (s : State) (pa : Nat) (l : List Byte) : (s.storeAt pa l).mem = writeBytes s.mem pa l := by
  simp [State.storeAt]
@[simp] theorem putBarrier_mem (s : State) (pa : Nat) (b : BarObj) : (s.putBarrier pa b).mem = writeBytes s.mem pa b.bytes := rfl

theorem storeAt_wf (s : State) (pa : Nat) (l : List Byte) (h : Memory.wf s.mem = true) : Memory.wf (s.storeAt pa l).mem = true := by
  rw [storeAt_mem]; exact Memory.wf_writeBytes l s.mem pa h

theorem putBarrier_wf (s : State) (pa : Nat) (b : BarObj) (h : Memory.wf s.mem = true) :
    Memory.wf (s.putBarrier pa b).mem = true := Memory.wf_writeBytes _ _ _ h

@[simp] theorem setFlight_mem (s : State) (f : Flight) : (s.setFlight f).mem = s.mem := rfl
@[simp] theorem answer_mem (s : State) (f : Flight) (v : W64) (fl : Flags) (p : Bool) : (s.answer f v fl p).mem = s.mem := rfl
@[simp] theorem emptyWords_mem (s : State) (pa n : Nat) : (s.emptyWords pa n).mem = s.mem := rfl

@[simp] theorem countIn_mem (s : State) (c ev : Nat) (k : Option Nat) (n : Nat) : (s.countIn c ev k n).mem = s.mem := by
  unfold State.countIn; simp only; split <;> rfl

@[simp] theorem countCorrected_mem (s : State) (l : List (Nat × Bool)) : (s.countCorrected l).mem = s.mem := by
  unfold State.countCorrected
  induction l generalizing s with
  | nil => rfl
  | cons g l ih =>
    rw [List.foldl_cons, ih]
    split <;> simp

@[simp] theorem correct_mem (s : State) (pa n : Nat) : (s.correct pa n).mem = s.mem := by
  unfold State.correct; simp only; split
  · rfl
  · exact countCorrected_mem _ _

@[simp] theorem discardWrite_mem (s : State) (src pa : Nat) : (s.discardWrite src pa).mem = s.mem := by
  unfold State.discardWrite; simp only
  split
  · split <;> rfl
  · rfl

@[simp] theorem drainOverflow_mem (s : State) (home fuel : Nat) : (s.drainOverflow home fuel).mem = s.mem := by
  induction fuel generalizing s with
  | zero => rfl
  | succ n ih =>
    unfold State.drainOverflow
    split
    · rfl
    · exact ih _

@[simp] theorem rebalance_mem (s : State) (home : Nat) : (s.rebalance home).mem = s.mem := drainOverflow_mem _ _ _

theorem performWaiter_wf (s : State) (f : Flight) (h : Memory.wf s.mem = true) : Memory.wf (s.performWaiter f).mem = true := by
  unfold State.performWaiter
  split
  · simp only; split <;> simpa using h
  · split
    · simpa using h
    · exact storeAt_wf _ _ _ h
  · exact h
  · exact h

theorem wakeChain_wf (s : State) (ws : List Nat) (fuel : Nat) (h : Memory.wf s.mem = true) :
    Memory.wf (s.wakeChain ws fuel).mem = true := by
  induction fuel generalizing s ws with
  | zero => exact h
  | succ n ih =>
    unfold State.wakeChain
    split
    · exact h
    · exact ih _ _ (performWaiter_wf _ _ h)

/-- A wake chain keeps memory canonical. -/
theorem wake_wf (s : State) (pa n : Nat) (h : Memory.wf s.mem = true) : Memory.wf (s.wake pa n).mem = true := by
  unfold State.wake
  split
  · simp only
    split
    · rw [rebalance_mem]; exact wakeChain_wf _ _ _ h
    · exact wakeChain_wf _ _ _ h
  · exact h

theorem clearBank_wf (s : State) (c b : Nat) (h : Memory.wf s.mem = true) : Memory.wf (s.clearBank c b).mem = true :=
  wake_wf _ _ _ (Memory.wf_filter _ s.mem h)

/-- Memory after reset lists nothing. -/
theorem reset_mem_wf : Memory.wf State.reset.mem = true := rfl

/-- A number stored at an address reads back from it. -/
theorem loadN_storeAt (s : State) (pa n x : Nat) : (s.storeAt pa (natLe n x)).loadN pa n = x % 256 ^ n := by
  have h := readBytes_writeBytes (natLe n x) s.mem pa
  rw [natLe_length] at h
  simp only [State.loadN, storeAt_mem, h, leNat_natLe]

/-- A store leaves every other byte alone. -/
theorem readByte_storeAt (s : State) (pa : Nat) (l : List Byte) (a : Nat) :
    readByte (s.storeAt pa l).mem a = if pa ≤ a ∧ a < pa + l.length then l.getD (a - pa) 0 else readByte s.mem a := by
  rw [storeAt_mem, readByte_writeBytes]

end Sys2Proof.Machine
end

