-- ==== Sys2Proof/Laws/State.lean ====
section
/-! SUPPORT. What each update of the state leaves alone: one lemma per field and update, true by unfolding. -/

namespace Sys2Proof.Machine

/-! ### setCore -/

@[simp] theorem State.setCore_agenda (s : State) (c : Nat) (k : Core) : (s.setCore c k).agenda = s.agenda := rfl
@[simp] theorem State.setCore_cur (s : State) (c : Nat) (k : Core) : (s.setCore c k).cur = s.cur := rfl
@[simp] theorem State.setCore_free (s : State) (c : Nat) (k : Core) : (s.setCore c k).free = s.free := rfl
@[simp] theorem State.setCore_epoch (s : State) (c : Nat) (k : Core) : (s.setCore c k).epoch = s.epoch := rfl
@[simp] theorem State.setCore_nextTid (s : State) (c : Nat) (k : Core) : (s.setCore c k).nextTid = s.nextTid := rfl
@[simp] theorem State.setCore_nextId (s : State) (c : Nat) (k : Core) : (s.setCore c k).nextId = s.nextId := rfl
@[simp] theorem State.setCore_hubs (s : State) (c : Nat) (k : Core) : (s.setCore c k).hubs = s.hubs := rfl
@[simp] theorem State.setCore_dies (s : State) (c : Nat) (k : Core) : (s.setCore c k).dies = s.dies := rfl
@[simp] theorem State.setCore_groups (s : State) (c : Nat) (k : Core) : (s.setCore c k).groups = s.groups := rfl
@[simp] theorem State.setCore_pdirbase (s : State) (c : Nat) (k : Core) : (s.setCore c k).pdirbase = s.pdirbase := rfl
@[simp] theorem State.setCore_mem (s : State) (c : Nat) (k : Core) : (s.setCore c k).mem = s.mem := rfl
@[simp] theorem State.setCore_empty (s : State) (c : Nat) (k : Core) : (s.setCore c k).empty = s.empty := rfl
@[simp] theorem State.setCore_absent (s : State) (c : Nat) (k : Core) : (s.setCore c k).absent = s.absent := rfl
@[simp] theorem State.setCore_poison (s : State) (c : Nat) (k : Core) : (s.setCore c k).poison = s.poison := rfl
@[simp] theorem State.setCore_latent (s : State) (c : Nat) (k : Core) : (s.setCore c k).latent = s.latent := rfl
@[simp] theorem State.setCore_flights (s : State) (c : Nat) (k : Core) : (s.setCore c k).flights = s.flights := rfl
@[simp] theorem State.setCore_msgs (s : State) (c : Nat) (k : Core) : (s.setCore c k).msgs = s.msgs := rfl
@[simp] theorem State.setCore_ext (s : State) (c : Nat) (k : Core) : (s.setCore c k).ext = s.ext := rfl
@[simp] theorem State.setCore_time (s : State) (c : Nat) (k : Core) : (s.setCore c k).time = s.time := rfl
@[simp] theorem State.setCore_tfrac (s : State) (c : Nat) (k : Core) : (s.setCore c k).tfrac = s.tfrac := rfl
@[simp] theorem State.setCore_tslew (s : State) (c : Nat) (k : Core) : (s.setCore c k).tslew = s.tslew := rfl
@[simp] theorem State.setCore_tadj (s : State) (c : Nat) (k : Core) : (s.setCore c k).tadj = s.tadj := rfl
@[simp] theorem State.setCore_tfreq (s : State) (c : Nat) (k : Core) : (s.setCore c k).tfreq = s.tfreq := rfl
@[simp] theorem State.setCore_level (s : State) (c : Nat) (k : Core) : (s.setCore c k).level = s.level := rfl
@[simp] theorem State.setCore_fwok (s : State) (c : Nat) (k : Core) : (s.setCore c k).fwok = s.fwok := rfl
@[simp] theorem State.setCore_fwver (s : State) (c : Nat) (k : Core) : (s.setCore c k).fwver = s.fwver := rfl
@[simp] theorem State.setCore_hmapsel (s : State) (c : Nat) (k : Core) : (s.setCore c k).hmapsel = s.hmapsel := rfl
@[simp] theorem State.setCore_hmap (s : State) (c : Nat) (k : Core) : (s.setCore c k).hmap = s.hmap := rfl
@[simp] theorem State.setCore_pwrTrip (s : State) (c : Nat) (k : Core) : (s.setCore c k).pwrTrip = s.pwrTrip := rfl
@[simp] theorem State.setCore_pwrThrot (s : State) (c : Nat) (k : Core) : (s.setCore c k).pwrThrot = s.pwrThrot := rfl
@[simp] theorem State.setCore_watts (s : State) (c : Nat) (k : Core) : (s.setCore c k).watts = s.watts := rfl
@[simp] theorem State.setCore_hostwin (s : State) (c : Nat) (k : Core) : (s.setCore c k).hostwin = s.hostwin := rfl
@[simp] theorem State.setCore_hosterr (s : State) (c : Nat) (k : Core) : (s.setCore c k).hosterr = s.hosterr := rfl
@[simp] theorem State.setCore_far (s : State) (c : Nat) (k : Core) : (s.setCore c k).far = s.far := rfl
@[simp] theorem State.setCore_peer (s : State) (c : Nat) (k : Core) : (s.setCore c k).peer = s.peer := rfl
@[simp] theorem State.setCore_relCe (s : State) (c : Nat) (k : Core) : (s.setCore c k).relCe = s.relCe := rfl
@[simp] theorem State.setCore_relUe (s : State) (c : Nat) (k : Core) : (s.setCore c k).relUe = s.relUe := rfl
@[simp] theorem State.setCore_relRails (s : State) (c : Nat) (k : Core) : (s.setCore c k).relRails = s.relRails := rfl
@[simp] theorem State.setCore_relLinkdn (s : State) (c : Nat) (k : Core) : (s.setCore c k).relLinkdn = s.relLinkdn := rfl
@[simp] theorem State.setCore_relDegr (s : State) (c : Nat) (k : Core) : (s.setCore c k).relDegr = s.relDegr := rfl
@[simp] theorem State.setCore_relUeev (s : State) (c : Nat) (k : Core) : (s.setCore c k).relUeev = s.relUeev := rfl
@[simp] theorem State.setCore_relRepl (s : State) (c : Nat) (k : Core) : (s.setCore c k).relRepl = s.relRepl := rfl
@[simp] theorem State.setCore_lost (s : State) (c : Nat) (k : Core) : (s.setCore c k).lost = s.lost := rfl
@[simp] theorem State.setCore_badFlits (s : State) (c : Nat) (k : Core) : (s.setCore c k).badFlits = s.badFlits := rfl
@[simp] theorem State.setCore_mapout (s : State) (c : Nat) (k : Core) : (s.setCore c k).mapout = s.mapout := rfl
@[simp] theorem State.setCore_mapoutReg (s : State) (c : Nat) (k : Core) : (s.setCore c k).mapoutReg = s.mapoutReg := rfl
@[simp] theorem State.setCore_smpInterval (s : State) (c : Nat) (k : Core) : (s.setCore c k).smpInterval = s.smpInterval := rfl
@[simp] theorem State.setCore_smpSeq (s : State) (c : Nat) (k : Core) : (s.setCore c k).smpSeq = s.smpSeq := rfl
@[simp] theorem State.setCore_smpAt (s : State) (c : Nat) (k : Core) : (s.setCore c k).smpAt = s.smpAt := rfl
@[simp] theorem State.setCore_out (s : State) (c : Nat) (k : Core) : (s.setCore c k).out = s.out := rfl
@[simp] theorem State.setCore_spdm (s : State) (c : Nat) (k : Core) : (s.setCore c k).spdm = s.spdm := rfl

/-! ### modCore -/

@[simp] theorem State.modCore_agenda (s : State) (c : Nat) (f : Core → Core) : (s.modCore c f).agenda = s.agenda := rfl
@[simp] theorem State.modCore_cur (s : State) (c : Nat) (f : Core → Core) : (s.modCore c f).cur = s.cur := rfl
@[simp] theorem State.modCore_free (s : State) (c : Nat) (f : Core → Core) : (s.modCore c f).free = s.free := rfl
@[simp] theorem State.modCore_epoch (s : State) (c : Nat) (f : Core → Core) : (s.modCore c f).epoch = s.epoch := rfl
@[simp] theorem State.modCore_nextTid (s : State) (c : Nat) (f : Core → Core) : (s.modCore c f).nextTid = s.nextTid := rfl
@[simp] theorem State.modCore_nextId (s : State) (c : Nat) (f : Core → Core) : (s.modCore c f).nextId = s.nextId := rfl
@[simp] theorem State.modCore_hubs (s : State) (c : Nat) (f : Core → Core) : (s.modCore c f).hubs = s.hubs := rfl
@[simp] theorem State.modCore_dies (s : State) (c : Nat) (f : Core → Core) : (s.modCore c f).dies = s.dies := rfl
@[simp] theorem State.modCore_groups (s : State) (c : Nat) (f : Core → Core) : (s.modCore c f).groups = s.groups := rfl
@[simp] theorem State.modCore_pdirbase (s : State) (c : Nat) (f : Core → Core) : (s.modCore c f).pdirbase = s.pdirbase := rfl
@[simp] theorem State.modCore_mem (s : State) (c : Nat) (f : Core → Core) : (s.modCore c f).mem = s.mem := rfl
@[simp] theorem State.modCore_empty (s : State) (c : Nat) (f : Core → Core) : (s.modCore c f).empty = s.empty := rfl
@[simp] theorem State.modCore_absent (s : State) (c : Nat) (f : Core → Core) : (s.modCore c f).absent = s.absent := rfl
@[simp] theorem State.modCore_poison (s : State) (c : Nat) (f : Core → Core) : (s.modCore c f).poison = s.poison := rfl
@[simp] theorem State.modCore_latent (s : State) (c : Nat) (f : Core → Core) : (s.modCore c f).latent = s.latent := rfl
@[simp] theorem State.modCore_flights (s : State) (c : Nat) (f : Core → Core) : (s.modCore c f).flights = s.flights := rfl
@[simp] theorem State.modCore_msgs (s : State) (c : Nat) (f : Core → Core) : (s.modCore c f).msgs = s.msgs := rfl
@[simp] theorem State.modCore_ext (s : State) (c : Nat) (f : Core → Core) : (s.modCore c f).ext = s.ext := rfl
@[simp] theorem State.modCore_time (s : State) (c : Nat) (f : Core → Core) : (s.modCore c f).time = s.time := rfl
@[simp] theorem State.modCore_tfrac (s : State) (c : Nat) (f : Core → Core) : (s.modCore c f).tfrac = s.tfrac := rfl
@[simp] theorem State.modCore_tslew (s : State) (c : Nat) (f : Core → Core) : (s.modCore c f).tslew = s.tslew := rfl
@[simp] theorem State.modCore_tadj (s : State) (c : Nat) (f : Core → Core) : (s.modCore c f).tadj = s.tadj := rfl
@[simp] theorem State.modCore_tfreq (s : State) (c : Nat) (f : Core → Core) : (s.modCore c f).tfreq = s.tfreq := rfl
@[simp] theorem State.modCore_level (s : State) (c : Nat) (f : Core → Core) : (s.modCore c f).level = s.level := rfl
@[simp] theorem State.modCore_fwok (s : State) (c : Nat) (f : Core → Core) : (s.modCore c f).fwok = s.fwok := rfl
@[simp] theorem State.modCore_fwver (s : State) (c : Nat) (f : Core → Core) : (s.modCore c f).fwver = s.fwver := rfl
@[simp] theorem State.modCore_hmapsel (s : State) (c : Nat) (f : Core → Core) : (s.modCore c f).hmapsel = s.hmapsel := rfl
@[simp] theorem State.modCore_hmap (s : State) (c : Nat) (f : Core → Core) : (s.modCore c f).hmap = s.hmap := rfl
@[simp] theorem State.modCore_pwrTrip (s : State) (c : Nat) (f : Core → Core) : (s.modCore c f).pwrTrip = s.pwrTrip := rfl
@[simp] theorem State.modCore_pwrThrot (s : State) (c : Nat) (f : Core → Core) : (s.modCore c f).pwrThrot = s.pwrThrot := rfl
@[simp] theorem State.modCore_watts (s : State) (c : Nat) (f : Core → Core) : (s.modCore c f).watts = s.watts := rfl
@[simp] theorem State.modCore_hostwin (s : State) (c : Nat) (f : Core → Core) : (s.modCore c f).hostwin = s.hostwin := rfl
@[simp] theorem State.modCore_hosterr (s : State) (c : Nat) (f : Core → Core) : (s.modCore c f).hosterr = s.hosterr := rfl
@[simp] theorem State.modCore_far (s : State) (c : Nat) (f : Core → Core) : (s.modCore c f).far = s.far := rfl
@[simp] theorem State.modCore_peer (s : State) (c : Nat) (f : Core → Core) : (s.modCore c f).peer = s.peer := rfl
@[simp] theorem State.modCore_relCe (s : State) (c : Nat) (f : Core → Core) : (s.modCore c f).relCe = s.relCe := rfl
@[simp] theorem State.modCore_relUe (s : State) (c : Nat) (f : Core → Core) : (s.modCore c f).relUe = s.relUe := rfl
@[simp] theorem State.modCore_relRails (s : State) (c : Nat) (f : Core → Core) : (s.modCore c f).relRails = s.relRails := rfl
@[simp] theorem State.modCore_relLinkdn (s : State) (c : Nat) (f : Core → Core) : (s.modCore c f).relLinkdn = s.relLinkdn := rfl
@[simp] theorem State.modCore_relDegr (s : State) (c : Nat) (f : Core → Core) : (s.modCore c f).relDegr = s.relDegr := rfl
@[simp] theorem State.modCore_relUeev (s : State) (c : Nat) (f : Core → Core) : (s.modCore c f).relUeev = s.relUeev := rfl
@[simp] theorem State.modCore_relRepl (s : State) (c : Nat) (f : Core → Core) : (s.modCore c f).relRepl = s.relRepl := rfl
@[simp] theorem State.modCore_lost (s : State) (c : Nat) (f : Core → Core) : (s.modCore c f).lost = s.lost := rfl
@[simp] theorem State.modCore_badFlits (s : State) (c : Nat) (f : Core → Core) : (s.modCore c f).badFlits = s.badFlits := rfl
@[simp] theorem State.modCore_mapout (s : State) (c : Nat) (f : Core → Core) : (s.modCore c f).mapout = s.mapout := rfl
@[simp] theorem State.modCore_mapoutReg (s : State) (c : Nat) (f : Core → Core) : (s.modCore c f).mapoutReg = s.mapoutReg := rfl
@[simp] theorem State.modCore_smpInterval (s : State) (c : Nat) (f : Core → Core) : (s.modCore c f).smpInterval = s.smpInterval := rfl
@[simp] theorem State.modCore_smpSeq (s : State) (c : Nat) (f : Core → Core) : (s.modCore c f).smpSeq = s.smpSeq := rfl
@[simp] theorem State.modCore_smpAt (s : State) (c : Nat) (f : Core → Core) : (s.modCore c f).smpAt = s.smpAt := rfl
@[simp] theorem State.modCore_out (s : State) (c : Nat) (f : Core → Core) : (s.modCore c f).out = s.out := rfl
@[simp] theorem State.modCore_spdm (s : State) (c : Nat) (f : Core → Core) : (s.modCore c f).spdm = s.spdm := rfl

/-! ### setSlot -/

@[simp] theorem State.setSlot_agenda (s : State) (c k : Nat) (t : Slot) : (s.setSlot c k t).agenda = s.agenda := rfl
@[simp] theorem State.setSlot_cur (s : State) (c k : Nat) (t : Slot) : (s.setSlot c k t).cur = s.cur := rfl
@[simp] theorem State.setSlot_free (s : State) (c k : Nat) (t : Slot) : (s.setSlot c k t).free = s.free := rfl
@[simp] theorem State.setSlot_epoch (s : State) (c k : Nat) (t : Slot) : (s.setSlot c k t).epoch = s.epoch := rfl
@[simp] theorem State.setSlot_nextTid (s : State) (c k : Nat) (t : Slot) : (s.setSlot c k t).nextTid = s.nextTid := rfl
@[simp] theorem State.setSlot_nextId (s : State) (c k : Nat) (t : Slot) : (s.setSlot c k t).nextId = s.nextId := rfl
@[simp] theorem State.setSlot_hubs (s : State) (c k : Nat) (t : Slot) : (s.setSlot c k t).hubs = s.hubs := rfl
@[simp] theorem State.setSlot_dies (s : State) (c k : Nat) (t : Slot) : (s.setSlot c k t).dies = s.dies := rfl
@[simp] theorem State.setSlot_groups (s : State) (c k : Nat) (t : Slot) : (s.setSlot c k t).groups = s.groups := rfl
@[simp] theorem State.setSlot_pdirbase (s : State) (c k : Nat) (t : Slot) : (s.setSlot c k t).pdirbase = s.pdirbase := rfl
@[simp] theorem State.setSlot_mem (s : State) (c k : Nat) (t : Slot) : (s.setSlot c k t).mem = s.mem := rfl
@[simp] theorem State.setSlot_empty (s : State) (c k : Nat) (t : Slot) : (s.setSlot c k t).empty = s.empty := rfl
@[simp] theorem State.setSlot_absent (s : State) (c k : Nat) (t : Slot) : (s.setSlot c k t).absent = s.absent := rfl
@[simp] theorem State.setSlot_poison (s : State) (c k : Nat) (t : Slot) : (s.setSlot c k t).poison = s.poison := rfl
@[simp] theorem State.setSlot_latent (s : State) (c k : Nat) (t : Slot) : (s.setSlot c k t).latent = s.latent := rfl
@[simp] theorem State.setSlot_flights (s : State) (c k : Nat) (t : Slot) : (s.setSlot c k t).flights = s.flights := rfl
@[simp] theorem State.setSlot_msgs (s : State) (c k : Nat) (t : Slot) : (s.setSlot c k t).msgs = s.msgs := rfl
@[simp] theorem State.setSlot_ext (s : State) (c k : Nat) (t : Slot) : (s.setSlot c k t).ext = s.ext := rfl
@[simp] theorem State.setSlot_time (s : State) (c k : Nat) (t : Slot) : (s.setSlot c k t).time = s.time := rfl
@[simp] theorem State.setSlot_tfrac (s : State) (c k : Nat) (t : Slot) : (s.setSlot c k t).tfrac = s.tfrac := rfl
@[simp] theorem State.setSlot_tslew (s : State) (c k : Nat) (t : Slot) : (s.setSlot c k t).tslew = s.tslew := rfl
@[simp] theorem State.setSlot_tadj (s : State) (c k : Nat) (t : Slot) : (s.setSlot c k t).tadj = s.tadj := rfl
@[simp] theorem State.setSlot_tfreq (s : State) (c k : Nat) (t : Slot) : (s.setSlot c k t).tfreq = s.tfreq := rfl
@[simp] theorem State.setSlot_level (s : State) (c k : Nat) (t : Slot) : (s.setSlot c k t).level = s.level := rfl
@[simp] theorem State.setSlot_fwok (s : State) (c k : Nat) (t : Slot) : (s.setSlot c k t).fwok = s.fwok := rfl
@[simp] theorem State.setSlot_fwver (s : State) (c k : Nat) (t : Slot) : (s.setSlot c k t).fwver = s.fwver := rfl
@[simp] theorem State.setSlot_hmapsel (s : State) (c k : Nat) (t : Slot) : (s.setSlot c k t).hmapsel = s.hmapsel := rfl
@[simp] theorem State.setSlot_hmap (s : State) (c k : Nat) (t : Slot) : (s.setSlot c k t).hmap = s.hmap := rfl
@[simp] theorem State.setSlot_pwrTrip (s : State) (c k : Nat) (t : Slot) : (s.setSlot c k t).pwrTrip = s.pwrTrip := rfl
@[simp] theorem State.setSlot_pwrThrot (s : State) (c k : Nat) (t : Slot) : (s.setSlot c k t).pwrThrot = s.pwrThrot := rfl
@[simp] theorem State.setSlot_watts (s : State) (c k : Nat) (t : Slot) : (s.setSlot c k t).watts = s.watts := rfl
@[simp] theorem State.setSlot_hostwin (s : State) (c k : Nat) (t : Slot) : (s.setSlot c k t).hostwin = s.hostwin := rfl
@[simp] theorem State.setSlot_hosterr (s : State) (c k : Nat) (t : Slot) : (s.setSlot c k t).hosterr = s.hosterr := rfl
@[simp] theorem State.setSlot_far (s : State) (c k : Nat) (t : Slot) : (s.setSlot c k t).far = s.far := rfl
@[simp] theorem State.setSlot_peer (s : State) (c k : Nat) (t : Slot) : (s.setSlot c k t).peer = s.peer := rfl
@[simp] theorem State.setSlot_relCe (s : State) (c k : Nat) (t : Slot) : (s.setSlot c k t).relCe = s.relCe := rfl
@[simp] theorem State.setSlot_relUe (s : State) (c k : Nat) (t : Slot) : (s.setSlot c k t).relUe = s.relUe := rfl
@[simp] theorem State.setSlot_relRails (s : State) (c k : Nat) (t : Slot) : (s.setSlot c k t).relRails = s.relRails := rfl
@[simp] theorem State.setSlot_relLinkdn (s : State) (c k : Nat) (t : Slot) : (s.setSlot c k t).relLinkdn = s.relLinkdn := rfl
@[simp] theorem State.setSlot_relDegr (s : State) (c k : Nat) (t : Slot) : (s.setSlot c k t).relDegr = s.relDegr := rfl
@[simp] theorem State.setSlot_relUeev (s : State) (c k : Nat) (t : Slot) : (s.setSlot c k t).relUeev = s.relUeev := rfl
@[simp] theorem State.setSlot_relRepl (s : State) (c k : Nat) (t : Slot) : (s.setSlot c k t).relRepl = s.relRepl := rfl
@[simp] theorem State.setSlot_lost (s : State) (c k : Nat) (t : Slot) : (s.setSlot c k t).lost = s.lost := rfl
@[simp] theorem State.setSlot_badFlits (s : State) (c k : Nat) (t : Slot) : (s.setSlot c k t).badFlits = s.badFlits := rfl
@[simp] theorem State.setSlot_mapout (s : State) (c k : Nat) (t : Slot) : (s.setSlot c k t).mapout = s.mapout := rfl
@[simp] theorem State.setSlot_mapoutReg (s : State) (c k : Nat) (t : Slot) : (s.setSlot c k t).mapoutReg = s.mapoutReg := rfl
@[simp] theorem State.setSlot_smpInterval (s : State) (c k : Nat) (t : Slot) : (s.setSlot c k t).smpInterval = s.smpInterval := rfl
@[simp] theorem State.setSlot_smpSeq (s : State) (c k : Nat) (t : Slot) : (s.setSlot c k t).smpSeq = s.smpSeq := rfl
@[simp] theorem State.setSlot_smpAt (s : State) (c k : Nat) (t : Slot) : (s.setSlot c k t).smpAt = s.smpAt := rfl
@[simp] theorem State.setSlot_out (s : State) (c k : Nat) (t : Slot) : (s.setSlot c k t).out = s.out := rfl
@[simp] theorem State.setSlot_spdm (s : State) (c k : Nat) (t : Slot) : (s.setSlot c k t).spdm = s.spdm := rfl

/-! ### modSlot -/

@[simp] theorem State.modSlot_agenda (s : State) (c k : Nat) (f : Slot → Slot) : (s.modSlot c k f).agenda = s.agenda := rfl
@[simp] theorem State.modSlot_cur (s : State) (c k : Nat) (f : Slot → Slot) : (s.modSlot c k f).cur = s.cur := rfl
@[simp] theorem State.modSlot_free (s : State) (c k : Nat) (f : Slot → Slot) : (s.modSlot c k f).free = s.free := rfl
@[simp] theorem State.modSlot_epoch (s : State) (c k : Nat) (f : Slot → Slot) : (s.modSlot c k f).epoch = s.epoch := rfl
@[simp] theorem State.modSlot_nextTid (s : State) (c k : Nat) (f : Slot → Slot) : (s.modSlot c k f).nextTid = s.nextTid := rfl
@[simp] theorem State.modSlot_nextId (s : State) (c k : Nat) (f : Slot → Slot) : (s.modSlot c k f).nextId = s.nextId := rfl
@[simp] theorem State.modSlot_hubs (s : State) (c k : Nat) (f : Slot → Slot) : (s.modSlot c k f).hubs = s.hubs := rfl
@[simp] theorem State.modSlot_dies (s : State) (c k : Nat) (f : Slot → Slot) : (s.modSlot c k f).dies = s.dies := rfl
@[simp] theorem State.modSlot_groups (s : State) (c k : Nat) (f : Slot → Slot) : (s.modSlot c k f).groups = s.groups := rfl
@[simp] theorem State.modSlot_pdirbase (s : State) (c k : Nat) (f : Slot → Slot) : (s.modSlot c k f).pdirbase = s.pdirbase := rfl
@[simp] theorem State.modSlot_mem (s : State) (c k : Nat) (f : Slot → Slot) : (s.modSlot c k f).mem = s.mem := rfl
@[simp] theorem State.modSlot_empty (s : State) (c k : Nat) (f : Slot → Slot) : (s.modSlot c k f).empty = s.empty := rfl
@[simp] theorem State.modSlot_absent (s : State) (c k : Nat) (f : Slot → Slot) : (s.modSlot c k f).absent = s.absent := rfl
@[simp] theorem State.modSlot_poison (s : State) (c k : Nat) (f : Slot → Slot) : (s.modSlot c k f).poison = s.poison := rfl
@[simp] theorem State.modSlot_latent (s : State) (c k : Nat) (f : Slot → Slot) : (s.modSlot c k f).latent = s.latent := rfl
@[simp] theorem State.modSlot_flights (s : State) (c k : Nat) (f : Slot → Slot) : (s.modSlot c k f).flights = s.flights := rfl
@[simp] theorem State.modSlot_msgs (s : State) (c k : Nat) (f : Slot → Slot) : (s.modSlot c k f).msgs = s.msgs := rfl
@[simp] theorem State.modSlot_ext (s : State) (c k : Nat) (f : Slot → Slot) : (s.modSlot c k f).ext = s.ext := rfl
@[simp] theorem State.modSlot_time (s : State) (c k : Nat) (f : Slot → Slot) : (s.modSlot c k f).time = s.time := rfl
@[simp] theorem State.modSlot_tfrac (s : State) (c k : Nat) (f : Slot → Slot) : (s.modSlot c k f).tfrac = s.tfrac := rfl
@[simp] theorem State.modSlot_tslew (s : State) (c k : Nat) (f : Slot → Slot) : (s.modSlot c k f).tslew = s.tslew := rfl
@[simp] theorem State.modSlot_tadj (s : State) (c k : Nat) (f : Slot → Slot) : (s.modSlot c k f).tadj = s.tadj := rfl
@[simp] theorem State.modSlot_tfreq (s : State) (c k : Nat) (f : Slot → Slot) : (s.modSlot c k f).tfreq = s.tfreq := rfl
@[simp] theorem State.modSlot_level (s : State) (c k : Nat) (f : Slot → Slot) : (s.modSlot c k f).level = s.level := rfl
@[simp] theorem State.modSlot_fwok (s : State) (c k : Nat) (f : Slot → Slot) : (s.modSlot c k f).fwok = s.fwok := rfl
@[simp] theorem State.modSlot_fwver (s : State) (c k : Nat) (f : Slot → Slot) : (s.modSlot c k f).fwver = s.fwver := rfl
@[simp] theorem State.modSlot_hmapsel (s : State) (c k : Nat) (f : Slot → Slot) : (s.modSlot c k f).hmapsel = s.hmapsel := rfl
@[simp] theorem State.modSlot_hmap (s : State) (c k : Nat) (f : Slot → Slot) : (s.modSlot c k f).hmap = s.hmap := rfl
@[simp] theorem State.modSlot_pwrTrip (s : State) (c k : Nat) (f : Slot → Slot) : (s.modSlot c k f).pwrTrip = s.pwrTrip := rfl
@[simp] theorem State.modSlot_pwrThrot (s : State) (c k : Nat) (f : Slot → Slot) : (s.modSlot c k f).pwrThrot = s.pwrThrot := rfl
@[simp] theorem State.modSlot_watts (s : State) (c k : Nat) (f : Slot → Slot) : (s.modSlot c k f).watts = s.watts := rfl
@[simp] theorem State.modSlot_hostwin (s : State) (c k : Nat) (f : Slot → Slot) : (s.modSlot c k f).hostwin = s.hostwin := rfl
@[simp] theorem State.modSlot_hosterr (s : State) (c k : Nat) (f : Slot → Slot) : (s.modSlot c k f).hosterr = s.hosterr := rfl
@[simp] theorem State.modSlot_far (s : State) (c k : Nat) (f : Slot → Slot) : (s.modSlot c k f).far = s.far := rfl
@[simp] theorem State.modSlot_peer (s : State) (c k : Nat) (f : Slot → Slot) : (s.modSlot c k f).peer = s.peer := rfl
@[simp] theorem State.modSlot_relCe (s : State) (c k : Nat) (f : Slot → Slot) : (s.modSlot c k f).relCe = s.relCe := rfl
@[simp] theorem State.modSlot_relUe (s : State) (c k : Nat) (f : Slot → Slot) : (s.modSlot c k f).relUe = s.relUe := rfl
@[simp] theorem State.modSlot_relRails (s : State) (c k : Nat) (f : Slot → Slot) : (s.modSlot c k f).relRails = s.relRails := rfl
@[simp] theorem State.modSlot_relLinkdn (s : State) (c k : Nat) (f : Slot → Slot) : (s.modSlot c k f).relLinkdn = s.relLinkdn := rfl
@[simp] theorem State.modSlot_relDegr (s : State) (c k : Nat) (f : Slot → Slot) : (s.modSlot c k f).relDegr = s.relDegr := rfl
@[simp] theorem State.modSlot_relUeev (s : State) (c k : Nat) (f : Slot → Slot) : (s.modSlot c k f).relUeev = s.relUeev := rfl
@[simp] theorem State.modSlot_relRepl (s : State) (c k : Nat) (f : Slot → Slot) : (s.modSlot c k f).relRepl = s.relRepl := rfl
@[simp] theorem State.modSlot_lost (s : State) (c k : Nat) (f : Slot → Slot) : (s.modSlot c k f).lost = s.lost := rfl
@[simp] theorem State.modSlot_badFlits (s : State) (c k : Nat) (f : Slot → Slot) : (s.modSlot c k f).badFlits = s.badFlits := rfl
@[simp] theorem State.modSlot_mapout (s : State) (c k : Nat) (f : Slot → Slot) : (s.modSlot c k f).mapout = s.mapout := rfl
@[simp] theorem State.modSlot_mapoutReg (s : State) (c k : Nat) (f : Slot → Slot) : (s.modSlot c k f).mapoutReg = s.mapoutReg := rfl
@[simp] theorem State.modSlot_smpInterval (s : State) (c k : Nat) (f : Slot → Slot) : (s.modSlot c k f).smpInterval = s.smpInterval := rfl
@[simp] theorem State.modSlot_smpSeq (s : State) (c k : Nat) (f : Slot → Slot) : (s.modSlot c k f).smpSeq = s.smpSeq := rfl
@[simp] theorem State.modSlot_smpAt (s : State) (c k : Nat) (f : Slot → Slot) : (s.modSlot c k f).smpAt = s.smpAt := rfl
@[simp] theorem State.modSlot_out (s : State) (c k : Nat) (f : Slot → Slot) : (s.modSlot c k f).out = s.out := rfl
@[simp] theorem State.modSlot_spdm (s : State) (c k : Nat) (f : Slot → Slot) : (s.modSlot c k f).spdm = s.spdm := rfl

/-! ### setMe -/

@[simp] theorem State.setMe_agenda (s : State) (t : Slot) : (s.setMe t).agenda = s.agenda := rfl
@[simp] theorem State.setMe_cur (s : State) (t : Slot) : (s.setMe t).cur = s.cur := rfl
@[simp] theorem State.setMe_free (s : State) (t : Slot) : (s.setMe t).free = s.free := rfl
@[simp] theorem State.setMe_epoch (s : State) (t : Slot) : (s.setMe t).epoch = s.epoch := rfl
@[simp] theorem State.setMe_nextTid (s : State) (t : Slot) : (s.setMe t).nextTid = s.nextTid := rfl
@[simp] theorem State.setMe_nextId (s : State) (t : Slot) : (s.setMe t).nextId = s.nextId := rfl
@[simp] theorem State.setMe_hubs (s : State) (t : Slot) : (s.setMe t).hubs = s.hubs := rfl
@[simp] theorem State.setMe_dies (s : State) (t : Slot) : (s.setMe t).dies = s.dies := rfl
@[simp] theorem State.setMe_groups (s : State) (t : Slot) : (s.setMe t).groups = s.groups := rfl
@[simp] theorem State.setMe_pdirbase (s : State) (t : Slot) : (s.setMe t).pdirbase = s.pdirbase := rfl
@[simp] theorem State.setMe_mem (s : State) (t : Slot) : (s.setMe t).mem = s.mem := rfl
@[simp] theorem State.setMe_empty (s : State) (t : Slot) : (s.setMe t).empty = s.empty := rfl
@[simp] theorem State.setMe_absent (s : State) (t : Slot) : (s.setMe t).absent = s.absent := rfl
@[simp] theorem State.setMe_poison (s : State) (t : Slot) : (s.setMe t).poison = s.poison := rfl
@[simp] theorem State.setMe_latent (s : State) (t : Slot) : (s.setMe t).latent = s.latent := rfl
@[simp] theorem State.setMe_flights (s : State) (t : Slot) : (s.setMe t).flights = s.flights := rfl
@[simp] theorem State.setMe_msgs (s : State) (t : Slot) : (s.setMe t).msgs = s.msgs := rfl
@[simp] theorem State.setMe_ext (s : State) (t : Slot) : (s.setMe t).ext = s.ext := rfl
@[simp] theorem State.setMe_time (s : State) (t : Slot) : (s.setMe t).time = s.time := rfl
@[simp] theorem State.setMe_tfrac (s : State) (t : Slot) : (s.setMe t).tfrac = s.tfrac := rfl
@[simp] theorem State.setMe_tslew (s : State) (t : Slot) : (s.setMe t).tslew = s.tslew := rfl
@[simp] theorem State.setMe_tadj (s : State) (t : Slot) : (s.setMe t).tadj = s.tadj := rfl
@[simp] theorem State.setMe_tfreq (s : State) (t : Slot) : (s.setMe t).tfreq = s.tfreq := rfl
@[simp] theorem State.setMe_level (s : State) (t : Slot) : (s.setMe t).level = s.level := rfl
@[simp] theorem State.setMe_fwok (s : State) (t : Slot) : (s.setMe t).fwok = s.fwok := rfl
@[simp] theorem State.setMe_fwver (s : State) (t : Slot) : (s.setMe t).fwver = s.fwver := rfl
@[simp] theorem State.setMe_hmapsel (s : State) (t : Slot) : (s.setMe t).hmapsel = s.hmapsel := rfl
@[simp] theorem State.setMe_hmap (s : State) (t : Slot) : (s.setMe t).hmap = s.hmap := rfl
@[simp] theorem State.setMe_pwrTrip (s : State) (t : Slot) : (s.setMe t).pwrTrip = s.pwrTrip := rfl
@[simp] theorem State.setMe_pwrThrot (s : State) (t : Slot) : (s.setMe t).pwrThrot = s.pwrThrot := rfl
@[simp] theorem State.setMe_watts (s : State) (t : Slot) : (s.setMe t).watts = s.watts := rfl
@[simp] theorem State.setMe_hostwin (s : State) (t : Slot) : (s.setMe t).hostwin = s.hostwin := rfl
@[simp] theorem State.setMe_hosterr (s : State) (t : Slot) : (s.setMe t).hosterr = s.hosterr := rfl
@[simp] theorem State.setMe_far (s : State) (t : Slot) : (s.setMe t).far = s.far := rfl
@[simp] theorem State.setMe_peer (s : State) (t : Slot) : (s.setMe t).peer = s.peer := rfl
@[simp] theorem State.setMe_relCe (s : State) (t : Slot) : (s.setMe t).relCe = s.relCe := rfl
@[simp] theorem State.setMe_relUe (s : State) (t : Slot) : (s.setMe t).relUe = s.relUe := rfl
@[simp] theorem State.setMe_relRails (s : State) (t : Slot) : (s.setMe t).relRails = s.relRails := rfl
@[simp] theorem State.setMe_relLinkdn (s : State) (t : Slot) : (s.setMe t).relLinkdn = s.relLinkdn := rfl
@[simp] theorem State.setMe_relDegr (s : State) (t : Slot) : (s.setMe t).relDegr = s.relDegr := rfl
@[simp] theorem State.setMe_relUeev (s : State) (t : Slot) : (s.setMe t).relUeev = s.relUeev := rfl
@[simp] theorem State.setMe_relRepl (s : State) (t : Slot) : (s.setMe t).relRepl = s.relRepl := rfl
@[simp] theorem State.setMe_lost (s : State) (t : Slot) : (s.setMe t).lost = s.lost := rfl
@[simp] theorem State.setMe_badFlits (s : State) (t : Slot) : (s.setMe t).badFlits = s.badFlits := rfl
@[simp] theorem State.setMe_mapout (s : State) (t : Slot) : (s.setMe t).mapout = s.mapout := rfl
@[simp] theorem State.setMe_mapoutReg (s : State) (t : Slot) : (s.setMe t).mapoutReg = s.mapoutReg := rfl
@[simp] theorem State.setMe_smpInterval (s : State) (t : Slot) : (s.setMe t).smpInterval = s.smpInterval := rfl
@[simp] theorem State.setMe_smpSeq (s : State) (t : Slot) : (s.setMe t).smpSeq = s.smpSeq := rfl
@[simp] theorem State.setMe_smpAt (s : State) (t : Slot) : (s.setMe t).smpAt = s.smpAt := rfl
@[simp] theorem State.setMe_out (s : State) (t : Slot) : (s.setMe t).out = s.out := rfl
@[simp] theorem State.setMe_spdm (s : State) (t : Slot) : (s.setMe t).spdm = s.spdm := rfl

/-! ### modTask -/

@[simp] theorem State.modTask_agenda (s : State) (c h : Nat) (f : Task → Task) : (s.modTask c h f).agenda = s.agenda := rfl
@[simp] theorem State.modTask_cur (s : State) (c h : Nat) (f : Task → Task) : (s.modTask c h f).cur = s.cur := rfl
@[simp] theorem State.modTask_free (s : State) (c h : Nat) (f : Task → Task) : (s.modTask c h f).free = s.free := rfl
@[simp] theorem State.modTask_epoch (s : State) (c h : Nat) (f : Task → Task) : (s.modTask c h f).epoch = s.epoch := rfl
@[simp] theorem State.modTask_nextTid (s : State) (c h : Nat) (f : Task → Task) : (s.modTask c h f).nextTid = s.nextTid := rfl
@[simp] theorem State.modTask_nextId (s : State) (c h : Nat) (f : Task → Task) : (s.modTask c h f).nextId = s.nextId := rfl
@[simp] theorem State.modTask_hubs (s : State) (c h : Nat) (f : Task → Task) : (s.modTask c h f).hubs = s.hubs := rfl
@[simp] theorem State.modTask_dies (s : State) (c h : Nat) (f : Task → Task) : (s.modTask c h f).dies = s.dies := rfl
@[simp] theorem State.modTask_groups (s : State) (c h : Nat) (f : Task → Task) : (s.modTask c h f).groups = s.groups := rfl
@[simp] theorem State.modTask_pdirbase (s : State) (c h : Nat) (f : Task → Task) : (s.modTask c h f).pdirbase = s.pdirbase := rfl
@[simp] theorem State.modTask_mem (s : State) (c h : Nat) (f : Task → Task) : (s.modTask c h f).mem = s.mem := rfl
@[simp] theorem State.modTask_empty (s : State) (c h : Nat) (f : Task → Task) : (s.modTask c h f).empty = s.empty := rfl
@[simp] theorem State.modTask_absent (s : State) (c h : Nat) (f : Task → Task) : (s.modTask c h f).absent = s.absent := rfl
@[simp] theorem State.modTask_poison (s : State) (c h : Nat) (f : Task → Task) : (s.modTask c h f).poison = s.poison := rfl
@[simp] theorem State.modTask_latent (s : State) (c h : Nat) (f : Task → Task) : (s.modTask c h f).latent = s.latent := rfl
@[simp] theorem State.modTask_flights (s : State) (c h : Nat) (f : Task → Task) : (s.modTask c h f).flights = s.flights := rfl
@[simp] theorem State.modTask_msgs (s : State) (c h : Nat) (f : Task → Task) : (s.modTask c h f).msgs = s.msgs := rfl
@[simp] theorem State.modTask_ext (s : State) (c h : Nat) (f : Task → Task) : (s.modTask c h f).ext = s.ext := rfl
@[simp] theorem State.modTask_time (s : State) (c h : Nat) (f : Task → Task) : (s.modTask c h f).time = s.time := rfl
@[simp] theorem State.modTask_tfrac (s : State) (c h : Nat) (f : Task → Task) : (s.modTask c h f).tfrac = s.tfrac := rfl
@[simp] theorem State.modTask_tslew (s : State) (c h : Nat) (f : Task → Task) : (s.modTask c h f).tslew = s.tslew := rfl
@[simp] theorem State.modTask_tadj (s : State) (c h : Nat) (f : Task → Task) : (s.modTask c h f).tadj = s.tadj := rfl
@[simp] theorem State.modTask_tfreq (s : State) (c h : Nat) (f : Task → Task) : (s.modTask c h f).tfreq = s.tfreq := rfl
@[simp] theorem State.modTask_level (s : State) (c h : Nat) (f : Task → Task) : (s.modTask c h f).level = s.level := rfl
@[simp] theorem State.modTask_fwok (s : State) (c h : Nat) (f : Task → Task) : (s.modTask c h f).fwok = s.fwok := rfl
@[simp] theorem State.modTask_fwver (s : State) (c h : Nat) (f : Task → Task) : (s.modTask c h f).fwver = s.fwver := rfl
@[simp] theorem State.modTask_hmapsel (s : State) (c h : Nat) (f : Task → Task) : (s.modTask c h f).hmapsel = s.hmapsel := rfl
@[simp] theorem State.modTask_hmap (s : State) (c h : Nat) (f : Task → Task) : (s.modTask c h f).hmap = s.hmap := rfl
@[simp] theorem State.modTask_pwrTrip (s : State) (c h : Nat) (f : Task → Task) : (s.modTask c h f).pwrTrip = s.pwrTrip := rfl
@[simp] theorem State.modTask_pwrThrot (s : State) (c h : Nat) (f : Task → Task) : (s.modTask c h f).pwrThrot = s.pwrThrot := rfl
@[simp] theorem State.modTask_watts (s : State) (c h : Nat) (f : Task → Task) : (s.modTask c h f).watts = s.watts := rfl
@[simp] theorem State.modTask_hostwin (s : State) (c h : Nat) (f : Task → Task) : (s.modTask c h f).hostwin = s.hostwin := rfl
@[simp] theorem State.modTask_hosterr (s : State) (c h : Nat) (f : Task → Task) : (s.modTask c h f).hosterr = s.hosterr := rfl
@[simp] theorem State.modTask_far (s : State) (c h : Nat) (f : Task → Task) : (s.modTask c h f).far = s.far := rfl
@[simp] theorem State.modTask_peer (s : State) (c h : Nat) (f : Task → Task) : (s.modTask c h f).peer = s.peer := rfl
@[simp] theorem State.modTask_relCe (s : State) (c h : Nat) (f : Task → Task) : (s.modTask c h f).relCe = s.relCe := rfl
@[simp] theorem State.modTask_relUe (s : State) (c h : Nat) (f : Task → Task) : (s.modTask c h f).relUe = s.relUe := rfl
@[simp] theorem State.modTask_relRails (s : State) (c h : Nat) (f : Task → Task) : (s.modTask c h f).relRails = s.relRails := rfl
@[simp] theorem State.modTask_relLinkdn (s : State) (c h : Nat) (f : Task → Task) : (s.modTask c h f).relLinkdn = s.relLinkdn := rfl
@[simp] theorem State.modTask_relDegr (s : State) (c h : Nat) (f : Task → Task) : (s.modTask c h f).relDegr = s.relDegr := rfl
@[simp] theorem State.modTask_relUeev (s : State) (c h : Nat) (f : Task → Task) : (s.modTask c h f).relUeev = s.relUeev := rfl
@[simp] theorem State.modTask_relRepl (s : State) (c h : Nat) (f : Task → Task) : (s.modTask c h f).relRepl = s.relRepl := rfl
@[simp] theorem State.modTask_lost (s : State) (c h : Nat) (f : Task → Task) : (s.modTask c h f).lost = s.lost := rfl
@[simp] theorem State.modTask_badFlits (s : State) (c h : Nat) (f : Task → Task) : (s.modTask c h f).badFlits = s.badFlits := rfl
@[simp] theorem State.modTask_mapout (s : State) (c h : Nat) (f : Task → Task) : (s.modTask c h f).mapout = s.mapout := rfl
@[simp] theorem State.modTask_mapoutReg (s : State) (c h : Nat) (f : Task → Task) : (s.modTask c h f).mapoutReg = s.mapoutReg := rfl
@[simp] theorem State.modTask_smpInterval (s : State) (c h : Nat) (f : Task → Task) : (s.modTask c h f).smpInterval = s.smpInterval := rfl
@[simp] theorem State.modTask_smpSeq (s : State) (c h : Nat) (f : Task → Task) : (s.modTask c h f).smpSeq = s.smpSeq := rfl
@[simp] theorem State.modTask_smpAt (s : State) (c h : Nat) (f : Task → Task) : (s.modTask c h f).smpAt = s.smpAt := rfl
@[simp] theorem State.modTask_out (s : State) (c h : Nat) (f : Task → Task) : (s.modTask c h f).out = s.out := rfl
@[simp] theorem State.modTask_spdm (s : State) (c h : Nat) (f : Task → Task) : (s.modTask c h f).spdm = s.spdm := rfl

/-! ### modHub -/

@[simp] theorem State.modHub_agenda (s : State) (h : Nat) (f : Hub → Hub) : (s.modHub h f).agenda = s.agenda := rfl
@[simp] theorem State.modHub_cur (s : State) (h : Nat) (f : Hub → Hub) : (s.modHub h f).cur = s.cur := rfl
@[simp] theorem State.modHub_free (s : State) (h : Nat) (f : Hub → Hub) : (s.modHub h f).free = s.free := rfl
@[simp] theorem State.modHub_epoch (s : State) (h : Nat) (f : Hub → Hub) : (s.modHub h f).epoch = s.epoch := rfl
@[simp] theorem State.modHub_nextTid (s : State) (h : Nat) (f : Hub → Hub) : (s.modHub h f).nextTid = s.nextTid := rfl
@[simp] theorem State.modHub_nextId (s : State) (h : Nat) (f : Hub → Hub) : (s.modHub h f).nextId = s.nextId := rfl
@[simp] theorem State.modHub_cores (s : State) (h : Nat) (f : Hub → Hub) : (s.modHub h f).cores = s.cores := rfl
@[simp] theorem State.modHub_dies (s : State) (h : Nat) (f : Hub → Hub) : (s.modHub h f).dies = s.dies := rfl
@[simp] theorem State.modHub_groups (s : State) (h : Nat) (f : Hub → Hub) : (s.modHub h f).groups = s.groups := rfl
@[simp] theorem State.modHub_pdirbase (s : State) (h : Nat) (f : Hub → Hub) : (s.modHub h f).pdirbase = s.pdirbase := rfl
@[simp] theorem State.modHub_mem (s : State) (h : Nat) (f : Hub → Hub) : (s.modHub h f).mem = s.mem := rfl
@[simp] theorem State.modHub_empty (s : State) (h : Nat) (f : Hub → Hub) : (s.modHub h f).empty = s.empty := rfl
@[simp] theorem State.modHub_absent (s : State) (h : Nat) (f : Hub → Hub) : (s.modHub h f).absent = s.absent := rfl
@[simp] theorem State.modHub_poison (s : State) (h : Nat) (f : Hub → Hub) : (s.modHub h f).poison = s.poison := rfl
@[simp] theorem State.modHub_latent (s : State) (h : Nat) (f : Hub → Hub) : (s.modHub h f).latent = s.latent := rfl
@[simp] theorem State.modHub_flights (s : State) (h : Nat) (f : Hub → Hub) : (s.modHub h f).flights = s.flights := rfl
@[simp] theorem State.modHub_msgs (s : State) (h : Nat) (f : Hub → Hub) : (s.modHub h f).msgs = s.msgs := rfl
@[simp] theorem State.modHub_ext (s : State) (h : Nat) (f : Hub → Hub) : (s.modHub h f).ext = s.ext := rfl
@[simp] theorem State.modHub_time (s : State) (h : Nat) (f : Hub → Hub) : (s.modHub h f).time = s.time := rfl
@[simp] theorem State.modHub_tfrac (s : State) (h : Nat) (f : Hub → Hub) : (s.modHub h f).tfrac = s.tfrac := rfl
@[simp] theorem State.modHub_tslew (s : State) (h : Nat) (f : Hub → Hub) : (s.modHub h f).tslew = s.tslew := rfl
@[simp] theorem State.modHub_tadj (s : State) (h : Nat) (f : Hub → Hub) : (s.modHub h f).tadj = s.tadj := rfl
@[simp] theorem State.modHub_tfreq (s : State) (h : Nat) (f : Hub → Hub) : (s.modHub h f).tfreq = s.tfreq := rfl
@[simp] theorem State.modHub_level (s : State) (h : Nat) (f : Hub → Hub) : (s.modHub h f).level = s.level := rfl
@[simp] theorem State.modHub_fwok (s : State) (h : Nat) (f : Hub → Hub) : (s.modHub h f).fwok = s.fwok := rfl
@[simp] theorem State.modHub_fwver (s : State) (h : Nat) (f : Hub → Hub) : (s.modHub h f).fwver = s.fwver := rfl
@[simp] theorem State.modHub_hmapsel (s : State) (h : Nat) (f : Hub → Hub) : (s.modHub h f).hmapsel = s.hmapsel := rfl
@[simp] theorem State.modHub_hmap (s : State) (h : Nat) (f : Hub → Hub) : (s.modHub h f).hmap = s.hmap := rfl
@[simp] theorem State.modHub_pwrTrip (s : State) (h : Nat) (f : Hub → Hub) : (s.modHub h f).pwrTrip = s.pwrTrip := rfl
@[simp] theorem State.modHub_pwrThrot (s : State) (h : Nat) (f : Hub → Hub) : (s.modHub h f).pwrThrot = s.pwrThrot := rfl
@[simp] theorem State.modHub_watts (s : State) (h : Nat) (f : Hub → Hub) : (s.modHub h f).watts = s.watts := rfl
@[simp] theorem State.modHub_hostwin (s : State) (h : Nat) (f : Hub → Hub) : (s.modHub h f).hostwin = s.hostwin := rfl
@[simp] theorem State.modHub_hosterr (s : State) (h : Nat) (f : Hub → Hub) : (s.modHub h f).hosterr = s.hosterr := rfl
@[simp] theorem State.modHub_far (s : State) (h : Nat) (f : Hub → Hub) : (s.modHub h f).far = s.far := rfl
@[simp] theorem State.modHub_peer (s : State) (h : Nat) (f : Hub → Hub) : (s.modHub h f).peer = s.peer := rfl
@[simp] theorem State.modHub_relCe (s : State) (h : Nat) (f : Hub → Hub) : (s.modHub h f).relCe = s.relCe := rfl
@[simp] theorem State.modHub_relUe (s : State) (h : Nat) (f : Hub → Hub) : (s.modHub h f).relUe = s.relUe := rfl
@[simp] theorem State.modHub_relRails (s : State) (h : Nat) (f : Hub → Hub) : (s.modHub h f).relRails = s.relRails := rfl
@[simp] theorem State.modHub_relLinkdn (s : State) (h : Nat) (f : Hub → Hub) : (s.modHub h f).relLinkdn = s.relLinkdn := rfl
@[simp] theorem State.modHub_relDegr (s : State) (h : Nat) (f : Hub → Hub) : (s.modHub h f).relDegr = s.relDegr := rfl
@[simp] theorem State.modHub_relUeev (s : State) (h : Nat) (f : Hub → Hub) : (s.modHub h f).relUeev = s.relUeev := rfl
@[simp] theorem State.modHub_relRepl (s : State) (h : Nat) (f : Hub → Hub) : (s.modHub h f).relRepl = s.relRepl := rfl
@[simp] theorem State.modHub_lost (s : State) (h : Nat) (f : Hub → Hub) : (s.modHub h f).lost = s.lost := rfl
@[simp] theorem State.modHub_badFlits (s : State) (h : Nat) (f : Hub → Hub) : (s.modHub h f).badFlits = s.badFlits := rfl
@[simp] theorem State.modHub_mapout (s : State) (h : Nat) (f : Hub → Hub) : (s.modHub h f).mapout = s.mapout := rfl
@[simp] theorem State.modHub_mapoutReg (s : State) (h : Nat) (f : Hub → Hub) : (s.modHub h f).mapoutReg = s.mapoutReg := rfl
@[simp] theorem State.modHub_smpInterval (s : State) (h : Nat) (f : Hub → Hub) : (s.modHub h f).smpInterval = s.smpInterval := rfl
@[simp] theorem State.modHub_smpSeq (s : State) (h : Nat) (f : Hub → Hub) : (s.modHub h f).smpSeq = s.smpSeq := rfl
@[simp] theorem State.modHub_smpAt (s : State) (h : Nat) (f : Hub → Hub) : (s.modHub h f).smpAt = s.smpAt := rfl
@[simp] theorem State.modHub_out (s : State) (h : Nat) (f : Hub → Hub) : (s.modHub h f).out = s.out := rfl
@[simp] theorem State.modHub_spdm (s : State) (h : Nat) (f : Hub → Hub) : (s.modHub h f).spdm = s.spdm := rfl

/-! ### modDie -/

@[simp] theorem State.modDie_agenda (s : State) (d : Nat) (f : Die → Die) : (s.modDie d f).agenda = s.agenda := rfl
@[simp] theorem State.modDie_cur (s : State) (d : Nat) (f : Die → Die) : (s.modDie d f).cur = s.cur := rfl
@[simp] theorem State.modDie_free (s : State) (d : Nat) (f : Die → Die) : (s.modDie d f).free = s.free := rfl
@[simp] theorem State.modDie_epoch (s : State) (d : Nat) (f : Die → Die) : (s.modDie d f).epoch = s.epoch := rfl
@[simp] theorem State.modDie_nextTid (s : State) (d : Nat) (f : Die → Die) : (s.modDie d f).nextTid = s.nextTid := rfl
@[simp] theorem State.modDie_nextId (s : State) (d : Nat) (f : Die → Die) : (s.modDie d f).nextId = s.nextId := rfl
@[simp] theorem State.modDie_cores (s : State) (d : Nat) (f : Die → Die) : (s.modDie d f).cores = s.cores := rfl
@[simp] theorem State.modDie_hubs (s : State) (d : Nat) (f : Die → Die) : (s.modDie d f).hubs = s.hubs := rfl
@[simp] theorem State.modDie_groups (s : State) (d : Nat) (f : Die → Die) : (s.modDie d f).groups = s.groups := rfl
@[simp] theorem State.modDie_pdirbase (s : State) (d : Nat) (f : Die → Die) : (s.modDie d f).pdirbase = s.pdirbase := rfl
@[simp] theorem State.modDie_mem (s : State) (d : Nat) (f : Die → Die) : (s.modDie d f).mem = s.mem := rfl
@[simp] theorem State.modDie_empty (s : State) (d : Nat) (f : Die → Die) : (s.modDie d f).empty = s.empty := rfl
@[simp] theorem State.modDie_absent (s : State) (d : Nat) (f : Die → Die) : (s.modDie d f).absent = s.absent := rfl
@[simp] theorem State.modDie_poison (s : State) (d : Nat) (f : Die → Die) : (s.modDie d f).poison = s.poison := rfl
@[simp] theorem State.modDie_latent (s : State) (d : Nat) (f : Die → Die) : (s.modDie d f).latent = s.latent := rfl
@[simp] theorem State.modDie_flights (s : State) (d : Nat) (f : Die → Die) : (s.modDie d f).flights = s.flights := rfl
@[simp] theorem State.modDie_msgs (s : State) (d : Nat) (f : Die → Die) : (s.modDie d f).msgs = s.msgs := rfl
@[simp] theorem State.modDie_ext (s : State) (d : Nat) (f : Die → Die) : (s.modDie d f).ext = s.ext := rfl
@[simp] theorem State.modDie_time (s : State) (d : Nat) (f : Die → Die) : (s.modDie d f).time = s.time := rfl
@[simp] theorem State.modDie_tfrac (s : State) (d : Nat) (f : Die → Die) : (s.modDie d f).tfrac = s.tfrac := rfl
@[simp] theorem State.modDie_tslew (s : State) (d : Nat) (f : Die → Die) : (s.modDie d f).tslew = s.tslew := rfl
@[simp] theorem State.modDie_tadj (s : State) (d : Nat) (f : Die → Die) : (s.modDie d f).tadj = s.tadj := rfl
@[simp] theorem State.modDie_tfreq (s : State) (d : Nat) (f : Die → Die) : (s.modDie d f).tfreq = s.tfreq := rfl
@[simp] theorem State.modDie_level (s : State) (d : Nat) (f : Die → Die) : (s.modDie d f).level = s.level := rfl
@[simp] theorem State.modDie_fwok (s : State) (d : Nat) (f : Die → Die) : (s.modDie d f).fwok = s.fwok := rfl
@[simp] theorem State.modDie_fwver (s : State) (d : Nat) (f : Die → Die) : (s.modDie d f).fwver = s.fwver := rfl
@[simp] theorem State.modDie_hmapsel (s : State) (d : Nat) (f : Die → Die) : (s.modDie d f).hmapsel = s.hmapsel := rfl
@[simp] theorem State.modDie_hmap (s : State) (d : Nat) (f : Die → Die) : (s.modDie d f).hmap = s.hmap := rfl
@[simp] theorem State.modDie_pwrTrip (s : State) (d : Nat) (f : Die → Die) : (s.modDie d f).pwrTrip = s.pwrTrip := rfl
@[simp] theorem State.modDie_pwrThrot (s : State) (d : Nat) (f : Die → Die) : (s.modDie d f).pwrThrot = s.pwrThrot := rfl
@[simp] theorem State.modDie_watts (s : State) (d : Nat) (f : Die → Die) : (s.modDie d f).watts = s.watts := rfl
@[simp] theorem State.modDie_hostwin (s : State) (d : Nat) (f : Die → Die) : (s.modDie d f).hostwin = s.hostwin := rfl
@[simp] theorem State.modDie_hosterr (s : State) (d : Nat) (f : Die → Die) : (s.modDie d f).hosterr = s.hosterr := rfl
@[simp] theorem State.modDie_far (s : State) (d : Nat) (f : Die → Die) : (s.modDie d f).far = s.far := rfl
@[simp] theorem State.modDie_peer (s : State) (d : Nat) (f : Die → Die) : (s.modDie d f).peer = s.peer := rfl
@[simp] theorem State.modDie_relCe (s : State) (d : Nat) (f : Die → Die) : (s.modDie d f).relCe = s.relCe := rfl
@[simp] theorem State.modDie_relUe (s : State) (d : Nat) (f : Die → Die) : (s.modDie d f).relUe = s.relUe := rfl
@[simp] theorem State.modDie_relRails (s : State) (d : Nat) (f : Die → Die) : (s.modDie d f).relRails = s.relRails := rfl
@[simp] theorem State.modDie_relLinkdn (s : State) (d : Nat) (f : Die → Die) : (s.modDie d f).relLinkdn = s.relLinkdn := rfl
@[simp] theorem State.modDie_relDegr (s : State) (d : Nat) (f : Die → Die) : (s.modDie d f).relDegr = s.relDegr := rfl
@[simp] theorem State.modDie_relUeev (s : State) (d : Nat) (f : Die → Die) : (s.modDie d f).relUeev = s.relUeev := rfl
@[simp] theorem State.modDie_relRepl (s : State) (d : Nat) (f : Die → Die) : (s.modDie d f).relRepl = s.relRepl := rfl
@[simp] theorem State.modDie_lost (s : State) (d : Nat) (f : Die → Die) : (s.modDie d f).lost = s.lost := rfl
@[simp] theorem State.modDie_badFlits (s : State) (d : Nat) (f : Die → Die) : (s.modDie d f).badFlits = s.badFlits := rfl
@[simp] theorem State.modDie_mapout (s : State) (d : Nat) (f : Die → Die) : (s.modDie d f).mapout = s.mapout := rfl
@[simp] theorem State.modDie_mapoutReg (s : State) (d : Nat) (f : Die → Die) : (s.modDie d f).mapoutReg = s.mapoutReg := rfl
@[simp] theorem State.modDie_smpInterval (s : State) (d : Nat) (f : Die → Die) : (s.modDie d f).smpInterval = s.smpInterval := rfl
@[simp] theorem State.modDie_smpSeq (s : State) (d : Nat) (f : Die → Die) : (s.modDie d f).smpSeq = s.smpSeq := rfl
@[simp] theorem State.modDie_smpAt (s : State) (d : Nat) (f : Die → Die) : (s.modDie d f).smpAt = s.smpAt := rfl
@[simp] theorem State.modDie_out (s : State) (d : Nat) (f : Die → Die) : (s.modDie d f).out = s.out := rfl
@[simp] theorem State.modDie_spdm (s : State) (d : Nat) (f : Die → Die) : (s.modDie d f).spdm = s.spdm := rfl

/-! ### modGroup -/

@[simp] theorem State.modGroup_agenda (s : State) (g : Nat) (f : Group → Group) : (s.modGroup g f).agenda = s.agenda := rfl
@[simp] theorem State.modGroup_cur (s : State) (g : Nat) (f : Group → Group) : (s.modGroup g f).cur = s.cur := rfl
@[simp] theorem State.modGroup_free (s : State) (g : Nat) (f : Group → Group) : (s.modGroup g f).free = s.free := rfl
@[simp] theorem State.modGroup_epoch (s : State) (g : Nat) (f : Group → Group) : (s.modGroup g f).epoch = s.epoch := rfl
@[simp] theorem State.modGroup_nextTid (s : State) (g : Nat) (f : Group → Group) : (s.modGroup g f).nextTid = s.nextTid := rfl
@[simp] theorem State.modGroup_nextId (s : State) (g : Nat) (f : Group → Group) : (s.modGroup g f).nextId = s.nextId := rfl
@[simp] theorem State.modGroup_cores (s : State) (g : Nat) (f : Group → Group) : (s.modGroup g f).cores = s.cores := rfl
@[simp] theorem State.modGroup_hubs (s : State) (g : Nat) (f : Group → Group) : (s.modGroup g f).hubs = s.hubs := rfl
@[simp] theorem State.modGroup_dies (s : State) (g : Nat) (f : Group → Group) : (s.modGroup g f).dies = s.dies := rfl
@[simp] theorem State.modGroup_pdirbase (s : State) (g : Nat) (f : Group → Group) : (s.modGroup g f).pdirbase = s.pdirbase := rfl
@[simp] theorem State.modGroup_mem (s : State) (g : Nat) (f : Group → Group) : (s.modGroup g f).mem = s.mem := rfl
@[simp] theorem State.modGroup_empty (s : State) (g : Nat) (f : Group → Group) : (s.modGroup g f).empty = s.empty := rfl
@[simp] theorem State.modGroup_absent (s : State) (g : Nat) (f : Group → Group) : (s.modGroup g f).absent = s.absent := rfl
@[simp] theorem State.modGroup_poison (s : State) (g : Nat) (f : Group → Group) : (s.modGroup g f).poison = s.poison := rfl
@[simp] theorem State.modGroup_latent (s : State) (g : Nat) (f : Group → Group) : (s.modGroup g f).latent = s.latent := rfl
@[simp] theorem State.modGroup_flights (s : State) (g : Nat) (f : Group → Group) : (s.modGroup g f).flights = s.flights := rfl
@[simp] theorem State.modGroup_msgs (s : State) (g : Nat) (f : Group → Group) : (s.modGroup g f).msgs = s.msgs := rfl
@[simp] theorem State.modGroup_ext (s : State) (g : Nat) (f : Group → Group) : (s.modGroup g f).ext = s.ext := rfl
@[simp] theorem State.modGroup_time (s : State) (g : Nat) (f : Group → Group) : (s.modGroup g f).time = s.time := rfl
@[simp] theorem State.modGroup_tfrac (s : State) (g : Nat) (f : Group → Group) : (s.modGroup g f).tfrac = s.tfrac := rfl
@[simp] theorem State.modGroup_tslew (s : State) (g : Nat) (f : Group → Group) : (s.modGroup g f).tslew = s.tslew := rfl
@[simp] theorem State.modGroup_tadj (s : State) (g : Nat) (f : Group → Group) : (s.modGroup g f).tadj = s.tadj := rfl
@[simp] theorem State.modGroup_tfreq (s : State) (g : Nat) (f : Group → Group) : (s.modGroup g f).tfreq = s.tfreq := rfl
@[simp] theorem State.modGroup_level (s : State) (g : Nat) (f : Group → Group) : (s.modGroup g f).level = s.level := rfl
@[simp] theorem State.modGroup_fwok (s : State) (g : Nat) (f : Group → Group) : (s.modGroup g f).fwok = s.fwok := rfl
@[simp] theorem State.modGroup_fwver (s : State) (g : Nat) (f : Group → Group) : (s.modGroup g f).fwver = s.fwver := rfl
@[simp] theorem State.modGroup_hmapsel (s : State) (g : Nat) (f : Group → Group) : (s.modGroup g f).hmapsel = s.hmapsel := rfl
@[simp] theorem State.modGroup_hmap (s : State) (g : Nat) (f : Group → Group) : (s.modGroup g f).hmap = s.hmap := rfl
@[simp] theorem State.modGroup_pwrTrip (s : State) (g : Nat) (f : Group → Group) : (s.modGroup g f).pwrTrip = s.pwrTrip := rfl
@[simp] theorem State.modGroup_pwrThrot (s : State) (g : Nat) (f : Group → Group) : (s.modGroup g f).pwrThrot = s.pwrThrot := rfl
@[simp] theorem State.modGroup_watts (s : State) (g : Nat) (f : Group → Group) : (s.modGroup g f).watts = s.watts := rfl
@[simp] theorem State.modGroup_hostwin (s : State) (g : Nat) (f : Group → Group) : (s.modGroup g f).hostwin = s.hostwin := rfl
@[simp] theorem State.modGroup_hosterr (s : State) (g : Nat) (f : Group → Group) : (s.modGroup g f).hosterr = s.hosterr := rfl
@[simp] theorem State.modGroup_far (s : State) (g : Nat) (f : Group → Group) : (s.modGroup g f).far = s.far := rfl
@[simp] theorem State.modGroup_peer (s : State) (g : Nat) (f : Group → Group) : (s.modGroup g f).peer = s.peer := rfl
@[simp] theorem State.modGroup_relCe (s : State) (g : Nat) (f : Group → Group) : (s.modGroup g f).relCe = s.relCe := rfl
@[simp] theorem State.modGroup_relUe (s : State) (g : Nat) (f : Group → Group) : (s.modGroup g f).relUe = s.relUe := rfl
@[simp] theorem State.modGroup_relRails (s : State) (g : Nat) (f : Group → Group) : (s.modGroup g f).relRails = s.relRails := rfl
@[simp] theorem State.modGroup_relLinkdn (s : State) (g : Nat) (f : Group → Group) : (s.modGroup g f).relLinkdn = s.relLinkdn := rfl
@[simp] theorem State.modGroup_relDegr (s : State) (g : Nat) (f : Group → Group) : (s.modGroup g f).relDegr = s.relDegr := rfl
@[simp] theorem State.modGroup_relUeev (s : State) (g : Nat) (f : Group → Group) : (s.modGroup g f).relUeev = s.relUeev := rfl
@[simp] theorem State.modGroup_relRepl (s : State) (g : Nat) (f : Group → Group) : (s.modGroup g f).relRepl = s.relRepl := rfl
@[simp] theorem State.modGroup_lost (s : State) (g : Nat) (f : Group → Group) : (s.modGroup g f).lost = s.lost := rfl
@[simp] theorem State.modGroup_badFlits (s : State) (g : Nat) (f : Group → Group) : (s.modGroup g f).badFlits = s.badFlits := rfl
@[simp] theorem State.modGroup_mapout (s : State) (g : Nat) (f : Group → Group) : (s.modGroup g f).mapout = s.mapout := rfl
@[simp] theorem State.modGroup_mapoutReg (s : State) (g : Nat) (f : Group → Group) : (s.modGroup g f).mapoutReg = s.mapoutReg := rfl
@[simp] theorem State.modGroup_smpInterval (s : State) (g : Nat) (f : Group → Group) : (s.modGroup g f).smpInterval = s.smpInterval := rfl
@[simp] theorem State.modGroup_smpSeq (s : State) (g : Nat) (f : Group → Group) : (s.modGroup g f).smpSeq = s.smpSeq := rfl
@[simp] theorem State.modGroup_smpAt (s : State) (g : Nat) (f : Group → Group) : (s.modGroup g f).smpAt = s.smpAt := rfl
@[simp] theorem State.modGroup_out (s : State) (g : Nat) (f : Group → Group) : (s.modGroup g f).out = s.out := rfl
@[simp] theorem State.modGroup_spdm (s : State) (g : Nat) (f : Group → Group) : (s.modGroup g f).spdm = s.spdm := rfl

/-! ### bump -/

@[simp] theorem State.bump_agenda (s : State) : (s.bump).agenda = s.agenda := rfl
@[simp] theorem State.bump_cur (s : State) : (s.bump).cur = s.cur := rfl
@[simp] theorem State.bump_epoch (s : State) : (s.bump).epoch = s.epoch := rfl
@[simp] theorem State.bump_nextTid (s : State) : (s.bump).nextTid = s.nextTid := rfl
@[simp] theorem State.bump_nextId (s : State) : (s.bump).nextId = s.nextId := rfl
@[simp] theorem State.bump_cores (s : State) : (s.bump).cores = s.cores := rfl
@[simp] theorem State.bump_hubs (s : State) : (s.bump).hubs = s.hubs := rfl
@[simp] theorem State.bump_dies (s : State) : (s.bump).dies = s.dies := rfl
@[simp] theorem State.bump_groups (s : State) : (s.bump).groups = s.groups := rfl
@[simp] theorem State.bump_pdirbase (s : State) : (s.bump).pdirbase = s.pdirbase := rfl
@[simp] theorem State.bump_mem (s : State) : (s.bump).mem = s.mem := rfl
@[simp] theorem State.bump_empty (s : State) : (s.bump).empty = s.empty := rfl
@[simp] theorem State.bump_absent (s : State) : (s.bump).absent = s.absent := rfl
@[simp] theorem State.bump_poison (s : State) : (s.bump).poison = s.poison := rfl
@[simp] theorem State.bump_latent (s : State) : (s.bump).latent = s.latent := rfl
@[simp] theorem State.bump_flights (s : State) : (s.bump).flights = s.flights := rfl
@[simp] theorem State.bump_msgs (s : State) : (s.bump).msgs = s.msgs := rfl
@[simp] theorem State.bump_ext (s : State) : (s.bump).ext = s.ext := rfl
@[simp] theorem State.bump_time (s : State) : (s.bump).time = s.time := rfl
@[simp] theorem State.bump_tfrac (s : State) : (s.bump).tfrac = s.tfrac := rfl
@[simp] theorem State.bump_tslew (s : State) : (s.bump).tslew = s.tslew := rfl
@[simp] theorem State.bump_tadj (s : State) : (s.bump).tadj = s.tadj := rfl
@[simp] theorem State.bump_tfreq (s : State) : (s.bump).tfreq = s.tfreq := rfl
@[simp] theorem State.bump_level (s : State) : (s.bump).level = s.level := rfl
@[simp] theorem State.bump_fwok (s : State) : (s.bump).fwok = s.fwok := rfl
@[simp] theorem State.bump_fwver (s : State) : (s.bump).fwver = s.fwver := rfl
@[simp] theorem State.bump_hmapsel (s : State) : (s.bump).hmapsel = s.hmapsel := rfl
@[simp] theorem State.bump_hmap (s : State) : (s.bump).hmap = s.hmap := rfl
@[simp] theorem State.bump_pwrTrip (s : State) : (s.bump).pwrTrip = s.pwrTrip := rfl
@[simp] theorem State.bump_pwrThrot (s : State) : (s.bump).pwrThrot = s.pwrThrot := rfl
@[simp] theorem State.bump_watts (s : State) : (s.bump).watts = s.watts := rfl
@[simp] theorem State.bump_hostwin (s : State) : (s.bump).hostwin = s.hostwin := rfl
@[simp] theorem State.bump_hosterr (s : State) : (s.bump).hosterr = s.hosterr := rfl
@[simp] theorem State.bump_far (s : State) : (s.bump).far = s.far := rfl
@[simp] theorem State.bump_peer (s : State) : (s.bump).peer = s.peer := rfl
@[simp] theorem State.bump_relCe (s : State) : (s.bump).relCe = s.relCe := rfl
@[simp] theorem State.bump_relUe (s : State) : (s.bump).relUe = s.relUe := rfl
@[simp] theorem State.bump_relRails (s : State) : (s.bump).relRails = s.relRails := rfl
@[simp] theorem State.bump_relLinkdn (s : State) : (s.bump).relLinkdn = s.relLinkdn := rfl
@[simp] theorem State.bump_relDegr (s : State) : (s.bump).relDegr = s.relDegr := rfl
@[simp] theorem State.bump_relUeev (s : State) : (s.bump).relUeev = s.relUeev := rfl
@[simp] theorem State.bump_relRepl (s : State) : (s.bump).relRepl = s.relRepl := rfl
@[simp] theorem State.bump_lost (s : State) : (s.bump).lost = s.lost := rfl
@[simp] theorem State.bump_badFlits (s : State) : (s.bump).badFlits = s.badFlits := rfl
@[simp] theorem State.bump_mapout (s : State) : (s.bump).mapout = s.mapout := rfl
@[simp] theorem State.bump_mapoutReg (s : State) : (s.bump).mapoutReg = s.mapoutReg := rfl
@[simp] theorem State.bump_smpInterval (s : State) : (s.bump).smpInterval = s.smpInterval := rfl
@[simp] theorem State.bump_smpSeq (s : State) : (s.bump).smpSeq = s.smpSeq := rfl
@[simp] theorem State.bump_smpAt (s : State) : (s.bump).smpAt = s.smpAt := rfl
@[simp] theorem State.bump_out (s : State) : (s.bump).out = s.out := rfl
@[simp] theorem State.bump_spdm (s : State) : (s.bump).spdm = s.spdm := rfl

/-! ### send -/

@[simp] theorem State.send_agenda (s : State) (m : Msg) : (s.send m).agenda = s.agenda := rfl
@[simp] theorem State.send_cur (s : State) (m : Msg) : (s.send m).cur = s.cur := rfl
@[simp] theorem State.send_free (s : State) (m : Msg) : (s.send m).free = s.free := rfl
@[simp] theorem State.send_epoch (s : State) (m : Msg) : (s.send m).epoch = s.epoch := rfl
@[simp] theorem State.send_nextTid (s : State) (m : Msg) : (s.send m).nextTid = s.nextTid := rfl
@[simp] theorem State.send_cores (s : State) (m : Msg) : (s.send m).cores = s.cores := rfl
@[simp] theorem State.send_hubs (s : State) (m : Msg) : (s.send m).hubs = s.hubs := rfl
@[simp] theorem State.send_dies (s : State) (m : Msg) : (s.send m).dies = s.dies := rfl
@[simp] theorem State.send_groups (s : State) (m : Msg) : (s.send m).groups = s.groups := rfl
@[simp] theorem State.send_pdirbase (s : State) (m : Msg) : (s.send m).pdirbase = s.pdirbase := rfl
@[simp] theorem State.send_mem (s : State) (m : Msg) : (s.send m).mem = s.mem := rfl
@[simp] theorem State.send_empty (s : State) (m : Msg) : (s.send m).empty = s.empty := rfl
@[simp] theorem State.send_absent (s : State) (m : Msg) : (s.send m).absent = s.absent := rfl
@[simp] theorem State.send_poison (s : State) (m : Msg) : (s.send m).poison = s.poison := rfl
@[simp] theorem State.send_latent (s : State) (m : Msg) : (s.send m).latent = s.latent := rfl
@[simp] theorem State.send_flights (s : State) (m : Msg) : (s.send m).flights = s.flights := rfl
@[simp] theorem State.send_ext (s : State) (m : Msg) : (s.send m).ext = s.ext := rfl
@[simp] theorem State.send_time (s : State) (m : Msg) : (s.send m).time = s.time := rfl
@[simp] theorem State.send_tfrac (s : State) (m : Msg) : (s.send m).tfrac = s.tfrac := rfl
@[simp] theorem State.send_tslew (s : State) (m : Msg) : (s.send m).tslew = s.tslew := rfl
@[simp] theorem State.send_tadj (s : State) (m : Msg) : (s.send m).tadj = s.tadj := rfl
@[simp] theorem State.send_tfreq (s : State) (m : Msg) : (s.send m).tfreq = s.tfreq := rfl
@[simp] theorem State.send_level (s : State) (m : Msg) : (s.send m).level = s.level := rfl
@[simp] theorem State.send_fwok (s : State) (m : Msg) : (s.send m).fwok = s.fwok := rfl
@[simp] theorem State.send_fwver (s : State) (m : Msg) : (s.send m).fwver = s.fwver := rfl
@[simp] theorem State.send_hmapsel (s : State) (m : Msg) : (s.send m).hmapsel = s.hmapsel := rfl
@[simp] theorem State.send_hmap (s : State) (m : Msg) : (s.send m).hmap = s.hmap := rfl
@[simp] theorem State.send_pwrTrip (s : State) (m : Msg) : (s.send m).pwrTrip = s.pwrTrip := rfl
@[simp] theorem State.send_pwrThrot (s : State) (m : Msg) : (s.send m).pwrThrot = s.pwrThrot := rfl
@[simp] theorem State.send_watts (s : State) (m : Msg) : (s.send m).watts = s.watts := rfl
@[simp] theorem State.send_hostwin (s : State) (m : Msg) : (s.send m).hostwin = s.hostwin := rfl
@[simp] theorem State.send_hosterr (s : State) (m : Msg) : (s.send m).hosterr = s.hosterr := rfl
@[simp] theorem State.send_far (s : State) (m : Msg) : (s.send m).far = s.far := rfl
@[simp] theorem State.send_peer (s : State) (m : Msg) : (s.send m).peer = s.peer := rfl
@[simp] theorem State.send_relCe (s : State) (m : Msg) : (s.send m).relCe = s.relCe := rfl
@[simp] theorem State.send_relUe (s : State) (m : Msg) : (s.send m).relUe = s.relUe := rfl
@[simp] theorem State.send_relRails (s : State) (m : Msg) : (s.send m).relRails = s.relRails := rfl
@[simp] theorem State.send_relLinkdn (s : State) (m : Msg) : (s.send m).relLinkdn = s.relLinkdn := rfl
@[simp] theorem State.send_relDegr (s : State) (m : Msg) : (s.send m).relDegr = s.relDegr := rfl
@[simp] theorem State.send_relUeev (s : State) (m : Msg) : (s.send m).relUeev = s.relUeev := rfl
@[simp] theorem State.send_relRepl (s : State) (m : Msg) : (s.send m).relRepl = s.relRepl := rfl
@[simp] theorem State.send_lost (s : State) (m : Msg) : (s.send m).lost = s.lost := rfl
@[simp] theorem State.send_badFlits (s : State) (m : Msg) : (s.send m).badFlits = s.badFlits := rfl
@[simp] theorem State.send_mapout (s : State) (m : Msg) : (s.send m).mapout = s.mapout := rfl
@[simp] theorem State.send_mapoutReg (s : State) (m : Msg) : (s.send m).mapoutReg = s.mapoutReg := rfl
@[simp] theorem State.send_smpInterval (s : State) (m : Msg) : (s.send m).smpInterval = s.smpInterval := rfl
@[simp] theorem State.send_smpSeq (s : State) (m : Msg) : (s.send m).smpSeq = s.smpSeq := rfl
@[simp] theorem State.send_smpAt (s : State) (m : Msg) : (s.send m).smpAt = s.smpAt := rfl
@[simp] theorem State.send_out (s : State) (m : Msg) : (s.send m).out = s.out := rfl
@[simp] theorem State.send_spdm (s : State) (m : Msg) : (s.send m).spdm = s.spdm := rfl

/-! ### setFull -/

@[simp] theorem State.setFull_agenda (s : State) (pa : Nat) (b : Bool) : (s.setFull pa b).agenda = s.agenda := rfl
@[simp] theorem State.setFull_cur (s : State) (pa : Nat) (b : Bool) : (s.setFull pa b).cur = s.cur := rfl
@[simp] theorem State.setFull_free (s : State) (pa : Nat) (b : Bool) : (s.setFull pa b).free = s.free := rfl
@[simp] theorem State.setFull_epoch (s : State) (pa : Nat) (b : Bool) : (s.setFull pa b).epoch = s.epoch := rfl
@[simp] theorem State.setFull_nextTid (s : State) (pa : Nat) (b : Bool) : (s.setFull pa b).nextTid = s.nextTid := rfl
@[simp] theorem State.setFull_nextId (s : State) (pa : Nat) (b : Bool) : (s.setFull pa b).nextId = s.nextId := rfl
@[simp] theorem State.setFull_cores (s : State) (pa : Nat) (b : Bool) : (s.setFull pa b).cores = s.cores := rfl
@[simp] theorem State.setFull_hubs (s : State) (pa : Nat) (b : Bool) : (s.setFull pa b).hubs = s.hubs := rfl
@[simp] theorem State.setFull_dies (s : State) (pa : Nat) (b : Bool) : (s.setFull pa b).dies = s.dies := rfl
@[simp] theorem State.setFull_groups (s : State) (pa : Nat) (b : Bool) : (s.setFull pa b).groups = s.groups := rfl
@[simp] theorem State.setFull_pdirbase (s : State) (pa : Nat) (b : Bool) : (s.setFull pa b).pdirbase = s.pdirbase := rfl
@[simp] theorem State.setFull_mem (s : State) (pa : Nat) (b : Bool) : (s.setFull pa b).mem = s.mem := rfl
@[simp] theorem State.setFull_absent (s : State) (pa : Nat) (b : Bool) : (s.setFull pa b).absent = s.absent := rfl
@[simp] theorem State.setFull_poison (s : State) (pa : Nat) (b : Bool) : (s.setFull pa b).poison = s.poison := rfl
@[simp] theorem State.setFull_latent (s : State) (pa : Nat) (b : Bool) : (s.setFull pa b).latent = s.latent := rfl
@[simp] theorem State.setFull_flights (s : State) (pa : Nat) (b : Bool) : (s.setFull pa b).flights = s.flights := rfl
@[simp] theorem State.setFull_msgs (s : State) (pa : Nat) (b : Bool) : (s.setFull pa b).msgs = s.msgs := rfl
@[simp] theorem State.setFull_ext (s : State) (pa : Nat) (b : Bool) : (s.setFull pa b).ext = s.ext := rfl
@[simp] theorem State.setFull_time (s : State) (pa : Nat) (b : Bool) : (s.setFull pa b).time = s.time := rfl
@[simp] theorem State.setFull_tfrac (s : State) (pa : Nat) (b : Bool) : (s.setFull pa b).tfrac = s.tfrac := rfl
@[simp] theorem State.setFull_tslew (s : State) (pa : Nat) (b : Bool) : (s.setFull pa b).tslew = s.tslew := rfl
@[simp] theorem State.setFull_tadj (s : State) (pa : Nat) (b : Bool) : (s.setFull pa b).tadj = s.tadj := rfl
@[simp] theorem State.setFull_tfreq (s : State) (pa : Nat) (b : Bool) : (s.setFull pa b).tfreq = s.tfreq := rfl
@[simp] theorem State.setFull_level (s : State) (pa : Nat) (b : Bool) : (s.setFull pa b).level = s.level := rfl
@[simp] theorem State.setFull_fwok (s : State) (pa : Nat) (b : Bool) : (s.setFull pa b).fwok = s.fwok := rfl
@[simp] theorem State.setFull_fwver (s : State) (pa : Nat) (b : Bool) : (s.setFull pa b).fwver = s.fwver := rfl
@[simp] theorem State.setFull_hmapsel (s : State) (pa : Nat) (b : Bool) : (s.setFull pa b).hmapsel = s.hmapsel := rfl
@[simp] theorem State.setFull_hmap (s : State) (pa : Nat) (b : Bool) : (s.setFull pa b).hmap = s.hmap := rfl
@[simp] theorem State.setFull_pwrTrip (s : State) (pa : Nat) (b : Bool) : (s.setFull pa b).pwrTrip = s.pwrTrip := rfl
@[simp] theorem State.setFull_pwrThrot (s : State) (pa : Nat) (b : Bool) : (s.setFull pa b).pwrThrot = s.pwrThrot := rfl
@[simp] theorem State.setFull_watts (s : State) (pa : Nat) (b : Bool) : (s.setFull pa b).watts = s.watts := rfl
@[simp] theorem State.setFull_hostwin (s : State) (pa : Nat) (b : Bool) : (s.setFull pa b).hostwin = s.hostwin := rfl
@[simp] theorem State.setFull_hosterr (s : State) (pa : Nat) (b : Bool) : (s.setFull pa b).hosterr = s.hosterr := rfl
@[simp] theorem State.setFull_far (s : State) (pa : Nat) (b : Bool) : (s.setFull pa b).far = s.far := rfl
@[simp] theorem State.setFull_peer (s : State) (pa : Nat) (b : Bool) : (s.setFull pa b).peer = s.peer := rfl
@[simp] theorem State.setFull_relCe (s : State) (pa : Nat) (b : Bool) : (s.setFull pa b).relCe = s.relCe := rfl
@[simp] theorem State.setFull_relUe (s : State) (pa : Nat) (b : Bool) : (s.setFull pa b).relUe = s.relUe := rfl
@[simp] theorem State.setFull_relRails (s : State) (pa : Nat) (b : Bool) : (s.setFull pa b).relRails = s.relRails := rfl
@[simp] theorem State.setFull_relLinkdn (s : State) (pa : Nat) (b : Bool) : (s.setFull pa b).relLinkdn = s.relLinkdn := rfl
@[simp] theorem State.setFull_relDegr (s : State) (pa : Nat) (b : Bool) : (s.setFull pa b).relDegr = s.relDegr := rfl
@[simp] theorem State.setFull_relUeev (s : State) (pa : Nat) (b : Bool) : (s.setFull pa b).relUeev = s.relUeev := rfl
@[simp] theorem State.setFull_relRepl (s : State) (pa : Nat) (b : Bool) : (s.setFull pa b).relRepl = s.relRepl := rfl
@[simp] theorem State.setFull_lost (s : State) (pa : Nat) (b : Bool) : (s.setFull pa b).lost = s.lost := rfl
@[simp] theorem State.setFull_badFlits (s : State) (pa : Nat) (b : Bool) : (s.setFull pa b).badFlits = s.badFlits := rfl
@[simp] theorem State.setFull_mapout (s : State) (pa : Nat) (b : Bool) : (s.setFull pa b).mapout = s.mapout := rfl
@[simp] theorem State.setFull_mapoutReg (s : State) (pa : Nat) (b : Bool) : (s.setFull pa b).mapoutReg = s.mapoutReg := rfl
@[simp] theorem State.setFull_smpInterval (s : State) (pa : Nat) (b : Bool) : (s.setFull pa b).smpInterval = s.smpInterval := rfl
@[simp] theorem State.setFull_smpSeq (s : State) (pa : Nat) (b : Bool) : (s.setFull pa b).smpSeq = s.smpSeq := rfl
@[simp] theorem State.setFull_smpAt (s : State) (pa : Nat) (b : Bool) : (s.setFull pa b).smpAt = s.smpAt := rfl
@[simp] theorem State.setFull_out (s : State) (pa : Nat) (b : Bool) : (s.setFull pa b).out = s.out := rfl
@[simp] theorem State.setFull_spdm (s : State) (pa : Nat) (b : Bool) : (s.setFull pa b).spdm = s.spdm := rfl

end Sys2Proof.Machine
end

