-- ==== Sys2Proof/Laws/Thread.lean ====
section
/-! SUPPORT. What a completing instruction leaves alone: the running thread's own update, the move to the next address, and
the bundles of a publisher. -/

namespace Sys2Proof.Machine

/-! ### Lookups -/

theorem core_setCore (s : State) (c d : Nat) (k : Core) : (s.setCore c k).core d = if c = d then k else s.core d := by
  simp [State.setCore, State.core, look_put]

@[simp] theorem core_setCore_same (s : State) (c : Nat) (k : Core) : (s.setCore c k).core c = k := by simp [core_setCore]

theorem core_modCore (s : State) (c d : Nat) (f : Core → Core) :
    (s.modCore c f).core d = if c = d then f (s.core d) else s.core d := by
  simp only [State.modCore, core_setCore]; split
  · next h => subst h; rfl
  · rfl

theorem core_setSlot (s : State) (c k d : Nat) (t : Slot) :
    (s.setSlot c k t).core d = if c = d then { s.core d with slots := put (s.core d).slots k t } else s.core d := by
  simp [State.setSlot, core_modCore]

theorem slot_setSlot (s : State) (c k d j : Nat) (t : Slot) :
    (s.setSlot c k t).slot d j = if c = d ∧ k = j then t else s.slot d j := by
  simp only [State.slot, core_setSlot]
  by_cases h : c = d
  · simp only [h, if_true, look_put, true_and]
  · simp [h]

@[simp] theorem slot_setSlot_same (s : State) (c k : Nat) (t : Slot) : (s.setSlot c k t).slot c k = t := by
  simp [slot_setSlot]

theorem slot_modSlot (s : State) (c k d j : Nat) (f : Slot → Slot) :
    (s.modSlot c k f).slot d j = if c = d ∧ k = j then f (s.slot d j) else s.slot d j := by
  simp only [State.modSlot, slot_setSlot]; split
  · next h => obtain ⟨rfl, rfl⟩ := h; rfl
  · rfl

theorem rest_setSlot (s : State) (c k d : Nat) (t : Slot) :
    { (s.setSlot c k t).core d with slots := [] } = { s.core d with slots := [] } := by
  rw [core_setSlot]; split <;> rfl

@[simp] theorem me_setMe (s : State) (t : Slot) : (s.setMe t).me = t := by simp [State.setMe, State.me]

@[simp] theorem thread_self (s : State) : s.thread s = s.me := rfl

/-! ### Only the running thread changes -/

theorem OnlyThread.refl (s : State) : OnlyThread s s := ⟨rfl, fun _ => rfl, fun _ _ _ => rfl⟩

theorem OnlyThread.trans {s t u : State} (h : OnlyThread s t) (g : OnlyThread t u)
    (hc : t.cur.core = s.cur.core) (hs : t.cur.slot = s.cur.slot) : OnlyThread s u :=
  ⟨g.module.trans h.module, fun c => (g.cores c).trans (h.cores c),
   fun c k n => (g.threads c k (by rw [hc, hs]; exact n)).trans (h.threads c k n)⟩

theorem OnlyThread.setSlot (s : State) (t : Slot) : OnlyThread s (s.setSlot s.cur.core s.cur.slot t) :=
  ⟨rfl, fun d => rest_setSlot s _ _ d t, fun c k n => by
    rw [slot_setSlot, if_neg]
    rintro ⟨rfl, rfl⟩; exact n rfl⟩

theorem OnlyThread.setMe (s : State) (t : Slot) : OnlyThread s (s.setMe t) := OnlyThread.setSlot s t

/-- A fold of updates that each keep a relation keeps it. -/
theorem foldl_keeps {α β : Type} (P : α → α → Prop) (r : ∀ a, P a a) (tr : ∀ a b c, P a b → P b c → P a c)
    (f : α → β → α) (h : ∀ a b, P a (f a b)) (l : List β) (a : α) : P a (l.foldl f a) := by
  induction l generalizing a with
  | nil => exact r a
  | cons b l ih => exact tr _ _ _ (h a b) (ih (f a b))

/-- What a publication keeps: all but the bundles in transit to other threads, and the publisher's own thread. -/
structure Published (c k : Nat) (s t : State) : Prop where
  module : { t with cores := [] } = { s with cores := [] }
  cores : ∀ c, { t.core c with slots := [] } = { s.core c with slots := [] }
  threads : ∀ c k, { t.slot c k with chFly := [] } = { s.slot c k with chFly := [] }
  me : (s.slot c k).chState ≠ 2 → t.slot c k = s.slot c k

theorem publish_keeps (s : State) (c j k : Nat) (b : Bundle) : Published c k s (s.publish j b) := by
  unfold State.publish
  apply foldl_keeps (Published c k)
  · exact fun a => ⟨rfl, fun _ => rfl, fun _ _ => rfl, fun _ => rfl⟩
  · intro a b d h g
    refine ⟨g.module.trans h.module, fun x => (g.cores x).trans (h.cores x), fun x y => (g.threads x y).trans (h.threads x y), fun n => ?_⟩
    have e := h.me n
    rw [← e]; exact g.me (by rw [e]; exact n)
  · intro a x
    refine ⟨rfl, fun d => rest_setSlot a _ _ d _, fun d j => ?_, fun n => ?_⟩
    · rw [slot_modSlot]; split
      · split <;> rfl
      · rfl
    · rw [slot_modSlot]; split
      · next h =>
        obtain ⟨h1, h2⟩ := h
        simp only [n, decide_false, Bool.and_false, Bool.false_eq_true, if_false]
      · rfl

/-- The thread after it has passed its instruction (R414): its next address, its retired PCs. -/
def Slot.past (t : Slot) (target : Option W64) : Slot :=
  let u := { t.next with retired := retireList t.retired t.pc, count := t.count + 1, ins := [], wait := .run, walkRes := [],
                         missed := none, queued := none, agreed := false, rdv := none, wip := none, pops := [] }
  match target with
  | some a => if t.inStream then u else { u with pc := a }
  | none => u

theorem past_role (t : Slot) (target : Option W64) : (t.past target).role = t.role := by
  cases target <;> simp only [Slot.past, Slot.next] <;> split <;> (try split) <;> rfl

theorem past_lvq (t : Slot) (target : Option W64) : (t.past target).lvq = t.lvq := by
  cases target <;> simp only [Slot.past, Slot.next] <;> split <;> (try split) <;> rfl

/-- What `noLanding` says of a trailing thread. -/
theorem noLanding_at {s : State} {c k j : Nat} (h : s.noLanding c k) (hj : (s.slot c k).role = .trailing j) :
    ∀ e, e ∈ (s.slot c j).lvq → e.at_ = none := by
  unfold State.noLanding at h
  rw [hj] at h
  intro e he
  simpa using List.all_eq_true.1 h e he

/-- No fill is due where none stands in the queue. -/
theorem landFills_none {s : State} {c j : Nat} (h : ∀ e, e ∈ (s.slot c j).lvq → e.at_ = none) : s.landFills c j = s := by
  unfold State.landFills
  simp only
  split
  · rw [if_pos]
    rw [List.any_eq_false]
    intro e he
    simp [LvEnt.due, h e he]
  · rfl

theorem retire_eq (s : State) (c k : Nat) (target : Option W64) (h : (s.slot c k).pops = []) (hn : s.noLanding c k) :
    s.retire c k target = s.setSlot c k ((s.slot c k).past target) := by
  have e : s.retire c k target = (s.setSlot c k ((s.slot c k).past target)).landMine c k := by
    unfold State.retire State.takeHeads
    rw [h]; rfl
  rw [e]
  unfold State.landMine
  rw [slot_setSlot_same, past_role]
  split
  · next j hj =>
    apply landFills_none
    rw [slot_setSlot]
    split
    · next g => rw [past_lvq]; intro x hx; exact noLanding_at hn hj x (by rw [← g.2]; exact hx)
    · exact noLanding_at hn hj
  · rfl

theorem past_chState (t : Slot) (target : Option W64) : (t.past target).chState = t.chState := by
  cases target <;> simp only [Slot.past, Slot.next] <;> split <;> (try split) <;> rfl

theorem OnlyThread.by_setSlot (s : State) (c k : Nat) (t : Slot) : OnlyThread (s.by_ c k) (s.setSlot c k t) :=
  ⟨rfl, fun d => rest_setSlot s _ _ d t, fun d j n => by
    rw [slot_setSlot, if_neg]
    · rfl
    · rintro ⟨rfl, rfl⟩; exact n rfl⟩

theorem OnlyThread.of_by {s t : State} (h : OnlyThread (s.by_ s.cur.core s.cur.slot) t) : OnlyThread s t :=
  ⟨h.module, h.cores, h.threads⟩

theorem OnlyThread.by_trans {s t u : State} {c k : Nat} (h : OnlyThread (s.by_ c k) t) (g : OnlyThread (t.by_ c k) u) :
    OnlyThread (s.by_ c k) u :=
  ⟨g.module.trans h.module, fun d => (g.cores d).trans (h.cores d), fun d j n => (g.threads d j n).trans (h.threads d j n)⟩

/-- Passing an instruction in slot `k` of core `c`, which has taken no port entry: that thread moves on, and nothing else changes
but for bundles published. -/
theorem passed_by (s : State) (c k : Nat) (w : W32) (target : Option W64) (hp : (s.slot c k).pops = []) (hn : s.noLanding c k) :
    let t := s.passed c k w target
    OnlyThread (s.by_ c k) t ∧ t.cur = s.cur ∧ t.slot c k = (s.slot c k).past target := by
  simp only [State.passed, retire_eq s c k target hp hn]
  have o := OnlyThread.by_setSlot s c k ((s.slot c k).past target)
  split
  · next h =>
    have p := publish_keeps (s.setSlot c k ((s.slot c k).past target)) c c k { word := w, pc := (s.slot c k).pc, target := target }
    refine ⟨⟨?_, fun c => (p.cores c).trans (o.cores c), fun c k n => (p.threads c k).trans (o.threads c k n)⟩,
      (congrArg State.cur p.module :), ?_⟩
    · exact congrArg (fun x : State => { x with cur := {} }) p.module
    · rw [p.me]
      · simp
      · simp only [slot_setSlot_same, past_chState]
        simp only [Slot.publishes, Bool.and_eq_true, beq_iff_eq] at h
        omega
  · exact ⟨o, rfl, by simp⟩

/-- Passing the running instruction. -/
theorem passed_spec (s : State) (w : W32) (target : Option W64) (hp : s.me.pops = []) (hn : s.noLanding s.cur.core s.cur.slot) :
    let t := s.passed s.cur.core s.cur.slot w target
    OnlyThread s t ∧ t.cur = s.cur ∧ t.thread s = s.me.past target := by
  obtain ⟨h1, h2, h3⟩ := passed_by s s.cur.core s.cur.slot w target hp hn
  exact ⟨h1.of_by, h2, h3⟩

/-- A change of a thread that keeps its role and its queue. -/
theorem noLanding_mod {s : State} {c k : Nat} (hn : s.noLanding c k) {f : Slot → Slot} (hr : (f (s.slot c k)).role = (s.slot c k).role)
    (hq : (f (s.slot c k)).lvq = (s.slot c k).lvq) : (s.modSlot c k f).noLanding c k := by
  unfold State.noLanding
  rw [slot_modSlot, if_pos ⟨rfl, rfl⟩, hr]
  split
  · next j hj =>
    rw [List.all_eq_true]
    intro e he
    rw [slot_modSlot] at he
    split at he
    · next g => rw [← g.2, hq] at he; simpa using noLanding_at hn hj e (by rw [← g.2]; exact he)
    · simpa using noLanding_at hn hj e he
  · rfl

/-- Completing the instruction that the thread of slot `k` of core `c` waits in. -/
theorem complete_spec (s : State) (c k : Nat) (f : Slot → Slot) (hp : (f (s.slot c k)).pops = []) (hr : (f (s.slot c k)).role = (s.slot c k).role)
    (hq : (f (s.slot c k)).lvq = (s.slot c k).lvq) (hn : s.noLanding c k) :
    let t := s.complete c k f
    OnlyThread (s.by_ c k) t ∧ t.cur = s.cur ∧ t.slot c k = (f (s.slot c k)).past none := by
  obtain ⟨h1, h2, h3⟩ := passed_by (s.modSlot c k f) c k (s.slot c k).word none
    (by rw [slot_modSlot, if_pos ⟨rfl, rfl⟩]; exact hp) (noLanding_mod hn hr hq)
  refine ⟨(OnlyThread.by_setSlot s c k _).by_trans h1, h2, ?_⟩
  rw [slot_modSlot, if_pos ⟨rfl, rfl⟩] at h3
  exact h3

/-! ### The end of a meaning -/

theorem run_ok {m : M Unit} {s s' : State} (h : m s = .ok ((), s')) :
    run m s = .next (s'.passed s.cur.core s.cur.slot s.cur.word s'.cur.npc) := by
  simp [run, h]

theorem run_busy {m : M Unit} {s s' : State} {n : Nat} {b : Busy} (h : m s = .error (.busy s' n b)) :
    run m s = .next (s'.setMe { s'.me with wait := .busy n b, word := s.cur.word }) := by
  unfold run; rw [h]

theorem run_trap {m : M Unit} {s : State} {cause : Nat} {addr st : W64} (h : m s = .error (.trap cause addr st)) :
    run m s = .next (s.trapEntry s.cur.core s.cur.slot cause s.me.pc addr st) := by
  unfold run; rw [h]

theorem run_park {m : M Unit} {s : State} {n : Nat} (h : m s = .error (.park n)) :
    run m s = .next (s.setMe { s.me with wait := .park n s.epoch, queued := none }) := by
  unfold run; rw [h]

theorem run_fin {m : M Unit} {s s' : State} (h : m s = .error (.fin s')) : run m s = .next s' := by
  unfold run; rw [h]

/-- A meaning that waits for an event in the state that it started in. -/
theorem run_waits {m : M Unit} {s : State} {n : Nat} {b : Busy} (h : m s = .error (.busy s n b)) :
    ∃ t, run m s = .next t ∧ Waits s t n b :=
  ⟨_, run_busy h, .setMe s _, me_setMe s _⟩

/-- A meaning that changes the running thread alone, and does not branch: the thread goes on, and nothing else changes. -/
theorem run_thread {m : M Unit} {s : State} {u : Slot} (b : s.begun) (hp : u.pops = []) (hr : u.role = s.me.role) (hq : u.lvq = s.me.lvq) (h : m s = .ok ((), s.setMe u)) :
    ∃ t, run m s = .next t ∧ OnlyThread s t ∧ t.thread s = u.past none := by
  refine ⟨_, run_ok h, ?_⟩
  have e : (s.setMe u).cur.npc = none := b.1
  rw [e]
  obtain ⟨h1, -, h3⟩ := passed_spec (s.setMe u) s.cur.word none (by rw [me_setMe]; exact hp)
    (noLanding_mod b.2.2.2.2.2 (f := fun _ => u) hr hq)
  refine ⟨(OnlyThread.setMe s u).trans h1 rfl rfl, ?_⟩
  rw [me_setMe] at h3; exact h3

/-- A meaning that changes nothing: the thread goes on. -/
theorem run_same {m : M Unit} {s : State} (b : s.begun) (h : m s = .ok ((), s)) :
    ∃ t, run m s = .next t ∧ OnlyThread s t ∧ t.thread s = s.me.past none := by
  refine ⟨_, run_ok h, ?_⟩
  rw [b.1]
  obtain ⟨h1, -, h3⟩ := passed_spec s s.cur.word none b.2.1 b.2.2.2.2.2
  exact ⟨h1, h3⟩

end Sys2Proof.Machine
end

