-- ==== Sys2Proof/Laws/Operands.lean ====
section
/-! SUPPORT. What reading and writing an operand answers, and what the shared shapes of an instruction answer: said once, for
every instruction that is written over them. -/

namespace Sys2Proof.Machine

/-! ### Steps of a meaning -/

theorem bind_ok {α β : Type} {m : M α} {f : α → M β} {s s' : State} {a : α} (h : m s = .ok (a, s')) :
    (m >>= f) s = f a s' := by
  change (StateT.bind m f) s = _
  simp only [StateT.bind, h]; rfl

theorem bind_error {α β : Type} {m : M α} {f : α → M β} {s : State} {e : Stop} (h : m s = .error e) :
    (m >>= f) s = .error e := by
  change (StateT.bind m f) s = _
  simp only [StateT.bind, h]; rfl

@[simp] theorem pure_apply {α : Type} (a : α) (s : State) : (pure a : M α) s = .ok (a, s) := rfl

/-! ### Bits -/

theorem bitAt_setBit {n : Nat} (v : BitVec n) (i j : Nat) (b : Bool) (h : j < n) :
    bitAt (setBit v i b) j = if i = j then b else bitAt v j := by
  unfold bitAt setBit
  have e : (BitVec.ofNat n (2 ^ i)).getLsbD j = decide (i = j) := by
    rw [BitVec.getLsbD_ofNat, Nat.testBit_two_pow]; simp [h]
  cases b
  · simp only [Bool.false_eq_true, if_false, BitVec.getLsbD_and, BitVec.getLsbD_not, h, decide_true, Bool.true_and, e]
    by_cases g : i = j <;> simp [g]
  · simp only [if_true, BitVec.getLsbD_or, e]
    by_cases g : i = j <;> simp [g]

theorem toNat_eq_zero {n : Nat} (v : BitVec n) : v.toNat = 0 ↔ v = 0 := by
  constructor
  · intro h; exact BitVec.eq_of_toNat_eq (by simpa using h)
  · rintro rfl; simp

/-! ### Reading and writing a scalar register -/

theorem readS_ready {s : State} {n : BitVec 6} (h : s.me.readyS n) : readS n s = .ok (s.me.scalar n, s) := by
  unfold readS Slot.scalar
  by_cases z : n = 0#6
  · subst z; rfl
  · have z' : n.toNat ≠ 0 := fun e => z ((toNat_eq_zero n).1 e)
    obtain ⟨h1, h2, h3, h4, h5⟩ := h.resolve_left z
    simp [z, z', h1, h2, h3, h4, h5]

theorem writeS_open {s : State} {n : BitVec 6} (v : W64) (h : s.me.openS n) :
    writeS n v s = .ok ((), if n = 0 then s else s.setMe (s.me.putS n.toNat v)) := by
  unfold writeS
  by_cases z : n = 0#6
  · subst z; rfl
  · have z' : n.toNat ≠ 0 := fun e => z ((toNat_eq_zero n).1 e)
    obtain ⟨h1, h2⟩ := h.resolve_left z
    simp [z, z', h1, h2]

/-! ### A thread past its instruction -/

theorem past_pc (t : Slot) : (t.past none).pc = t.next.pc := rfl

theorem past_still (t : Slot) : (t.past none).still = t.still := by
  rcases hc : t.chBuf with _ | ⟨b, r⟩ <;> simp only [Slot.past, Slot.next, hc] <;> split <;> simp only [Slot.still]

theorem past_run (t : Slot) : (t.past none).wait = .run := rfl

theorem next_pc_eq (t : Slot) :
    t.next.pc = if t.inStream then (match t.chBuf with | b :: _ => b.target.getD (b.pc + 4) | [] => t.pc + 4) else t.pc + 4 := by
  unfold Slot.next
  split
  · cases t.chBuf <;> rfl
  · rfl

theorem next_pc_congr {t u : Slot} (h1 : u.inStream = t.inStream) (h2 : u.chBuf = t.chBuf) (h3 : u.pc = t.pc) :
    u.next.pc = t.next.pc := by
  rw [next_pc_eq, next_pc_eq, h1, h2, h3]

theorem next_pc_putS (t : Slot) (d : Nat) (v : W64) : (t.putS d v).next.pc = t.next.pc := by
  unfold Slot.putS
  split
  · rfl
  · exact next_pc_congr rfl rfl rfl

/-- The scalar side of a thread is not what passing an instruction changes. -/
theorem past_sr (t : Slot) : (t.past none).sr = t.sr ∧ (t.past none).sFull = t.sFull ∧ (t.past none).sPoison = t.sPoison ∧
    (t.past none).sErr = t.sErr := by
  have h := past_still t
  exact ⟨congrArg (·.sr) h, congrArg (·.sFull) h, congrArg (·.sPoison) h, congrArg (·.sErr) h⟩

@[simp] theorem pops_putS (t : Slot) (d : Nat) (v : W64) : (t.putS d v).pops = t.pops := by
  unfold Slot.putS; split <;> rfl

@[simp] theorem role_putS (t : Slot) (d : Nat) (v : W64) : (t.putS d v).role = t.role := by
  unfold Slot.putS; split <;> rfl

@[simp] theorem lvq_putS (t : Slot) (d : Nat) (v : W64) : (t.putS d v).lvq = t.lvq := by
  unfold Slot.putS; split <;> rfl

theorem still_putS (t : Slot) (d : Nat) (v : W64) : noS (t.putS d v).still = noS t.still := by
  unfold Slot.putS; split <;> rfl

/-- A thread that has only passed its instruction after a write of s[d]. -/
theorem WroteS.of_past {s t : State} {d : BitVec 6} {v : W64} (o : OnlyThread s t)
    (h : t.thread s = (s.me.putS d.toNat v).past none) : WroteS s t d v := by
  have p := past_sr (s.me.putS d.toNat v)
  rw [← h] at p
  refine ⟨⟨o, by rw [h, past_pc, next_pc_putS], by rw [h, past_run], by rw [h, past_still, still_putS]⟩, fun n => ?_, fun n => ?_, fun n => ?_, fun n => ?_⟩
  · unfold Slot.scalar
    rw [p.1]
    by_cases z : n = 0
    · simp [z]
    · rw [if_neg z, if_neg z]
      unfold Slot.putS
      by_cases zd : d = 0
      · have zd' : d.toNat = 0 := by rw [zd]; rfl
        rw [if_pos zd', if_neg (fun q => z (q.1.trans zd))]
      · rw [if_neg (fun e => zd ((toNat_eq_zero d).1 e)), look_put]
        by_cases e : n = d
        · rw [if_pos (by rw [e]), if_pos ⟨e, z⟩]
        · rw [if_neg (fun q => e (BitVec.eq_of_toNat_eq q.symm)), if_neg (fun q => e q.1)]
  · rw [p.2.1]
    unfold Slot.putS
    by_cases zd : d = 0#6
    · subst zd
      by_cases z : n = 0#6 <;> simp [z]
    · rw [if_neg (fun e => zd ((toNat_eq_zero d).1 e))]
      rw [bitAt_setBit _ _ _ _ (by have := n.isLt; omega)]
      by_cases e : n = d
      · subst e; simp [zd]
      · rw [if_neg (fun q => e (BitVec.eq_of_toNat_eq q.symm))]; simp [e]
  · rw [p.2.2.1]
    unfold Slot.putS
    by_cases zd : d = 0#6
    · subst zd
      by_cases z : n = 0#6 <;> simp [z]
    · rw [if_neg (fun e => zd ((toNat_eq_zero d).1 e))]
      rw [bitAt_setBit _ _ _ _ (by have := n.isLt; omega)]
      by_cases e : n = d
      · subst e; simp [zd]
      · rw [if_neg (fun q => e (BitVec.eq_of_toNat_eq q.symm))]; simp [e]
  · rw [p.2.2.2]
    unfold Slot.putS
    by_cases zd : d = 0#6
    · subst zd
      by_cases z : n = 0#6 <;> simp [z]
    · rw [if_neg (fun e => zd ((toNat_eq_zero d).1 e))]
      rw [bitAt_setBit _ _ _ _ (by have := n.isLt; omega)]
      by_cases e : n = d
      · subst e; simp [zd]
      · rw [if_neg (fun q => e (BitVec.eq_of_toNat_eq q.symm))]; simp [e]

theorem putS_zero (t : Slot) (v : W64) : t.putS 0 v = t := rfl

/-! ### The shapes of a scalar instruction -/

/-- A meaning that ends with a write of s[d] in the state it started in. -/
theorem run_writeS {m : M Unit} {s : State} {d : BitVec 6} {v : W64} (b : s.begun) (o : s.me.openS d) (h : m s = writeS d v s) :
    ∃ t, run m s = .next t ∧ WroteS s t d v := by
  rw [writeS_open v o] at h
  by_cases z : d = 0
  · subst z
    obtain ⟨t, h1, h2, h3⟩ := run_same b (by simpa using h)
    exact ⟨t, h1, .of_past h2 h3⟩
  · rw [if_neg z] at h
    obtain ⟨t, h1, h2, h3⟩ := run_thread b (by rw [pops_putS]; exact b.2.1) (by simp) (by simp) h
    exact ⟨t, h1, .of_past h2 h3⟩

theorem scalar2_spec {s : State} {d a b : BitVec 6} {f : W64 → W64 → W64} (g : s.begun) (ha : s.me.readyS a)
    (hb : s.me.readyS b) (hd : s.me.openS d) :
    ∃ t, run (scalar2 d a b f) s = .next t ∧ WroteS s t d (f (s.me.scalar a) (s.me.scalar b)) := by
  refine run_writeS g hd ?_
  unfold scalar2
  rw [bind_ok (readS_ready ha), bind_ok (readS_ready hb)]

theorem scalar1_spec {s : State} {d a : BitVec 6} {f : W64 → W64} (g : s.begun) (ha : s.me.readyS a) (hd : s.me.openS d) :
    ∃ t, run (scalar1 d a f) s = .next t ∧ WroteS s t d (f (s.me.scalar a)) := by
  refine run_writeS g hd ?_
  unfold scalar1
  rw [bind_ok (readS_ready ha)]

end Sys2Proof.Machine
end

