-- ==== Sys2Proof/Laws/Passing.lean ====
section
/-! SUPPORT. From what a meaning computes to what its instruction leaves: the thread moves on, and what lies outside it stays
as the meaning left it. -/

namespace Sys2Proof.Machine

theorem me_modCore (s : State) (f : Core → Core) (h : (f s.myCore).slots = s.myCore.slots) :
    (s.modCore s.cur.core f).me = s.me := by
  unfold State.me State.slot
  rw [State.modCore_cur, core_modCore, if_pos rfl]
  rw [show (f (s.core s.cur.core)).slots = (s.core s.cur.core).slots from h]

theorem myCore_setMe (s : State) (t : Slot) : (s.setMe t).myCore = { s.myCore with slots := put s.myCore.slots s.cur.slot t } := by
  unfold State.myCore State.setMe
  rw [State.setSlot_cur, core_setSlot, if_pos rfl]

theorem Beyond.of_only {s t : State} (h : OnlyThread s t) {fm : State → State} {fc : Core → Core} : Beyond fm fc s t :=
  ⟨congrArg fm h.module, congrArg fc (h.cores _), fun c _ => h.cores c, h.threads⟩

theorem Beyond.refl (fm : State → State) (fc : Core → Core) (s : State) : Beyond fm fc s s := .of_only (.refl s)

theorem Beyond.trans {fm : State → State} {fc : Core → Core} {s t u : State} (h : Beyond fm fc s t) (g : Beyond fm fc t u)
    (hc : t.cur.core = s.cur.core) (hs : t.cur.slot = s.cur.slot) : Beyond fm fc s u :=
  ⟨g.module.trans h.module, by rw [← hc]; refine g.core.trans ?_; rw [hc]; exact h.core,
   fun c n => (g.cores c (by rw [hc]; exact n)).trans (h.cores c n),
   fun c k n => (g.threads c k (by rw [hc, hs]; exact n)).trans (h.threads c k n)⟩

/-- A change of the running thread's core that keeps its slots. -/
theorem Beyond.modCore (s : State) (f : Core → Core) {fm : State → State} {fc : Core → Core}
    (h : ∀ x, (f x).slots = x.slots) (hf : ∀ x, fc { f x with slots := [] } = fc { x with slots := [] }) :
    Beyond fm fc s (s.modCore s.cur.core f) := by
  refine ⟨rfl, ?_, fun c n => ?_, fun c k n => ?_⟩
  · rw [core_modCore, if_pos rfl]; exact hf _
  · rw [core_modCore, if_neg (Ne.symm n)]
  · unfold State.slot
    rw [core_modCore]
    split
    · rw [h]
    · rfl

/-- A change of the module that keeps its cores and its running thread. -/
theorem Beyond.module_only {s t : State} {fm : State → State} {fc : Core → Core} (h : t.cores = s.cores)
    (hm : fm { t with cores := [], cur := {} } = fm { s with cores := [], cur := {} }) : Beyond fm fc s t := by
  have hc : ∀ c, t.core c = s.core c := fun c => by unfold State.core; rw [h]
  refine ⟨hm, by rw [hc], fun c _ => by rw [hc], fun c k _ => ?_⟩
  unfold State.slot; rw [hc]

theorem me_congr {s t : State} (h : t.cores = s.cores) (hc : t.cur.core = s.cur.core) (hs : t.cur.slot = s.cur.slot) : t.me = s.me := by
  unfold State.me State.slot State.core
  rw [h, hc, hs]

/-- A meaning that completes in `s'`: its instruction leaves the thread past it, and all else as in `s'`. -/
theorem run_done {m : M Unit} {s s' : State} (h : m s = .ok ((), s')) (hn : s'.cur.npc = none) (hp : s'.me.pops = [])
    (hl : s'.noLanding s'.cur.core s'.cur.slot) (hc : s'.cur.core = s.cur.core)
    (hs : s'.cur.slot = s.cur.slot) :
    ∃ t, run m s = .next t ∧ OnlyThread s' t ∧ t.cur = s'.cur ∧ t.thread s = s'.me.past none := by
  refine ⟨_, run_ok h, ?_⟩
  rw [hn, ← hc, ← hs]
  obtain ⟨h1, h2, h3⟩ := passed_spec s' s.cur.word none hp hl
  refine ⟨h1, h2, ?_⟩
  rw [← h3]; unfold State.thread; rw [hc, hs]

/-- The thread has passed its instruction, when its meaning left the thread but for `but`. -/
theorem Passed.of_past {s t : State} {u : Slot} {but : Slot → Slot} (h : t.thread s = u.past none) (hp : u.next.pc = s.me.next.pc)
    (hb : but u.still = but s.me.still) : Passed s t s.me.next.pc but :=
  ⟨by rw [h, past_pc, hp], by rw [h, past_run], by rw [h, past_still, hb]⟩

theorem Went.of_past {s t : State} {u : Slot} {but : Slot → Slot} (o : OnlyThread s t) (h : t.thread s = u.past none)
    (hp : u.next.pc = s.me.next.pc) (hb : but u.still = but s.me.still) : Went s t s.me.next.pc but :=
  ⟨o, by rw [h, past_pc, hp], by rw [h, past_run], by rw [h, past_still, hb]⟩

/-- A register written before passing. -/
theorem HoldsS.of_past {s t : State} {d : BitVec 6} {v : W64} (h : t.thread s = (s.me.putS d.toNat v).past none) : HoldsS s t d v := by
  have w : WroteS s (s.setMe ((s.me.putS d.toNat v).past none)) d v :=
    .of_past (.setMe s _) (by unfold State.thread; exact me_setMe s _)
  have e : (s.setMe ((s.me.putS d.toNat v).past none)).thread s = t.thread s := by
    rw [h]; exact me_setMe s _
  exact ⟨fun n => by rw [← e]; exact w.value n, fun n => by rw [← e]; exact w.full n, fun n => by rw [← e]; exact w.poison n,
    fun n => by rw [← e]; exact w.err n⟩

/-- A register that a message or a completion writes. -/
theorem HoldsS.of_put {s t : State} {d : BitVec 6} {v : W64} {u : Slot} (h : t.thread s = u) (h1 : u.sr = (s.me.putS d.toNat v).sr)
    (h2 : u.sFull = (s.me.putS d.toNat v).sFull) (h3 : u.sPoison = (s.me.putS d.toNat v).sPoison)
    (h4 : u.sErr = (s.me.putS d.toNat v).sErr) : HoldsS s t d v := by
  have w : HoldsS s (s.setMe ((s.me.putS d.toNat v).past none)) d v := .of_past (me_setMe s _)
  have e : (s.setMe ((s.me.putS d.toNat v).past none)).thread s = (s.me.putS d.toNat v).past none := me_setMe s _
  obtain ⟨p1, p2, p3, p4⟩ := past_sr (s.me.putS d.toNat v)
  refine ⟨fun n => ?_, fun n => ?_, fun n => ?_, fun n => ?_⟩
  · rw [← w.value n, e, h]; unfold Slot.scalar; rw [h1, p1]
  · rw [← w.full n, e, h, h2, p2]
  · rw [← w.poison n, e, h, h3, p3]
  · rw [← w.err n, e, h, h4, p4]

end Sys2Proof.Machine
end

