-- ==== Sys2Proof/Tests/Slice0.lean ====
section
/-! SUPPORT. Tests: words written out from the manual's encodings, ill-formed terms that the checks refuse, one step of a placed
instruction, and for every statement of Certificates/Slice0 states and operands that meet its hypotheses. -/

set_option maxRecDepth 100000

open Sys2Proof Sys2Proof.Machine

namespace Sys2Proof.Tests

set_option Elab.async false

/-! ### Small states -/

/-- A thread at S with a few registers. -/
def thr : Slot :=
  { live := true, tid := 7, task := 2, privS := true, pc := 0x1000, evec := 0x2000,
    sr := [(1, 0x40), (2, 3), (3, 5), (4, 0x8000000000000000)], vr := [(16, 0x3F800000), (17, 0xBF000000)], kr := [(1, 0x00F7)],
    afB := [(1, 0x1000)], afS := [(1, 0x10)] }

/-- Core 5 with `t` in slot 3 and another thread of its task in slot 4, core 9 with one thread; LEVEL is 3. -/
def on (t : Slot) : State :=
  { level := 3, nextTid := 50, nextId := 60, time := 1000,
    cores := [(5, { slots := [(3, t), (4, { live := true, tid := 8, task := 2, pc := 0x3000 })],
                    tasks := [(2, { live := true, banks := [0, 1, 2, 3], tiles := [0, 1, 2], accs := [0, 1] })] }),
      (9, { slots := [(0, { live := true, tid := 9, task := 1 })], tasks := [(1, { live := true, banks := [4] })] })],
    cur := { core := 5, slot := 3, word := 0x12345678 } }

/-- Changes core 5. -/
def core5 (s : State) (f : Core → Core) : State := s.setCore 5 (f (s.core 5))

/-- Changes the thread's task. -/
def task2 (s : State) (f : Task → Task) : State := s.modTask 5 2 f

/-- Bytes in memory. -/
def mem (s : State) (pa : Nat) (l : List Byte) : State := { s with mem := writeBytes s.mem pa l }

/-- An access of the thread. -/
def acc (pa size : Nat) (op : FOp) : Flight :=
  { id := 44, core := 5, slot := 3, tid := 7, task := 2, va := 0x100, pa := pa, size := size, op := op, topinf := false, privS := false,
    seq := 44 }

/-- An access reaches its place. -/
def reached (s : State) (va : W64) (n : Nat) (a : Acc) (l : Loc) : Bool :=
  decide (va.toNat % n = 0) && (match s.resolve s.myCtx va a with | .ok m => decide (m = l) | _ => false) &&
    (match regionOf l.pa with | .host _ => decide (a = .load) | _ => true)

theorem reaches (s : State) (va : W64) (n : Nat) (a : Acc) (l : Loc) (h : reached s va n a l = true) : s.Reaches va n a l := by
  unfold reached at h
  simp only [Bool.and_eq_true, decide_eq_true_eq] at h
  obtain ⟨⟨h1, h2⟩, h3⟩ := h
  refine ⟨h1, ?_, fun o ho => ?_⟩
  · split at h2
    · next h => rw [h, of_decide_eq_true h2]
    · cases h2
  · rw [ho] at h3; exact of_decide_eq_true h3

/-! ### Words -/

/-- Words that the manual writes out (R12, R228, R229, R231, R232, R237, R238, R330 to R332). -/
theorem test_scalar_words :
    decode 0x04518700 = some (.add 5 6 7) ∧ decode 0x04310013 = some (.clz 3 4) ∧ decode 0x24312005 = some (.srai 3 4 5) ∧
    decode 0x08A2CC04 = some (.div 10 11 12) ∧ decode 0x28920000 = some (.ldhi 9 0x20000) ∧ decode 0x2C400040 = some (.pcrel 4 0x40) ∧
    decode 0x30320900 = some (.afset 3 8 9) ∧ decode 0x3030C004 = some (.afstep 3 3) ∧ decode 0x34C00000 = some (.sete 12) ∧
    decode 0x34330002 = some (.tstf 3 12) ∧ decode 0x0C61BFFF = some (.addi 6 6 0x3FFF) := by decide +kernel
theorem test_control_words :
    decode 0x47FFFFFF = some (.br 0x3FFFFFF) ∧ decode 0x48000100 = some (.call 0x100) ∧ decode 0x4C0E4000 = some (.jalr 0 57 0) ∧
    decode 0x408C07FE = some (.bne 6 0 0x7FE) ∧ decode 0x3C000500 = some (.trap 5) ∧ decode 0x3C010506 = some (.tlbinv 4 5) ∧
    decode 0x3C010005 = some (.icinv 4) ∧ decode 0x3C000007 = some .halt ∧ decode 0x60515800 = some (.ldD 5 5 0) := by decide +kernel
theorem test_engine_words :
    decode 0x84642A00 = some (.vfadd 3 4 5 2) ∧ decode 0x80611017 = some (.vceq 3 1 2 0) ∧ decode 0x88C7004A = some (.vcvt 6 7 0 1 2) ∧
    decode 0xA00128B1 = some (.slcopy2 10 11 0 0 1) ∧ decode 0xA00B1C00 = some (.slstat 7 0) ∧ decode 0xA18028B0 = some (.rgopen 10 11) ∧
    decode 0xA1811408 = some (.rgclose 5 1) ∧ decode 0xA1821C50 = some (.rgstat 7 5) ∧ decode 0xA0061051 = some (.slsend 4 5 0 1) ∧
    decode 0xA0071061 = some (.slrecv 4 6 0 1) ∧ decode 0xA0081080 = some (.sldred 4 8 0 0) := by decide +kernel
theorem test_words_queue_to_tasks :
    decode 0x08108302 = some (.mulhu 1 2 3) ∧ decode 0x34010507 = some (.rfill 4 5) ∧ decode 0x34508005 = some (.gldfe 5 2) ∧
    decode 0x3411400C = some (.qpushc 1 5) ∧ decode 0x3421C00D = some (.qstat 2 7) ∧ decode 0x3440800A = some (.rdfe 4 2) ∧
    decode 0x38400282 = some (.movc 4 0x282) ∧ decode 0x3801C005 = some (.movtc 7 5) ∧ decode 0x50060005 = some (.bany 3 5) ∧
    decode 0x54008000 = some (.dif 2) ∧ decode 0x54000005 = some .wholeH ∧ decode 0x58210000 = some (.chsub 4) ∧
    decode 0x5850FFFF = some (.chleaveIf 3 0x3FFF) ∧ decode 0x58700009 = some (.chrdv 9) ∧ decode 0x5C010000 = some (.spawn 4) ∧
    decode 0x5C510001 = some (.callat 5 4) := by decide +kernel
theorem test_words_tasks_to_mail :
    decode 0x5C108304 = some (.tmake 1 2 3) ∧ decode 0x5C000007 = some .qret ∧ decode 0x6010A001 = some (.ldBu 1 2 1) ∧
    decode 0x647217FF = some (.stW 7 8 0x7FF) ∧ decode 0x68322004 = some (.ldfe 3 8 4 0 4) ∧ decode 0x6C020D00 = some (.feclr 8 1 1 0) ∧
    decode 0x7010830C = some (.aadd 1 2 3 1 4) ∧ decode 0x701083A4 = some (.atomicAfadd 1 2 3 4) ∧
    decode 0x74000005 = some (.fence 5) ∧ decode 0x74004208 = some (.barinit 1 2) ∧ decode 0x74108020 = some (.barrd 1 2) ∧
    decode 0x78004200 = some (.pjoin 1 2) ∧ decode 0x78000004 = some (.bwait 0) ∧ decode 0x78350005 = some (.mbsend 3 20) ∧
    decode 0x7940C006 = some (.mbtake 20 3) ∧ decode 0x84221C04 = some (.vfma 1 2 3 4) := by decide +kernel
theorem test_words_vectors_to_engines :
    decode 0x88220300 = some (.vfsqrt 1 2 3) ∧ decode 0x8C221800 = some (.vperm 1 2 3 0) ∧ decode 0x8C221501 = some (.qxch 1 2 2 5) ∧
    decode 0x8C227803 = some (.vshup 1 2 15 0) ∧ decode 0x8C220705 = some (.vradd 1 2 7) ∧ decode 0x90248208 = some (.vbcast 1 9 2) ∧
    decode 0x9064B809 = some (.vext 3 9 7) ∧ decode 0x9024BA0A = some (.vins 1 9 7 2) ∧ decode 0x90221810 = some (.kand 1 2 3) ∧
    decode 0x90220015 = some (.elect 1 2) ∧ decode 0x9424FFFF = some (.vld 1 2 3 0x3FFF) ∧ decode 0x9C231402 = some (.vldxW 1 3 2 4) ∧
    decode 0xA08028B2 = some (.tld 10 11 2) ∧ decode 0xA0860868 = some (.had 2 6 1 0) ∧ decode 0xA0881461 = some (.accrd 5 6 1) ∧
    decode 0xA2005150 = some (.mxrec 20 21) ∧ decode 0xA101110D = some (.psgen 4 16 1 1) ∧ decode 0xA1031460 = some (.pschk 5 6 0) := by
  decide +kernel

/-- Words that R48 calls illegal: reserved majors, unassigned functions, sizes and scopes, fields that must be zero, k0 as a
destination. -/
theorem test_illegal_words :
    decode 0x00000000 = none ∧ decode 0x7C000000 = none ∧ decode 0xA4000000 = none ∧ decode 0x04000019 = none ∧
    decode 0x04000113 = none ∧ decode 0x60003800 = none ∧ decode 0x64002000 = none ∧ decode 0x68003000 = none ∧
    decode 0x74000006 = none ∧ decode 0x80011017 = none ∧ decode 0x38000000 = none ∧ decode 0xA01128B1 = none := by decide +kernel

/-- Each check of `Instr.wf` refuses an ill-formed term: full/empty classes, control-register numbers and s0, scopes, register blocks,
mask destinations, conversion codes, quad exchanges, lane shifts. -/
theorem test_ill_formed :
    (Instr.rdfe 1 3).wf = false ∧ (Instr.wrfe 63 1).wf = false ∧ (Instr.movc 0 5).wf = false ∧ (Instr.movc 1 0x3FFF).wf = false ∧
    (Instr.movtc 0 5).wf = false ∧ (Instr.movtc 1 0x3FFF).wf = false := by decide +kernel
theorem test_ill_formed_scopes :
    (Instr.ldfe 1 2 6 0 0).wf = false ∧ (Instr.ldff 1 2 7 0 0).wf = false ∧ (Instr.stfe 1 2 6 0 0).wf = false ∧
    (Instr.stff 1 2 6 0 0).wf = false ∧ (Instr.feclr 1 6 0 0).wf = false ∧ (Instr.aadd 1 2 3 0 6).wf = false ∧
    (Instr.acas 1 2 3 0 7).wf = false ∧ (Instr.atomicAfadd 1 2 3 6).wf = false ∧ (Instr.fence 6).wf = false := by decide +kernel
theorem test_ill_formed_vectors :
    (Instr.mbsend 0 57).wf = false ∧ (Instr.mbtake 57 0).wf = false ∧ (Instr.vceq 0 1 2 0).wf = false ∧ (Instr.vfcun 0 1 2 0).wf = false ∧
    (Instr.vcvt 1 2 0 0 1).wf = false ∧ (Instr.vcvt 1 2 0 3 3).wf = false ∧ (Instr.qxch 1 2 3 0).wf = false ∧
    (Instr.vshup 1 2 0 0).wf = false ∧ (Instr.vshdn 1 2 0 0).wf = false ∧ (Instr.kand 0 1 2).wf = false ∧ (Instr.knot 0 1).wf = false ∧
    (Instr.elect 0 1).wf = false ∧ (Instr.stok 0 1).wf = false := by decide +kernel

/-! ### One step of a placed instruction -/

/-- s[n] of the placed thread after one step. -/
noncomputable def after (w n : Nat) : Option W64 :=
  match step (State.reset.withFetchWord 32 w) with
  | .next s => some (look 0 (s.slot 0 15).sr n)
  | _ => none

/-- ADDI s6, s6, −1 from zero leaves all ones (R223); LDHI s9, 131072 leaves 2^31
(R228); a word of zeros is ILLEGAL, and writes
nothing (R48). -/
theorem test_step_values : after 0x0C61BFFF 6 = some 0xFFFFFFFFFFFFFFFF ∧ after 0x28920000 9 = some 0x80000000 ∧
    after 0 6 = some 0 := by decide +kernel

/-! ### Witnesses: scalar instructions, registers, branches, divergence, traps -/

/-- The state of most witnesses. -/
def W : State := on thr

theorem witness_IntegerResults : W.begun ∧ W.me.readyS 1 ∧ W.me.readyS 2 ∧ W.me.openS 10 ∧ W.me.openS 0 := by
  simp only [State.begun, Slot.readyS, Slot.openS]; decide +kernel
theorem witness_ImmediateResults : W.begun ∧ W.me.readyS 63 ∧ W.me.openS 63 := by
  simp only [State.begun, Slot.readyS, Slot.openS]; decide +kernel
theorem witness_MultiplyResults : W.begun ∧ W.me.readyS 4 ∧ W.me.readyS 4 ∧ W.me.openS 4 := by
  simp only [State.begun, Slot.readyS, Slot.openS]; decide +kernel
/-- A divide parks (operands as above); its completion finds the thread waiting. -/
theorem witness_DivideResults : (W.begun ∧ W.me.readyS 4 ∧ W.me.readyS 0 ∧ W.me.openS 12) ∧
    (let t := (on { thr with wait := .busy 3 (.divide 12 99) }).slot 5 3
     t.wait = .busy 3 (.divide (12 : BitVec 6).toNat 99) ∧ t.pops = [] ∧ W.noLanding 5 3 = true ∧ t.isPort (12 : BitVec 6).toNat = false) := by
  simp only [State.begun, Slot.readyS, Slot.openS]; decide +kernel
theorem witness_IntegerWords : (0x040000FF : BitVec 32).toNat / 2 ^ 26 = 0x01 ∧ 0x19 ≤ (0x040000FF : BitVec 32).toNat % 2 ^ 8 ∧
    (0x04000113 : BitVec 32).toNat / 2 ^ 26 = 0x01 ∧ 0x13 ≤ (0x04000113 : BitVec 32).toNat % 2 ^ 8 ∧
    (0x04000113 : BitVec 32).toNat / 2 ^ 8 % 2 ^ 6 ≠ 0 := by decide
theorem witness_ImmediateWords : (0x24000040 : BitVec 32).toNat / 2 ^ 26 = 0x09 ∧ (0x24000040 : BitVec 32).toNat / 2 ^ 6 % 2 ^ 6 ≠ 0 := by
  decide
theorem witness_MultiplyWords : (0x0800000D : BitVec 32).toNat / 2 ^ 26 = 0x02 ∧ 0x0D ≤ (0x0800000D : BitVec 32).toNat % 2 ^ 8 := by decide
theorem witness_AffineResults : W.begun ∧ W.me.readyS 1 ∧ W.me.readyS 2 ∧ W.me.openS 12 := by
  simp only [State.begun, Slot.readyS, Slot.openS]; decide +kernel
theorem witness_FullnessMarks : W.begun ∧ bitAt W.me.sAwait 0 = false ∧ bitAt W.me.sAwait 63 = false ∧ W.me.openV 31 := by
  simp only [State.begun, Slot.openV]; decide +kernel
theorem witness_FullnessReports : W.begun ∧ W.me.openS 12 ∧ W.me.role = .single ∧ W.me.privS = true := by
  simp only [State.begun, Slot.openS]; decide +kernel
theorem witness_FullnessWrites : W.begun ∧ W.me.readyS 1 ∧ W.me.sAwait = 0 ∧ W.me.vAwait = 0 ∧ W.me.role = .single ∧
    W.myCore.gWait = [] ∧ W.me.privS = true := by simp only [State.begun, Slot.readyS]; decide +kernel

/-- g0 to g3 full. -/
def WG : State := core5 W fun x => { x with gFull := 0x0F, gr := [(1, 9)] }
theorem witness_SharedResults : WG.begun ∧ WG.me.role = .single ∧ WG.myCore.gWait = [] ∧ WG.me.privS = true ∧
    bitAt WG.myCore.gFull (1 : BitVec 3).toNat = true ∧ WG.me.openS 12 ∧ look [] WG.myCore.gOld (1 : BitVec 3).toNat = [] ∧
    WG.me.readyS 1 ∧ bitAt WG.myCore.gFull (7 : BitVec 3).toNat = false ∧ WG.unperformed WG.me.tid 1 = false := by
  simp only [State.begun, Slot.readyS, Slot.openS]; decide +kernel
theorem witness_SharedWindow : WG.begun ∧ WG.me.role = .single ∧ WG.me.openS 12 ∧ (12 : BitVec 6) ≠ 0 ∧
    bitAt WG.myCore.gFull (1 : BitVec 3).toNat = true ∧ WG.me.privS = true := by
  simp only [State.begun, Slot.openS]; decide +kernel

/-- A descriptor of s7 of slot 0 of core 9, for task `h`. -/
def reg9 (h : Nat) : W64 := BitVec.ofNat 64 (9 + h * 65536 + 7 * 2 ^ 22)
/-- A fill on its way to core 9. -/
def WF (h : Nat) : State := { on { thr with sr := [(1, reg9 1), (2, 88)] } with msgs := [(12, .fill (reg9 h) 88 false 5)] }
/-- The sender; a fill whose target lives, and one whose target's task has another handle. -/
theorem witness_FillResults :
    ((WF 1).begun ∧ (WF 1).me.readyS 1 ∧ (WF 1).me.readyS 2 ∧ (WF 1).me.role = .single ∧ targetOk ((WF 1).me.scalar 1) = true ∧
      bitAt ((WF 1).me.scalar 1) 63 = false ∧ fieldN ((WF 1).me.scalar 1) 0 12 ≠ (WF 1).cur.core ∧
      (WF 1).unperformed (WF 1).me.tid 4 = false) ∧
    (find (WF 1).msgs 12 = some (.fill (reg9 1) 88 false 5) ∧ (WF 1).fillFirst 12 (reg9 1) 5 = true ∧
      (WF 1).takesArrival 5 (fieldN (reg9 1) 0 12) (some 12) = true ∧ fieldN (reg9 1) 20 2 = 0 ∧
      ((WF 1).slot 9 0).live = true ∧ ((WF 1).slot 9 0).task = fieldN (reg9 1) 16 4 ∧ false = ((WF 1).core 9).topinf ∧
      (7 : BitVec 6).toNat = fieldN (reg9 1) 22 6) ∧
    (find (WF 2).msgs 12 = some (.fill (reg9 2) 88 false 5) ∧ (WF 2).fillFirst 12 (reg9 2) 5 = true ∧
      (WF 2).takesArrival 5 (fieldN (reg9 2) 0 12) (some 12) = true ∧ fieldN (reg9 2) 20 2 = 0 ∧
      ¬ ((WF 2).slot 9 0).task = fieldN (reg9 2) 16 4) := by
  simp only [State.begun, Slot.readyS]; decide +kernel
theorem witness_BranchResults : W.begun ∧ W.untraced ∧ W.me.readyS 1 ∧ W.me.readyS 0 := by
  simp only [State.begun, State.untraced, Slot.readyS]; decide +kernel
theorem witness_JumpResults : W.begun ∧ W.untraced ∧ W.me.openS 57 ∧ W.me.readyS 1 ∧ W.me.openS 1 := by
  simp only [State.begun, State.untraced, Slot.readyS, Slot.openS]; decide +kernel

/-- A thread with one entry of each kind, deepest last. -/
def WD (k : BitVec 2) (n : Nat) : State := on { thr with act := 0x0F0F, dstk := [⟨0xFF00, 0x0F00, k⟩], depth := n }
/-- An empty stack; a stack whose top is of each of the four kinds. -/
theorem witness_DivergenceResults :
    (W.begun ∧ W.me.depth = W.me.dstk.length ∧ W.me.depth < 16) ∧
    ((WD 0 1).begun ∧ (WD 0 1).me.depth = (WD 0 1).me.dstk.length ∧ (WD 0 1).me.dstk = [⟨0xFF00, 0x0F00, 0⟩] ∧ (WD 0 1).me.depth ≤ 16) ∧
    ((WD 1 1).begun ∧ (WD 1 1).me.depth = (WD 1 1).me.dstk.length ∧ (WD 1 1).me.dstk = [⟨0xFF00, 0x0F00, 1⟩]) ∧
    ((WD 2 1).begun ∧ (WD 2 1).me.depth = (WD 2 1).me.dstk.length ∧ (WD 2 1).me.dstk = [⟨0xFF00, 0x0F00, 2⟩]) ∧
    ((WD 3 1).begun ∧ (WD 3 1).me.depth = (WD 3 1).me.dstk.length ∧ (WD 3 1).me.dstk = [⟨0xFF00, 0x0F00, 3⟩]) := by
  simp only [State.begun]; decide +kernel
/-- The empty stack is no entry of any kind; an entry of another kind; a full stack. -/
theorem witness_ConvergenceTraps :
    (W.begun ∧ W.me.evec ≠ 0 ∧ W.untraced ∧ W.me.dstk = [] ∧ W.me.depth = 0) ∧
    ((WD 2 1).begun ∧ (WD 2 1).me.evec ≠ 0 ∧ (WD 2 1).untraced ∧ (WD 2 1).me.dstk = [⟨0xFF00, 0x0F00, 2⟩]) ∧
    ((WD 2 65535).begun ∧ (WD 2 65535).me.evec ≠ 0 ∧ (WD 2 65535).untraced ∧ (WD 2 65535).me.dstk ≠ [] ∧ 65535 ≤ (WD 2 65535).me.depth) := by
  simp only [State.begun, State.untraced]; decide +kernel
theorem witness_TrapResults : W.begun ∧ W.me.evec ≠ 0 ∧ W.untraced ∧ W.myCore.dbg.swbp = false := by
  simp only [State.begun, State.untraced]; decide +kernel
/-- A thread at U. -/
def WU : State := on { thr with privS := false }
theorem witness_PrivilegeTraps : WU.begun ∧ WU.me.evec ≠ 0 ∧ WU.untraced ∧ WU.me.privS = false ∧ 0x300 ≤ (0x3FFF : BitVec 14).toNat := by
  simp only [State.begun, State.untraced]; decide +kernel
/-- The task's only thread, without a handler. -/
def W1 : State := (on { thr with evec := 0 }).setSlot 5 4 {}
theorem witness_TrapWithoutHandler : W1.begun ∧ W1.me.evec = 0 ∧ bitAt W1.myCore.dumpcfg 0 = false ∧ W1.me.chState = 0 ∧
    W1.me.role = .single ∧ W1.me.live = true ∧ W1.me.pendCopy = [] ∧ W1.me.pendMerge = [] ∧ W1.threadsOf W1.cur.core W1.me.task = [W1.cur.slot] := by
  simp only [State.begun]; decide +kernel
/-- A thread in a handler; an attached subscriber in one. -/
def WE (ch : Nat) : State := on { thr with epc := 0x1234, estat := 0x100000011, trapped := true, chState := ch, chChan := 9 }
theorem witness_EretResults :
    ((WE 0).begun ∧ (WE 0).me.privS = true ∧ (WE 0).untraced ∧ (WE 0).me.role = .single ∧ (WE 0).me.pairHeld = false ∧ (WE 0).me.chState ≠ 2) ∧
    ((WE 2).begun ∧ (WE 2).me.privS = true ∧ (WE 2).untraced ∧ (WE 2).me.role = .single ∧ (WE 2).me.pairHeld = false ∧ (WE 2).me.chState = 2) := by
  simp only [State.begun, State.untraced]; decide +kernel
theorem witness_HaltResults : W.begun ∧ W.me.privS = true ∧ (core5 W fun x => { x with dbg := { x.dbg with swbp := true } }).begun ∧
    (core5 W fun x => { x with dbg := { x.dbg with swbp := true } }).myCore.dbg.swbp = true := by
  simp only [State.begun]; decide +kernel
theorem witness_DebugResults : (W.slot 5 3).live = true ∧ (W.slot 5 3).halted = false ∧ (W.slot 5 3).wait = .run ∧
    (∀ j, j ∈ List.range 16 → (W.slot 5 j).wait = .run) ∧
    ((core5 W fun x => { x with dbg := { x.dbg with freeze := true } }).core 5).dbg.freeze = true := by decide +kernel

/-! ### Witnesses: waits, invalidation, walks, asynchronous traps, control registers, restores, clocks -/

/-- The thread waits. -/
def Wb (code : Nat) (b : Busy) : State := on { thr with wait := .busy code b }
/-- No other slot is ready, then one is; a tick that has come, one that has not, outside a stream and in it; waits that end now or later. -/
theorem witness_YieldAndSleep :
    (W1.begun ∧ (∀ j, j ∈ List.range 16 → j ≠ W1.cur.slot → W1.ready W1.cur.core j = false)) ∧
    (W.begun ∧ (∃ j, j ∈ List.range 16 ∧ j ≠ W.cur.slot ∧ W.ready W.cur.core j = true)) ∧
    (W.me.readyS 3 ∧ (W.me.scalar 3).toNat ≤ W.time ∧ W.me.readyS 4 ∧ W.time < (W.me.scalar 4).toNat ∧ W.me.chState ≠ 2) ∧
    ((WE 2).begun ∧ (WE 2).me.readyS 4 ∧ (WE 2).time < ((WE 2).me.scalar 4).toNat ∧ (WE 2).me.chState = 2) := by
  simp only [State.begun, Slot.readyS]; decide +kernel
theorem witness_YieldAndSleep_events :
    (∀ u, u ∈ [5, 9999] → ((Wb 2 (.yield u [4])).slot 5 3).wait = .busy 2 (.yield u [4]) ∧ ((Wb 2 (.yield u [4])).slot 5 3).pops = [] ∧
      (Wb 2 (.yield u [4])).noLanding 5 3 = true) ∧
    5 ≤ (Wb 2 (.yield 5 [4])).cyc (dieOf 5) ∧ (Wb 2 (.yield 9999 [4])).cyc (dieOf 5) < 9999 ∧
    (∀ u, u ∈ [1000, 1001] → ((Wb 3 (.sleep u)).slot 5 3).wait = .busy 3 (.sleep u) ∧ ((Wb 3 (.sleep u)).slot 5 3).pops = [] ∧
      (Wb 3 (.sleep u)).noLanding 5 3 = true) ∧
    1000 ≤ (Wb 3 (.sleep 1000)).time ∧ (Wb 3 (.sleep 1001)).time < 1001 := by decide +kernel

/-- A thread waits for its access, and is to be pre-empted. -/
def Ww : State :=
  { on { thr with wait := .busy 4 (.access 44), pendPre := some ⟨16, 0, 0⟩, privS := false } with
    flights := [acc (scratchAddr 5 0x100) 8 (.ldSync true 4)] }
theorem witness_WithdrawnWaits :
    Ww.flights.find? (fun g => g.id == 44) = some (acc (scratchAddr 5 0x100) 8 (.ldSync true 4)) ∧
    (acc (scratchAddr 5 0x100) 8 (.ldSync true 4)).stage = .sent ∧ (Ww.slot 5 3).tid = 7 ∧
    (Ww.slot 5 3).wait = .busy 4 (.access 44) ∧ (Ww.pendingTrap 5 3).isSome = true := by decide +kernel

/-- Cached translations and words, a thread that invalidates in scope `sp`. -/
def Wt (sp : W64) : State :=
  core5 (on { thr with sr := [(1, 0x10000), (2, sp)] }) fun x => { x with tlb := [⟨0x10000, 16, 0x50000, 15, 0⟩] }
/-- A TLB message to core 5, and one to the walker of cluster 2. -/
def Wm : State :=
  { W with msgs := [(12, .tlb 5 0x10000 0), (13, .tlb 0x1002 0x10000 0x10000)],
           hubs := [(2, { walks := [{ asp := 0, root := 0x8000, page := 1, table := 0x40000, level := 2, waiters := [(5, 3)] }] })] }
/-- A TLBINV that has sent its messages. -/
def Wip : State := on { thr with wip := some ([5], [7]) }
theorem witness_InvalidationResults :
    (W.begun ∧ (1 : BitVec 6) ≠ 0 ∧ W.me.readyS 1) ∧
    ((Wt 0).begun ∧ (Wt 0).me.privS = true ∧ (Wt 0).me.role = .single ∧ (Wt 0).me.readyS 1 ∧ (Wt 0).me.readyS 2 ∧
      ((Wt 0).me.scalar 2).toNat < 2 ^ 20 ∧ (Wt 0).me.wip = none ∧
      (Wt 0).tlbTargets (Wt 0).cur.core (((Wt 0).me.scalar 2).toNat / 2 ^ 18 % 4) = [] ∧
      (Wt 0).throughEntries (Wt 0).cur.core ((Wt 0).me.scalar 1) ((Wt 0).me.scalar 2) = []) := by
  simp only [State.begun, Slot.readyS]; decide +kernel
theorem witness_InvalidationResults_scope :
    ((Wt 0x80000).begun ∧ (Wt 0x80000).me.privS = true ∧ (Wt 0x80000).me.role = .single ∧ (Wt 0x80000).me.readyS 1 ∧
      (Wt 0x80000).me.readyS 2 ∧ ((Wt 0x80000).me.scalar 2).toNat < 2 ^ 20 ∧
      (Wt 0x80000).me.wip = none ∧ (Wt 0x80000).tlbTargets (Wt 0x80000).cur.core (((Wt 0x80000).me.scalar 2).toNat / 2 ^ 18 % 4) ≠ []) := by
  simp only [State.begun, Slot.readyS]; decide +kernel
theorem witness_InvalidationResults_end :
    (Wip.begun ∧ Wip.me.privS = true ∧ Wip.me.role = .single ∧ Wip.me.readyS 1 ∧ Wip.me.readyS 2 ∧ (Wip.me.scalar 2).toNat < 2 ^ 20 ∧
      Wip.me.wip = some ([5], [7]) ∧ Wip.flights = [] ∧ Wip.msgs = []) ∧
    (find Wm.msgs 12 = some (.tlb 5 0x10000 0) ∧ find Wm.msgs 13 = some (.tlb 0x1002 0x10000 0x10000) ∧
      bitAt (0x10000 : W64) 16 = true) := by
  simp only [State.begun, Slot.readyS]; decide +kernel

/-- Bytes of a state are sound. -/
def soundB (s : State) (pa n : Nat) : Bool :=
  !s.poisoned pa n && s.latent.all fun g => !decide (pa / 8 ≤ g.1 ∧ g.1 ≤ (pa + n - 1) / 8)
theorem sound_of (s : State) (pa n : Nat) (h : soundB s pa n = true) : s.sound pa n := by
  simpa only [soundB, State.sound, Bool.and_eq_true, Bool.not_eq_true', List.all_eq_true, decide_eq_false_iff_not] using h
/-- Bytes are read at once. -/
def readsB (s : State) (pa n : Nat) : Bool :=
  s.present pa && inMemory pa && s.homeOpen s.cur.core pa && soundB s pa n && !(s.crossLink (s.linkOf s.cur.core pa)).1
theorem readable_of (s : State) (pa n : Nat) (h : readsB s pa n = true) : s.readable pa n := by
  simp only [readsB, Bool.and_eq_true] at h
  exact ⟨h.1.1.1.1, h.1.1.1.2, h.1.1.2, sound_of s pa n h.1.2, by simpa [State.flitSound] using h.2⟩

/-- A walk at `level` in the table at `table`, for a load at S. -/
def wk (level table : Nat) : Walk :=
  { asp := 0, root := 0x8000, page := 0x12345, table := table, level := level, waiters := [(5, 3)], acc := .load, privS := true }
/-- Where it reads. -/
def wkAt (level table : Nat) : Nat :=
  table + 8 * (0x12345 * 65536 / 2 ^ (16 + 10 * (4 - level)) % 2 ^ (if level = 1 then 11 else 10))
/-- Its entry is `e`. -/
def Wwk (level e table : Nat) : State :=
  { on { thr with missed := some (0x12345, 0) } with
    hubs := [(2, { walks := [wk level table] })], mem := writeBytes [] (wkAt level table) (natLe 8 e) }
/-- The walk is there, and its entry stands ready at its home. -/
def walks (level e table : Nat) : Bool :=
  let s := Wwk level e table
  (s.hub 2).walks[0]? == some (wk level table) && decide ((0x8000 : W64).toNat % 2 ^ 14 = 0) && (s.homeOf (wkAt level table)).isSome &&
    s.present (wkAt level table) && s.homeTakes 4096 (wkAt level table) (some (wk level table).id) && inMemory (wkAt level table) && soundB s (wkAt level table) 8 &&
    s.loadN (wkAt level table) 8 == e
/-- A pointer, a leaf that permits the load and one that does not, an invalid entry, a reserved bit, no home, an absent line. -/
theorem witness_WalkSteps :
    (walks 2 0x123456001 0x40000 = true ∧ 0x123456001 % 4 = 1 ∧ 0x123456001 < 2 ^ 52) ∧
    (walks 4 0x7001F 0x40000 = true ∧ 0x7001F % 4 = 3 ∧ 0x7001F / 2 ^ 7 % 2 ^ (16 - 7) = 0 ∧ permOk (0x7001F % 128) .load true = true ∧
      ((Wwk 4 0x7001F 0x40000).hub 2).fifo = [] ∧ ((Wwk 4 0x7001F 0x40000).core 5).tlb.length < 128) ∧
    (walks 4 0x7000B 0x40000 = true ∧ 0x7000B % 4 = 3 ∧ 0x7000B / 2 ^ 7 % 2 ^ (16 - 7) = 0 ∧ permOk (0x7000B % 128) .load true = false) ∧
    (walks 4 0 0x40000 = true ∧ walks 4 (2 ^ 52 + 3) 0x40000 = true ∧ (wk 4 0x40000).stale = false ∧
      ((Wwk 4 0 0x40000).slot 5 3).missed = some ((wk 4 0x40000).page, (wk 4 0x40000).asp)) ∧
    ((Wwk 2 1 0x0E5000000000).homeOf (wkAt 2 0x0E5000000000)).isNone = true ∧
    (let p := scratchAddr 0x20 0x400
     let s := core5 (Wwk 4 0 p) id
     (s.homeOf (wkAt 4 p)).isSome = true ∧ ({ s with absent := [((wkAt 4 p) / 64, (5, 0, false))] } : State).present (wkAt 4 p) = false) := by decide +kernel

/-- A thread at U with pending traps. -/
def Wa (t : Slot → Slot) : State := on (t { thr with privS := false })
/-- Each kind of post first in turn, an FMTMISMATCH record, and none. -/
theorem witness_AsyncTrapDelivery :
    let p : Post := ⟨11, 0x77, 0xFF⟩
    let q := Wa fun t => { t with pendCopy := [p] }
    let f := task2 (Wa id) fun h => { h with fmtq := [(0x88, 0x99, none)] }
    let w := Wa fun t => { t with wait := .busy 3 (.divide 12 99), pendPre := some p }
    let z := on { thr with pendMerge := [p] }
    let y := on { thr with mismatch := some p, pendMerge := [p] }
    ((q.slot 5 3).live = true ∧ (q.slot 5 3).halted = false ∧ (q.core 5).dbg.freeze = false ∧ q.goesBack 5 3 = true ∧
      (q.slot 5 3).evec ≠ 0 ∧ bitAt (q.core 5).dbg.btbase 0 = false ∧ (q.slot 5 3).privS = false ∧ (q.slot 5 3).qinh = false ∧
      q.fmtFor 5 3 = none ∧ (q.slot 5 3).pendCopy = [p]) ∧
    (((Wa fun t => { t with pendPre := some p }).slot 5 3).pendCopy = [] ∧ ((Wa fun t => { t with pendPre := some p }).slot 5 3).pendPre = some p) ∧
    (((Wa fun t => { t with mismatch := some p }).slot 5 3).pendPre = none ∧ ((Wa fun t => { t with mismatch := some p }).slot 5 3).mismatch = some p) ∧
    (((Wa fun t => { t with pendMerge := [p] }).slot 5 3).mismatch = none ∧ ((Wa fun t => { t with pendMerge := [p] }).slot 5 3).pendMerge = [p]) ∧
    ((f.slot 5 3).privS = false ∧ (f.slot 5 3).evec ≠ 0 ∧ (f.fmtFor 5 3).isSome = true) ∧ ((Wa id).slot 5 3).pendMerge = [] ∧
    (w.goesBack 5 3 = true ∧ (w.slot 5 3).wait ≠ .run ∧ w.fmtFor 5 3 = none) ∧
    (z.goesBack 5 3 = true ∧ (z.slot 5 3).privS = true ∧ (z.slot 5 3).mismatch = none ∧ (z.slot 5 3).pendMerge = [p]) ∧
    (y.goesBack 5 3 = true ∧ (y.slot 5 3).privS = true ∧ (y.slot 5 3).mismatch = some p) := by decide +kernel
/-- A PREEMPT on its way, an FMTMISMATCH record to a task with `n` waiting. -/
def Wp (n : Nat) : State :=
  task2 { W with msgs := [(12, .preempt (5 + 2 * 65536)), (13, .fmt 5 2 0x66 0x55 none)] } fun h => { h with fmtq := List.replicate n (1, 2, none) }
theorem witness_PostArrivals :
    (find (Wp 0).msgs 12 = some (.preempt (5 + 2 * 65536)) ∧ coreExists (fieldN (5 + 2 * 65536) 0 12) = true ∧
      ((Wp 0).taskOf (fieldN (5 + 2 * 65536) 0 12) (fieldN (5 + 2 * 65536) 16 4)).live = true) ∧
    (find (Wp 3).msgs 13 = some (.fmt 5 2 0x66 0x55 none) ∧ ((Wp 3).taskOf 5 2).live = true ∧ ((Wp 3).taskOf 5 2).fmtq.length < 4) ∧
    (find (Wp 4).msgs 13 = some (.fmt 5 2 0x66 0x55 none) ∧ ((Wp 4).taskOf 5 2).live = true ∧ 4 ≤ ((Wp 4).taskOf 5 2).fmtq.length) := by
  decide +kernel
theorem witness_ControlReads : W.begun ∧ W.me.openS 12 ∧ W.me.role = .single ∧ W.me.privS = true := by
  simp only [State.begun, Slot.openS]; decide +kernel
theorem witness_ControlWrites : (W.begun ∧ W.me.readyS 1 ∧ W.me.role = .single ∧ W.me.privS = true) ∧
    (WU.begun ∧ WU.me.readyS 1 ∧ WU.me.role = .single ∧ WU.me.privS = false) := by
  simp only [State.begun, Slot.readyS]; decide +kernel
theorem witness_SlowControlRegisters :
    (W.begun ∧ W.me.readyS 1 ∧ W.me.openS 12 ∧ W.me.role = .single ∧ W.me.privS = true ∧ W.hmapsel < 80) ∧
    ((Wb 3 (.hmap 79 9)).slot 5 3).wait = .busy 3 (.hmap 79 9) ∧ ((Wb 3 (.pdirbase 9)).slot 5 3).wait = .busy 3 (.pdirbase 9) ∧
    (let s := on { thr with wait := .busy 3 (.pmrd 12), pmrsel := 0x50009 }
     (s.slot 5 3).wait = .busy 3 (.pmrd (12 : BitVec 6).toNat) ∧ (s.slot 5 3).isPort 12 = false ∧ coreExists 9 = true ∧
       fieldN (s.slot 5 3).pmrsel 0 12 = 9 ∧ s.partOf 9 = s.partOf 5 ∧ fieldN (s.slot 5 3).pmrsel 19 2 = 0) ∧
    (let s := on { thr with wait := .busy 3 (.pmrd 12), pmrsel := 0xFFF }
     (s.slot 5 3).wait = .busy 3 (.pmrd (12 : BitVec 6).toNat) ∧ coreExists (fieldN (s.slot 5 3).pmrsel 0 12) = false) := by
  simp only [State.begun, Slot.readyS, Slot.openS]; decide +kernel
theorem witness_CoreRegisterEvents : W.me.role = .single ∧ W.begun ∧
    (W.taskOf W.cur.core W.me.task).accs[fieldN W.me.accidx 16 2]? = some 0 ∧ W.myCore.accLocked 0 = false ∧
    (core5 W fun x => { x with dropq := [(1, 2)] }).myCore.dropq = [(1, 2)] ∧ W.myCore.dropq = [] := by
  simp only [State.begun]; decide +kernel
theorem witness_MapoutTrap :
    let s := on { thr with sr := [(1, 0x1005)] }
    s.begun ∧ s.me.readyS 1 ∧ s.me.role = .single ∧ s.me.privS = true ∧ s.me.evec ≠ 0 ∧ s.untraced ∧ bitAt (s.me.scalar 1) 12 = true ∧
      coreExists ((s.me.scalar 1).toNat % 4096) = true ∧ (s.me.scalar 1).toNat % 4096 ∉ s.mapout ∧
      (s.core ((s.me.scalar 1).toNat % 4096)).busy = true := by
  simp only [State.begun, State.untraced, Slot.readyS]; decide +kernel
theorem witness_ModuleRegisterEvents :
    (bitAt (0x1005 : W64) 12 = true ∧ (W.core ((0x1005 : W64).toNat % 4096)).busy = true) ∧
    (bitAt (0x1008 : W64) 12 = true ∧ (W.core 8).busy = false ∧ coreExists 8 = true ∧ 8 ∉ W.mapout) ∧
    (bitAt (0x14 : W64) 4 = true ∧ (W.slot 5 4).live = true ∧ (W.slot 5 4).wait = .run ∧ W.myCore.dump = none) ∧
    (bitAt (0x1A : W64) 4 = true ∧ (W.slot 5 10).live = false) := by decide +kernel

/-- A restore that waits; a valid header of one thread at 4 MiB. -/
def Wr (v : W64) : State :=
  mem (on { thr with wait := .busy 3 (.rstpost v) }) 0x400000
    (natLe 8 0x10001 ++ natLe 4 0x101 ++ natLe 4 0 ++ natLe 8 77 ++ natLe 8 0x4000 ++ natLe 8 0 ++ natLe 8 0x5000 ++ natLe 32 0 ++ natLe 8 3)
/-- The restore is admitted on core 9, and on the waiting thread's own; a core that does not exist; another partition. -/
theorem witness_RestoreResults :
    ((((Wr (BitVec.ofNat 64 (9 * 2 ^ 52 + 0x400000))).slot 5 3).wait = .busy 3 (.rstpost (BitVec.ofNat 64 (9 * 2 ^ 52 + 0x400000)))) ∧
      (match (Wr (BitVec.ofNat 64 (9 * 2 ^ 52 + 0x400000))).restoreTask 5 (BitVec.ofNat 64 (9 * 2 ^ 52 + 0x400000)) with
       | some (.ok _) => true | _ => false) = true ∧ ((Wr (BitVec.ofNat 64 (9 * 2 ^ 52 + 0x400000))).slot 5 3).live = true ∧
      (match (Wr (BitVec.ofNat 64 (5 * 2 ^ 52 + 0x400000))).restoreTask 5 (BitVec.ofNat 64 (5 * 2 ^ 52 + 0x400000)) with
       | some (.ok _) => true | _ => false) = true) ∧
    (((Wr (BitVec.ofNat 64 (0x240 * 2 ^ 52))).slot 5 3).evec ≠ 0 ∧ coreExists (fieldN (BitVec.ofNat 64 (0x240 * 2 ^ 52)) 52 12) = false) ∧
    (let s := { Wr (BitVec.ofNat 64 (0x40 * 2 ^ 52)) with hubs := [(4, { partid := 1 })] }
     (s.slot 5 3).evec ≠ 0 ∧ coreExists 0x40 = true ∧ 0x40 ∉ s.mapout ∧ s.served (dieOf 0x40) = true ∧ s.partOf 0x40 ≠ s.partOf 5) := by
  decide +kernel
theorem witness_TimeAdjustment :
    2 ^ 20 < ((0x100001 : W64).extractLsb' 0 32).toInt ∧
    (let s := { W with tslew := 1024, tadj := 5 }; 1024 ≤ s.tslew ∧ 0 < s.tadj.toInt) ∧
    (let s := { W with tslew := 1024, tadj := 0xFFFFFFF0 }; 1024 ≤ s.tslew ∧ s.tadj.toInt < 0) ∧ W.tadj = 0 := by decide +kernel
/-- Die 2 at clock 3. -/
def Wdie (x : Die → Die) : State := { W with dies := [(2, x { freq := 3, fcap := 4, temp := 50, throtAt := 100 })] }
theorem witness_ClockSteps :
    ((0 : W64).toNat % 8 < 5 ∧ 2 ≤ (Wdie id).level ∧ (0 : W64).toNat % 8 < ((Wdie id).die (2 : BitVec 2).toNat).target) ∧
    (let s := Wdie fun x => { x with request := some 1 }
     2 ≤ s.level ∧ (s.die 2).stepping = none ∧ (s.die 2).eTime ≤ s.time ∧ (s.die 2).request = some 1 ∧ s.pwrTrip = false ∧
       (∀ e, e < 4 → (s.die e).temp < 110) ∧ (s.die 2).throttled = false) ∧
    (let x := (Wdie fun x => { x with stepping := some (1, 777), owed := 2 }).die 2
     x.stepping = some (1, 777) ∧ x.newest < 8 ∧ x.stepCount < 2 ^ 32 ∧ 0 < x.owed) := by decide +kernel
theorem witness_ThermalResults :
    (100 ≤ (100 : BitVec 8).toNat ∧ ((Wdie id).die 2).throttled = false ∧ 2 ≤ (Wdie id).level ∧ 0 < ((Wdie id).die 2).target) ∧
    (let s := Wdie fun x => { x with throttled := true }
     (s.die 2).throttled = true ∧ s.time < (s.die 2).throtAt + 10000) ∧
    (let s := { Wdie (fun x => { x with throttled := true }) with time := 10100 }
     (s.die 2).throttled = true ∧ (s.die 2).throtAt + 10000 ≤ s.time ∧ (s.die 2).temp < 95) ∧
    (let s := { Wdie (fun x => { x with throttled := true, temp := 95 }) with time := 10100 }
     (s.die 2).throttled = true ∧ (s.die 2).throtAt + 10000 ≤ s.time ∧ 95 ≤ (s.die 2).temp ∧ 0 < (s.die 2).target) ∧
    110 ≤ (110 : BitVec 8).toNat := by decide +kernel

/-! ### Witnesses: tasks -/

/-- The 64 bytes of a QUEUE record. -/
def recB (entry a0 a1 a2 a3 reply res target start : Nat) : List Byte :=
  natLe 8 entry ++ natLe 8 a0 ++ natLe 8 a1 ++ natLe 8 a2 ++ natLe 8 a3 ++ natLe 8 reply ++ natLe 4 res ++ natLe 4 target ++ natLe 8 start
/-- A record for core `target` in the core's own scratchpad, at the address in s1. -/
def Wrec (off target reply : Nat) (res : Nat := 0x101) : State :=
  mem (on { thr with sr := [(1, BitVec.ofNat 64 off), (2, 0x100000003)] }) (scratchAddr 5 off) (recB 0x5000 1 2 3 4 reply res target 0)
/-- A record in a bank. -/
def qr (target : Nat) : QRec := ⟨recB 0x5000 1 2 3 4 77 0x101 target 0, 3, 0x4000, 1, []⟩
/-- A record message on its way, whose sender waits. -/
def Wra : State := { on { thr with wait := .busy 3 (.place 12) } with msgs := [(12, .record 0 (qr 9) (some (5, 3, 7)) 5)] }
/-- The record of the thread stands at `pa`, and is valid. -/
def recordB (s : State) (pa : Nat) (sib : Bool) : Bool :=
  readsB s pa 64 && recordOk (readBytes s.mem pa 64) && recSib (readBytes s.mem pa 64) == sib &&
    decide (s.partOf (recCore (readBytes s.mem pa 64)) = s.partOf s.cur.core)
/-- A valid record; its arrival at a bank with room, and at a cluster that is not served. -/
theorem witness_SpawnResults :
    ((Wrec 0x40 9 77).begun ∧ (Wrec 0x40 9 77).idle ∧ (Wrec 0x40 9 77).me.readyS 1 ∧ (12 : BitVec 6) ≠ 0 ∧ (Wrec 0x40 9 77).me.openS 12) ∧
    (Wrec 0x40 9 77).Reaches ((Wrec 0x40 9 77).me.scalar 1) 64 .load { pa := scratchAddr 5 0x40 } ∧
    (Wrec 0x40 9 77).readable (scratchAddr 5 0x40) 64 ∧ recordB (Wrec 0x40 9 77) (scratchAddr 5 0x40) false = true ∧
    (∀ s, s ∈ [Wra, { Wra with level := 0 }] → find s.msgs 12 = some (.record 0 (qr 9) (some (5, 3, 7)) 5) ∧
      (∀ m, m ∈ s.msgs → ¬ m.1 < 12) ∧ (s.hub 0).bank.length < 256 ∧ (s.slot 5 3).tid = 7 ∧ (s.slot 5 3).wait = .busy 3 (.place 12)) ∧
    (dieOf 0x400 ≠ 0 / 64 ∧ dieLink (dieOf 0x400) (0 / 64) ∈ ({ Wra with badFlits := [dieLink 1 0] } : State).badFlits) ∧
    Wra.served (0 / 64) = true ∧ ({ Wra with level := 0 } : State).served (0 / 64) = false := by
  refine ⟨?_, reaches _ _ _ _ _ (by decide +kernel), readable_of _ _ _ (by decide +kernel), by decide +kernel, by decide +kernel,
    by decide +kernel, by decide +kernel, by decide +kernel⟩
  simp only [State.begun, State.idle, Slot.readyS, Slot.openS]; decide +kernel
/-- The record is a sibling's. -/
theorem witness_SiblingStarts :
    let s := Wrec 0x40 0x2000 0 0
    (s.begun ∧ s.idle ∧ s.me.readyS 1) ∧ s.Reaches (s.me.scalar 1) 64 .load { pa := scratchAddr 5 0x40 } ∧
    s.readable (scratchAddr 5 0x40) 64 ∧
    recordOk (readBytes s.mem (scratchAddr 5 0x40) 64) = true ∧ recSib (readBytes s.mem (scratchAddr 5 0x40) 64) = true ∧
    s.myCore.freeSlots.head? = some 0 ∧ 0 ≠ s.cur.slot := by
  refine ⟨?_, reaches _ _ _ _ _ (by decide +kernel), readable_of _ _ _ (by decide +kernel), by decide +kernel⟩
  simp only [State.begun, State.idle, Slot.readyS]; decide +kernel
/-- A bank with a record for core 5, an argument of which came poisoned; a ring whose oldest entry is its last. -/
def Wd : State := { W with hubs := [(0, { bank := [{ qr 5 with poison := [2] }] }), (1, { ringHead := 16383, ringCount := 2 })] }
/-- The ring's oldest entry is `l`. -/
def Wring (l : List Byte) : State := mem Wd (Wd.ringBase 1 + (Wd.hub 1).ringHead * 128) l
theorem witness_DispatchResults :
    (Wd.coreActive 5 = true ∧ Wd.nextRecord 5 = some { qr 5 with poison := [2] } ∧ (Wd.core 5).freeTasks.head? = some 0 ∧ (Wd.core 5).freeSlots.head? = some 0 ∧
      resSluice (recRes (qr 5).bytes) = false ∧ resPair (recRes (qr 5).bytes) = false) ∧
    ((Wd.hub 1).bank.length < 256 ∧ 0 < (Wd.hub 1).ringCount ∧ 0 < Wd.ringCap 1 ∧ Wd.latent = [] ∧ (Wd.hub 1).drops < 0xFFFF ∧
      ∀ p, p ∈ [(natLe 128 0, false), ((qr 17).ringBytes, true)] → let s := Wring p.1
        let a := s.ringBase 1 + (s.hub 1).ringHead * 128
        s.homeOpen 4096 a = true ∧
          (recordOk (readBytes s.mem a 64) && !recSib (readBytes s.mem a 64)) = p.2) := by decide +kernel
/-- A task whose reply is `r`. -/
def Wre (r : W64) : State := task2 W fun q => { q with reply := r }
/-- A reply to core 9's s12. -/
def toNine : W64 := 0x3010009
/-- The task's only thread, a thread beside another; replies of each kind. -/
theorem witness_ThreadEnds :
    (W.begun ∧ W.me.role = .single ∧ W.me.chState = 0 ∧ W.me.readyS 1 ∧ W.unperformed W.me.tid 4 = false) ∧
    (∀ k, k ∈ (W.setSlot 5 4 {}).threadsOf 5 2 → k = (W.setSlot 5 4 {}).cur.slot) ∧ ((Wre 0).taskOf 5 2).reply = 0 ∧
    (((Wre toNine).taskOf 5 2).replied = false ∧ ((Wre toNine).taskOf 5 2).reply ≠ 0 ∧ bitAt ((Wre toNine).taskOf 5 2).reply 63 = false ∧
      fieldN ((Wre toNine).taskOf 5 2).reply 0 12 ≠ 5 ∧ ((Wre toNine).taskOf 5 2).killed = false ∧
      ((Wre toNine).taskOf 5 2).endStatus ≠ 0x13) := by
  simp only [State.begun, Slot.readyS]; decide +kernel
/-- A decrement on its way to a block at offset `off` of core 9's scratchpad. -/
def Wdec (off count status : Nat) : State :=
  mem { W with msgs := [(12, .tdec (BitVec.ofNat 64 (scratchAddr 9 off)) 5)] } (scratchAddr 9 (off + 64)) (natLe 8 count ++ natLe 8 status)
theorem witness_DependenceResults :
    let s := Wrec 0x80 9 0
    let l : Loc := { pa := scratchAddr 5 0x80 }
    (s.begun ∧ s.idle ∧ s.me.readyS 1 ∧ s.me.readyS 2 ∧ s.me.openS 12) ∧ s.Reaches (s.me.scalar 1) 128 .atomic l ∧ s.readable l.pa 64 ∧
    (hasFe l.pa = true ∧ l.pa % 128 = 0 ∧ s.present (l.pa + 64) = true ∧
      s.discards s.cur.core s.myCore.topinf l.pa = false ∧ recordB s l.pa false = true ∧
      0 < (s.me.scalar 2).toNat % 2 ^ 32 ∧ s.flights = []) := by
  refine ⟨?_, reaches _ _ _ _ _ (by decide +kernel), readable_of _ _ _ (by decide +kernel), by decide +kernel⟩
  simp only [State.begun, State.idle, Slot.readyS, Slot.openS]; decide +kernel
theorem witness_DependenceResults_counts :
    (W.begun ∧ W.me.role = .single ∧ W.me.readyS 1 ∧ W.unperformed W.me.tid 4 = false) ∧
    (∀ o, o ∈ [0x80, 0x84] → ∀ n, n ∈ [1, 2, 2 ^ 64 - 1] → ∀ st, st ∈ [1, 2] → let s := Wdec o n st
      let h := scratchAddr 9 o
      find s.msgs 12 = some (.tdec (BitVec.ofNat 64 h) 5) ∧ (∀ m, m ∈ s.msgs → ¬ m.1 < 12) ∧ s.homeOf h = some 9 ∧ hasFe h = true ∧
        s.takesArrival 5 9 (some 12) = true ∧ inMemory h = true ∧ soundB s h 128 = true ∧
        s.present h = true ∧ s.present (h + 64) = true ∧ s.flights = [] ∧ s.loadN (h + 64) 8 = n ∧ s.loadN (h + 72) 8 = st) ∧
    (scratchAddr 9 0x80 % 128 = 0 ∧ scratchAddr 9 0x84 % 128 ≠ 0) ∧
    (let s := mem (Wdec 0x80 1 1) (scratchAddr 9 0x80) (qr 9).bytes
     let r := readBytes s.mem (scratchAddr 9 0x80) 64
     s.loadN (scratchAddr 9 0xC0) 8 = 1 ∧ recordOk r = true ∧ recSib r = false ∧ s.partOf (recCore r) = s.partOf 9 ∧
       recordOk (readBytes (Wdec 0x80 1 1).mem (scratchAddr 9 0x80) 64) = false) ∧
    (dieOf 0x400 ≠ dieOf 9 ∧ dieLink (dieOf 0x400) (dieOf 9) ∈ [dieLink 1 0]) := by
  simp only [State.begun, Slot.readyS]; decide +kernel
/-- The thread's polder slot 0 is core 9's task 1, whose bank its address names. -/
def Wmg : State :=
  { core5 (on { thr with sr := [(1, 0x10000123)] }) fun x => { x with pwin := [(2 * 64 + 0, (9, 1))] } with time := 7 }
/-- A package in core 9's buffer. -/
def pk : Pkg := { thread := { thr with pc := 0x6000, task := 6 }, reply := 99 }
theorem witness_MigrationResults :
    (Wmg.Reaches (Wmg.me.scalar 1) 1 .load { pa := scratchAddr 9 (4 * 4096 + 0x123), polder := some 0 }) ∧
    (Wmg.begun ∧ Wmg.idle ∧ Wmg.me.readyS 1) ∧
    (Wmg.homeOf (scratchAddr 9 (4 * 4096 + 0x123)) = some 9 ∧ Wmg.partOf 9 = Wmg.partOf Wmg.cur.core ∧
      (∀ n, n < 4 → portOn Wmg.me.qcfg n = false) ∧ Wmg.migrBusy = false ∧ Wmg.me.chState = 0 ∧ (Wmg.core 9).migbuf.length < 4) ∧
    (let s := W.setCore 9 { W.core 9 with migbuf := [pk] }
     (s.core 9).migbuf = [pk] ∧ (s.core 9).freeSlots.head? = some 1 ∧ (s.core 9).freeTasks.head? = some 0) := by
  refine ⟨reaches _ _ _ _ _ (by decide +kernel), ?_, ?_⟩
  · simp only [State.begun, State.idle, Slot.readyS]; decide +kernel
  · decide +kernel
/-- A task of core 5 that has no thread left. -/
def We (q : Task) : State := W.modTask 5 3 fun _ => q
theorem witness_TaskEnds :
    (∀ q, q ∈ [({ live := true, ending := true, reply := toNine } : Task), { live := true, ending := true, preempted := some 4 },
        { live := true, ending := true, replied := true, reply := 3 }, { live := true, ending := true }] →
      ((We q).taskOf 5 3) = q ∧ (We q).threadsOf 5 3 = [] ∧ (We q).taskQuiet 5 3 = true ∧ ((We q).core 5).slcmds = [] ∧ q.member = none ∧
        q.leaving = false) ∧ toNine ≠ 0 ∧ bitAt toNine 63 = false ∧ fieldN toNine 0 12 ≠ 5 := by decide +kernel

/-! ### Witnesses: polders, ports, channels -/

/-- A directory at 0x20000 whose entry 3 has mask `mask`; s1 is 3 and s2 is 5. -/
def Wpo (q : Task) (mask : Nat) : State :=
  mem (({ on { thr with sr := [(1, 3), (2, 5)] } with pdirbase := [(0, 0x20000)] } : State).modTask 5 2 fun _ => q) (0x20000 + 512 * 3) (natLe 8 mask)
/-- No membership; a PJOIN under way; a member; a PLEAVE before and after its removals. -/
theorem witness_PolderResults :
    (∀ q, q ∈ [({ live := true } : Task), { live := true, joinBy := some 7, member := some (3, 5) }, { live := true, member := some (3, 5) },
        { live := true, leaving := true, leaveBy := some 7 }, { live := true, leaveBy := some 7 }] →
      let s := Wpo q 3
      s.begun ∧ s.me.role = .single ∧ s.me.readyS 1 ∧ s.me.readyS 2 ∧ s.me.openS 12 ∧ s.myDir ≠ 0 ∧ (s.me.scalar 1).toNat = 3 ∧
        (s.me.scalar 2).toNat = 5 ∧ (s.homeOf (s.myDir.toNat + 512 * 3)).isSome = true ∧ s.dirOpen 5 (s.myDir.toNat + 512 * 3) = true ∧
        Nat.testBit (s.loadN (s.myDir.toNat + 512 * 3) 8) 5 = false ∧
        s.pendingAt s.me.tid (s.myDir.toNat + 512 * 3) = false ∧ inMemory (s.myDir.toNat + 512 * 3) = true ∧
        soundB s (s.myDir.toNat + 512 * 3) 512 = true ∧ (s.crossLink (s.linkOf 5 (s.myDir.toNat + 512 * 3))).1 = false ∧ s.flights = [] ∧
        s.taskOf 5 2 = q ∧ s.me.tid = 7 ∧ s.polderPending (5 * 16 + 2) = false ∧ s.polderFlights 5 2 = false) := by
  simp only [State.begun, Slot.readyS, Slot.openS]; decide +kernel
theorem witness_PolderResults_query :
    let s := Wpo { live := true } 3
    let e := s.myDir.toNat + 512 * (s.me.scalar 1).toNat
    s.free_ ∧ s.pendingAt s.me.tid e = false ∧ s.readable e 8 := by
  refine ⟨?_, by decide +kernel, readable_of _ _ _ (by decide +kernel)⟩
  simp only [State.free_]; decide +kernel
/-- A message to core 5's task 2, a member of polder 3, from core 9's task 1. -/
def Wpu (m : Option (Nat × Nat)) (l : Option (List Nat)) : State :=
  task2 { W with msgs := [(12, .polder 5 2 3 7 m 145 l)] } fun q => { q with member := some (3, 3) }
/-- An install and a removal on their way; a removal whose accesses are done, and one whose access is not. -/
theorem witness_PolderUpdates :
    (∀ m, m ∈ [some (9, 1), none] → find (Wpu m none).msgs 12 = some (.polder 5 2 3 7 m 145 none) ∧
      (Wpu m none).polderFirst 12 5 2 7 = true ∧ (Wpu m none).takesArrival (145 / 16) 5 (some 12) = true ∧
      ((Wpu m none).taskOf 5 2).live = true ∧ ((Wpu m none).taskOf 5 2).member = some (3, 3)) ∧
    (find (Wpu none (some [44])).msgs 12 = some (.polder 5 2 3 7 none 145 (some [44])) ∧ (Wpu none (some [44])).underWay 5 [44] = false ∧
      ({ Wpu none (some [44]) with flights := [acc 0x100 8 (.st 1)] } : State).underWay 5 [44] = true) := by decide +kernel
/-- Port 0 of core 5 is an input from core 4's port 0, with entries `inn`; port 1 an output to core 6's port 0. -/
def Wq (t : Slot) (inn : List PortEnt) : State :=
  let s := on { t with qcfg := 7 * 65536 + 13 }
  let s := s.setCore 6 { slots := [(0, { live := true, tid := 20, qcfg := 29 })], ports := [(0, { fly := [{ val := 1 }] })] }
  let s := s.setCore 4 { slots := [(0, { live := true, tid := 21, qcfg := 7 })] }
  s.setCore 5 { s.core 5 with ports := [(0, { here := inn })] }
theorem witness_PortResults :
    (let s := Wq thr [{ val := 0x1234 }, { val := 7, ctl := true }]
     s.begun ∧ s.me.role = .single ∧ s.me.openS 3 ∧ s.me.isPort 60 = true ∧ portOut s.me.qcfg 0 = false ∧
       (s.joined s.cur.core 0).isSome = true ∧
       (look {} s.myCore.ports 0).here = [{ val := 0x1234 }, { val := 7, ctl := true }]) ∧
    (let s := Wq thr []
     s.idle ∧ s.me.readyS 2 ∧ (61 : BitVec 6).toNat = 60 + (1 : BitVec 2).toNat ∧ portOn s.me.qcfg 1 = true ∧
       portOut s.me.qcfg 1 = true ∧ s.joined s.cur.core 1 = some (6, 0) ∧ s.portSpace s.cur.core 1 = true ∧
       (look {} (s.core 6).ports 0).fly = [{ val := 1 }]) := by
  simp only [State.begun, State.idle, Slot.readyS, Slot.openS]; decide +kernel
theorem witness_QueueHandlers :
    (let s := Wq { thr with qhdl := [(0, 0x9003)] } [{ val := 5, ctl := true }, { val := 4 }]
     s.begun ∧ s.me.role = .single ∧ s.me.openS 12 ∧ portOn s.me.qcfg 0 = true ∧ portOut s.me.qcfg 0 = false ∧ s.me.isPort 60 = true ∧
       s.me.qinh = false ∧ (s.joined s.cur.core 0).isSome = true ∧ (look {} s.myCore.ports 0).here = [{ val := 5, ctl := true }, { val := 4 }] ∧ look 0 s.me.qhdl 0 ≠ 0 ∧ s.me.evec ≠ 0 ∧
       s.untraced ∧ s.me.readyS 2) ∧
    ((Wq { thr with qinh := true, qrpc := 0x7003 } []).me.qinh = true ∧ (Wq { thr with qinh := true, qrpc := 0x7003 } []).me.chState = 0) := by
  simp only [State.begun, State.untraced, Slot.readyS, Slot.openS]; decide +kernel
/-- Core 5 publishes channel `ch`, and core 9's slot 2 holds `sub`. -/
def Wc (sub : Slot) (ch : Chan) (me : Slot) : State :=
  let s := (on me).setSlot 9 2 sub
  s.setCore 5 { s.core 5 with chan := ch }
def publisher : Slot := { thr with chState := 1, chChan := 5 }
def subscriber : Slot := { live := true, tid := 30, pc := 0x8000, chState := 2, chChan := 5 }
/-- The thread subscribes to core 9's channel. -/
def Ws (t : Slot) : State :=
  let s := on { t with chChan := 9, sr := [(1, 9)] }
  s.setCore 9 { s.core 9 with chan := { open_ := true, slot := 0, tid := 9, subs := [(5, 3, 7), (9, 2, 30)] } }
theorem witness_ChannelMembership :
    (W.begun ∧ W.me.role = .single ∧ W.me.chState = 0 ∧ W.myCore.chan.open_ = false) ∧
    ((Ws thr).me.readyS 1 ∧ (Ws thr).me.openS 1 ∧ (Ws thr).me.chState = 0 ∧ ((Ws thr).me.scalar 1).toNat = 9 ∧ coreExists 9 = true ∧
      ((Ws thr).core 9).chan.open_ = true ∧ ((Ws thr).core 9).chan.subs.length < 64 ∧
      ((on { thr with sr := [(1, 9)] }).core 9).chan.open_ = false) ∧
    (let s := Wc { subscriber with chState := 3, wait := .busy 7 (.chsub 4) } { open_ := true, slot := 3, tid := 7, joining := [(9, 2, 30)] } publisher
     s.me.publishes = true ∧ (9, 2) ≠ (s.cur.core, s.cur.slot) ∧ s.myCore.chan.joining = [(9, 2, (s.slot 9 2).tid)] ∧
       s.myCore.chan.subs.length < 64 ∧ (s.slot 9 2).wait = .busy 7 (.chsub 4) ∧ (s.slot 9 2).chState = 3) ∧
    (2 ≤ (Ws { thr with chState := 4 }).me.chState ∧ (Ws { thr with chState := 4 }).me.inStream = false) := by
  simp only [State.begun, Slot.readyS, Slot.openS]; decide +kernel
theorem witness_ChannelPublication :
    let s := Wc subscriber { open_ := true, slot := 3, tid := 7, subs := [(9, 2, 30)] } publisher
    s.begun ∧ s.me.role = .single ∧ s.me.chState = 1 ∧ s.me.trapped = false ∧ s.me.publishes = true ∧ s.myCore.chan.open_ = true ∧
      s.myCore.chan.tid = s.me.tid ∧ s.myCore.chan.slot = s.cur.slot ∧ s.myCore.chan.joining = [] ∧
      s.myCore.chan.subs = [(9, 2, (s.slot 9 2).tid)] ∧ (9, 2) ≠ (s.cur.core, s.cur.slot) ∧ (s.slot 9 2).chState = 2 ∧
      (s.slot 9 2).wait = .run ∧ s.me.readyS 1 ∧ s.me.readyS 2 ∧ s.me.openS 12 := by
  simp only [State.begun, Slot.readyS, Slot.openS]; decide +kernel
/-- A thread outside any channel, a publisher, an attached and a departed subscriber. -/
theorem witness_ChannelDepartures :
    (W.begun ∧ W.untraced ∧ W.me.chState = 0 ∧ W.me.readyS 1 ∧ W.me.scalar 1 ≠ 0 ∧ W.me.readyS 0 ∧ W.me.scalar 0 = 0 ∧ W.me.openS 1) ∧
    (on publisher).me.chState = 1 ∧
    ((Ws { thr with chState := 2 }).me.inStream = true ∧ (Ws { thr with chState := 2 }).me.scalar 1 ≠ 0 ∧
      (Ws { thr with chState := 2 }).begun ∧ (Ws { thr with chState := 2 }).untraced) ∧
    (let s := Ws { thr with chState := 4 }
     s.me.readyS 1 ∧ s.me.openS 1 ∧ s.me.scalar 1 = BitVec.ofNat 64 s.me.chChan ∧ s.me.chChan < 4096 ∧
       (s.core s.me.chChan).chan.open_ = true ∧ (s.cur.core, s.cur.slot, s.me.tid) ∈ (s.core s.me.chChan).chan.subs ∧
       s.unperformed s.me.tid 4 = false) := by
  simp only [State.begun, State.untraced, Slot.readyS, Slot.openS]; decide +kernel
/-- A rendezvous that begins, one whose subscribers have come, one that times out. -/
theorem witness_Rendezvous :
    (W.begun ∧ W.me.publishes = false) ∧
    (let s := Wc subscriber { open_ := true, slot := 3, tid := 7 } publisher
     s.begun ∧ s.me.publishes = true ∧ s.me.rdv = none ∧ s.myCore.chan.subs = []) ∧
    (let s := Wc subscriber { open_ := true, slot := 3, tid := 7, subs := [(9, 2, 30)] } { publisher with rdv := some none }
     s.begun ∧ s.me.publishes = true ∧ s.me.rdv ≠ none ∧ s.rendezvous s.cur.core s.me.pc = true ∧ s.myCore.chan.rejoin = []) ∧
    (let s := Wc subscriber { open_ := true, slot := 3, tid := 7 } { publisher with rdv := some (some 999), wait := .park 7 3 }
     (s.slot 5 3).rdv = some (some 999) ∧ 999 ≤ s.time ∧ (s.slot 5 3).halted = false ∧ (s.slot 5 3).chState = 1 ∧
       (s.core 5).chan.rejoin = []) := by
  simp only [State.begun]; decide +kernel
/-- A bundle. -/
def bun : Bundle := ⟨1, 0x1000, none, false⟩
/-- Core 9's slot 2 as a subscriber of core 5. -/
def Wb2 (u : Slot) : State := Wc u { open_ := true, slot := 3, tid := 7, subs := [(9, 2, 30)] } publisher
theorem witness_ChannelTraffic :
    (∀ n, n ∈ [0, 31] → let s := Wb2 { subscriber with chFly := [bun], chBuf := List.replicate n bun }
      (s.slot 9 2).chFly = [bun] ∧ (s.slot 9 2).chState = 2 ∧ (s.slot 9 2).chBuf.length < 32 ∧ (s.core 5).chan.relock = []) ∧
    (let s := Wb2 { subscriber with chBuf := List.replicate 16 bun }
     16 ≤ (s.slot 9 2).chBuf.length ∧ (s.slot 9 2).chHold = false ∧ (9, 2, 30) ∈ (s.core (s.slot 9 2).chChan).chan.subs) ∧
    (let s := Wb2 { subscriber with chHold := true, chBuf := List.replicate 15 bun }
     (s.slot 9 2).chBuf.length < 16 ∧ (s.slot 9 2).chHold = true) ∧
    (∀ r, r ∈ [4, 5] → (Wb2 { subscriber with chReports := [r] }).slot 9 2 = { subscriber with chReports := [r] } ∧
      (9, 2, 30) ∈ ((Wb2 { subscriber with chReports := [r] }).core 5).chan.subs) ∧
    (dieOf 9 = 0 ∧ dieOf ((Wb2 subscriber).slot 9 2).chChan = 0 ∧ ((Wb2 subscriber).die 0).stepping = none ∧
      (({ Wb2 subscriber with dies := [(0, { stepping := some (1, 777) })] } : State).die 0).stepping.isSome = true) := by decide +kernel

/-! ### Witnesses: scalar memory, batches, mailboxes -/

/-- The own-scratchpad location of an address. -/
def own (va : W64) : Loc := { pa := scratchAddr 5 va.toNat }
/-- The address of a load or store whose immediate is `i` and whose size is `n`. -/
def at_ (n i : Nat) : W64 := BitVec.ofInt 64 ((W.me.scalar 1).toInt + n * (BitVec.ofNat 11 i).toInt)
theorem at_reached : ∀ n, n ∈ [1, 2, 4, 8] → ∀ i, i ∈ [0, 0x3FF, 0x7F8] →
    reached W (at_ n i) n .load (own (at_ n i)) = true ∧ reached W (at_ n i) n .store (own (at_ n i)) = true := by decide +kernel
theorem watch : ∀ n, n ∈ [1, 2, 4, 8] → ∀ i, i ∈ [0, 0x3FF, 0x7F8] →
    W.unwatched (at_ n i) n (.ld true 12) ∧ W.unwatched (at_ n i) n (.ld false 12) ∧
      W.unwatched (at_ n i) n (.st (BitVec.ofNat 64 ((W.me.scalar 2).toNat % 2 ^ (8 * n)))) := by
  simp only [State.unwatched]; decide +kernel
theorem witness_LoadSends : (W.begun ∧ W.free_ ∧ W.me.readyS 1 ∧ W.me.openS 12 ∧ W.outstanding W.me.tid < 16) ∧
    (∀ n, n ∈ [1, 2, 4, 8] → ∀ i, i ∈ [0, 0x3FF, 0x7F8] →
      W.Reaches (at_ n i) n .load (own (at_ n i)) ∧ W.unwatched (at_ n i) n (.ld true 12) ∧ W.unwatched (at_ n i) n (.ld false 12)) := by
  refine ⟨?_, fun n hn i hi => ⟨reaches _ _ _ _ _ (at_reached n hn i hi).1, (watch n hn i hi).1, (watch n hn i hi).2.1⟩⟩
  simp only [State.begun, State.free_, Slot.readyS, Slot.openS]; decide +kernel
theorem witness_StorePosts : (W.begun ∧ W.free_ ∧ W.me.readyS 1 ∧ W.me.readyS 2) ∧
    (∀ n, n ∈ [1, 2, 4, 8] → ∀ i, i ∈ [0, 0x3FF, 0x7F8] →
      W.Reaches (at_ n i) n .store (own (at_ n i)) ∧
      W.unwatched (at_ n i) n (.st (BitVec.ofNat 64 ((W.me.scalar 2).toNat % 2 ^ (8 * n))))) := by
  refine ⟨?_, fun n hn i hi => ⟨reaches _ _ _ _ _ (at_reached n hn i hi).2, (watch n hn i hi).2.2⟩⟩
  simp only [State.begun, State.free_, Slot.readyS]; decide +kernel
/-- Both widths. -/
theorem witness_SynchronisingSends : (W.begun ∧ W.idle ∧ W.me.readyS 1 ∧ W.me.readyS 2 ∧ W.me.openS 2 ∧ hasFe (scratchAddr 5 0x40) = true) ∧
    (∀ n, n ∈ [4, 8] → W.Reaches 0x40 n .atomic (own 0x40) ∧ W.Reaches 0x40 n .load (own 0x40) ∧ W.Reaches 0x40 n .store (own 0x40)) ∧
    (∀ n, n ∈ [4, 8] → ∀ op, op ∈ [FOp.ldSync true 2, .ldSync false 2, .stfe 3, .stff 3, .feclr] → W.unwatched 0x40 n op) ∧
    BitVec.ofInt 64 ((W.me.scalar 1).toInt + (4 : Nat) * (0 : BitVec 8).toInt) = 0x40 := by
  have h : ∀ n, n ∈ [4, 8] → ∀ a, a ∈ [Acc.atomic, .load, .store] → reached W 0x40 n a (own 0x40) = true := by decide +kernel
  refine ⟨?_, fun n hn => ⟨reaches _ _ _ _ _ (h n hn _ (by decide)), reaches _ _ _ _ _ (h n hn _ (by decide)),
    reaches _ _ _ _ _ (h n hn _ (by decide))⟩, ?_, by decide⟩
  · simp only [State.begun, State.idle, Slot.readyS, Slot.openS]; decide +kernel
  · simp only [State.unwatched]; decide +kernel
theorem witness_AtomicSends : (W.begun ∧ W.idle ∧ W.me.readyS 1 ∧ W.me.readyS 2 ∧ W.me.readyS 3 ∧ W.me.scalar 3 = 5 ∧ W.me.openS 3) ∧
    (∀ n, n ∈ [4, 8] → W.Reaches (W.me.scalar 1) n .atomic (own 0x40)) ∧
    (∀ n, n ∈ [4, 8] → ∀ c, c ∈ List.range 11 → ∀ z, z ∈ [0, 5] → W.unwatched (W.me.scalar 1) n (.atom c 3 (W.me.scalar 2) (w64 z))) := by
  have h : ∀ n, n ∈ [4, 8] → reached W (W.me.scalar 1) n .atomic (own 0x40) = true := by decide +kernel
  refine ⟨?_, fun n hn => reaches _ _ _ _ _ (h n hn), ?_⟩
  · simp only [State.begun, State.idle, Slot.readyS, Slot.openS]; decide +kernel
  · simp only [State.unwatched]; decide +kernel
/-- With an access under way and without; a barrier object at the address. -/
def Wfl : State := { W with flights := [acc (scratchAddr 5 0x100) 8 (.ld true 4)] }
theorem witness_BarrierSends :
    (W.begun ∧ (∀ y, y ∈ List.range 8 → W.unperformed W.me.tid y = false) ∧ Wfl.begun ∧ Wfl.unperformed Wfl.me.tid 4 = true) ∧
    (W.idle ∧ W.me.readyS 1 ∧ W.me.readyS 2 ∧ W.me.openS 12 ∧ isScratch (scratchAddr 5 0x40) = true ∧ (W.me.scalar 2).toNat % 2 ^ 16 ≠ 0) ∧
    (W.Reaches (W.me.scalar 1) 16 .store (own 0x40) ∧ W.Reaches (W.me.scalar 1) 16 .load (own 0x40)) ∧
    (∀ op, op ∈ [FOp.barinit 3, .bararr 3, .barwait 3, .barrd 12] → W.unwatched (W.me.scalar 1) 16 op) := by
  refine ⟨?_, ?_, ⟨reaches _ _ _ _ _ (by decide +kernel), reaches _ _ _ _ _ (by decide +kernel)⟩, ?_⟩
  all_goals (simp only [State.begun, State.idle, State.unwatched, Slot.readyS, Slot.openS]; decide +kernel)
/-- Misaligned, beyond bit 56, and beyond the task's four banks. -/
theorem witness_AddressTraps :
    ∀ v, v ∈ [(0x41 : Nat), 0x200000000000000, 0x4000, 0x7FFF8] → let s := on { thr with sr := [(1, w64 v), (2, 3)] }
      s.begun ∧ s.me.evec ≠ 0 ∧ s.untraced ∧ s.me.readyS 1 ∧ s.me.openS 12 ∧ s.me.readyS 2 ∧ s.me.scalar 1 = w64 v ∧
        (s.taskOf s.cur.core s.me.task).banks.length = 4 := by
  simp only [State.begun, State.untraced, Slot.readyS, Slot.openS]; decide +kernel
/-- An access whose turn has come, in memory that holds bytes. -/
def Wx (size : Nat) (op : FOp) (empty : List Nat) : State :=
  mem { W with flights := [acc (scratchAddr 5 0x1240) size op], empty := empty } (scratchAddr 5 0x1240)
    [0x88, 0xF1, 0x92, 0x83, 0x74, 0x65, 0x56, 0xC7, 0x11, 0x22, 0x33, 0x44, 0x55, 0x66, 0x77, 0x99]
/-- Its turn has come, as a Bool. -/
def turnB (s : State) (n : Nat) (f : Flight) : Bool :=
  decide (s.flights.find? (fun g => g.id == n) = some f) && s.mayPerform f && inMemory f.pa && soundB s f.pa f.size &&
    !(s.crossLink (s.linkOf f.core f.pa)).1
theorem turn (s : State) (n : Nat) (f : Flight) (h : turnB s n f = true) : s.Turn n f := by
  simp only [turnB, Bool.and_eq_true, decide_eq_true_eq, Bool.not_eq_true'] at h
  obtain ⟨⟨⟨⟨h1, h2⟩, h3⟩, h4⟩, h5⟩ := h
  exact ⟨h1, h2, h3, sound_of _ _ _ h4, h5⟩
/-- Due, as a Bool. -/
def dueB (s : State) (n : Nat) (f : Flight) : Bool := turnB s n f && s.flights.all fun g => g.order.isNone
theorem due (s : State) (n : Nat) (f : Flight) (h : dueB s n f = true) : s.Due n f := by
  simp only [dueB, Bool.and_eq_true, List.all_eq_true, Option.isNone_iff_eq_none] at h
  exact ⟨turn s n f h.1, h.2⟩
/-- A load and a store of each size. -/
theorem witness_LoadsAndStoresPerform :
    ∀ n, n ∈ [1, 2, 4, 8] → ∀ op, op ∈ [FOp.ld true 12, .ld false 12, .st 0xFEDCBA9876543210, .stff 0xFEDCBA9876543210] →
      (Wx n op []).Due 44 (acc (scratchAddr 5 0x1240) n op) ∧
      (Wx n op []).discards 5 (acc (scratchAddr 5 0x1240) n op).topinf (scratchAddr 5 0x1240) = false ∧ n ≠ 0 := by
  have h : ∀ n, n ∈ [1, 2, 4, 8] → ∀ op, op ∈ [FOp.ld true 12, .ld false 12, .st 0xFEDCBA9876543210, .stff 0xFEDCBA9876543210] →
      dueB (Wx n op []) 44 (acc (scratchAddr 5 0x1240) n op) = true ∧
      (Wx n op []).discards 5 false (scratchAddr 5 0x1240) = false ∧ n ≠ 0 := by decide +kernel
  exact fun n hn op ho => ⟨due _ _ _ (h n hn op ho).1, (h n hn op ho).2⟩
/-- A store under another TOPINF into core 9's bank 4, whose format tapers. -/
def Wdisc : State :=
  let f := { acc (scratchAddr 9 0x4240) 8 (.st 1) with topinf := true }
  { W.setCore 9 { W.core 9 with bfmt := [(4, 6)] } with flights := [f] }
theorem witness_LoadsAndStoresPerform_discard :
    Wdisc.Due 44 { acc (scratchAddr 9 0x4240) 8 (.st 1) with topinf := true } ∧ Wdisc.discards 5 true (scratchAddr 9 0x4240) = true :=
  ⟨due _ _ _ (by decide +kernel), by decide +kernel⟩
/-- Words that are full and words that are empty. -/
theorem witness_SynchronisingPerform :
    ∀ n, n ∈ [4, 8] → ∀ op, op ∈ [FOp.ldSync true 12, .ldSync false 12, .stfe 3, .feclr] →
      ∀ e, e ∈ [[], [scratchAddr 5 0x1240 / 4, scratchAddr 5 0x1244 / 4]] →
      (Wx n op e).Due 44 (acc (scratchAddr 5 0x1240) n op) ∧ (Wx n op e).discards 5 false (scratchAddr 5 0x1240) = false ∧
        scratchAddr 5 0x1240 % n = 0 ∧ hasFe (scratchAddr 5 0x1240) = true ∧
        (Wx n op e).fullAt (scratchAddr 5 0x1240) = e.isEmpty ∧ (Wx n op e).fullAt (scratchAddr 5 0x1244) = e.isEmpty := by
  have h : ∀ n, n ∈ [4, 8] → ∀ op, op ∈ [FOp.ldSync true 12, .ldSync false 12, .stfe 3, .feclr] →
      ∀ e, e ∈ [[], [scratchAddr 5 0x1240 / 4, scratchAddr 5 0x1244 / 4]] →
      dueB (Wx n op e) 44 (acc (scratchAddr 5 0x1240) n op) = true ∧
      (Wx n op e).discards 5 false (scratchAddr 5 0x1240) = false ∧
        scratchAddr 5 0x1240 % n = 0 ∧ hasFe (scratchAddr 5 0x1240) = true ∧
        (Wx n op e).fullAt (scratchAddr 5 0x1240) = e.isEmpty ∧ (Wx n op e).fullAt (scratchAddr 5 0x1244) = e.isEmpty := by decide +kernel
  exact fun n hn op ho e he => ⟨due _ _ _ (h n hn op ho e he).1, (h n hn op ho e he).2⟩
/-- A store to an empty word on which a load that takes (or one that keeps) and then another wait. -/
def Wwc (take keeps : Bool) (op : FOp) : State :=
  let g (n : Nat) (t : Bool) : Flight := { acc (scratchAddr 5 0x1240) 4 (.ldSync t 12) with id := 44 + n, tid := 7 + n, stage := .waiting n false }
  { Wx 4 op [scratchAddr 5 0x1240 / 4] with flights := [acc (scratchAddr 5 0x1240) 4 op, g 1 take, g 2 keeps] }
theorem witness_WakeChains :
    ∀ take, take ∈ [true, false] → ∀ keeps, keeps ∈ [true, false] → ∀ op, op ∈ [FOp.st 9, .stff 9, .feclr] →
      (Wwc take keeps op).Turn 44 (acc (scratchAddr 5 0x1240) 4 op) ∧
      (Wwc take keeps op).discards 5 false (scratchAddr 5 0x1240) = false ∧ hasFe (scratchAddr 5 0x1240) = true ∧
      scratchAddr 5 0x1240 % 4 = 0 ∧ (Wwc take keeps op).flights.map Flight.op = [op, .ldSync take 12, .ldSync keeps 12] ∧
      (Wwc take keeps op).flights.map (fun g => (g.id, g.order)) = [(44, none), (45, some 1), (46, some 2)] ∧
      ((Wwc take keeps op).flights.all fun g => g.pa == scratchAddr 5 0x1240 && g.size == 4) = true := by
  have h : ∀ take, take ∈ [true, false] → ∀ keeps, keeps ∈ [true, false] → ∀ op, op ∈ [FOp.st 9, .stff 9, .feclr] →
      turnB (Wwc take keeps op) 44 (acc (scratchAddr 5 0x1240) 4 op) = true ∧
      (Wwc take keeps op).discards 5 false (scratchAddr 5 0x1240) = false ∧ hasFe (scratchAddr 5 0x1240) = true ∧
      scratchAddr 5 0x1240 % 4 = 0 ∧ (Wwc take keeps op).flights.map Flight.op = [op, .ldSync take 12, .ldSync keeps 12] ∧
      (Wwc take keeps op).flights.map (fun g => (g.id, g.order)) = [(44, none), (45, some 1), (46, some 2)] ∧
      ((Wwc take keeps op).flights.all fun g => g.pa == scratchAddr 5 0x1240 && g.size == 4) = true := by decide +kernel
  exact fun take ht keeps hk op ho => ⟨turn _ _ _ (h take ht keeps hk op ho).1, (h take ht keeps hk op ho).2⟩
theorem witness_AtomicsPerform :
    ∀ n, n ∈ [4, 8] → ∀ c, c ∈ [0, 9] → (Wx n (.atom c 12 5 7) []).Due 44 (acc (scratchAddr 5 0x1240) n (.atom c 12 5 7)) ∧
      (Wx n (.atom c 12 5 7) []).discards 5 false (scratchAddr 5 0x1240) = false := by
  have h : ∀ n, n ∈ [4, 8] → ∀ c, c ∈ [0, 9] →
      dueB (Wx n (.atom c 12 5 7) []) 44 (acc (scratchAddr 5 0x1240) n (.atom c 12 5 7)) = true ∧
      (Wx n (.atom c 12 5 7) []).discards 5 false (scratchAddr 5 0x1240) = false := by decide +kernel
  exact fun n hn c hc => ⟨due _ _ _ (h n hn c hc).1, (h n hn c hc).2⟩
/-- The object holds phase 0xF188, count 0x8392 and 0x6574 arrivals; an arrival of 5 bytes; waits whose phase has passed and has not. -/
theorem witness_BarriersPerform :
    ∀ op, op ∈ [FOp.barinit 3, .bararr 5, .barwait 0xF187, .barwait 0xF188, .barrd 12] → let s := Wx 16 op []
      s.Due 44 (acc (scratchAddr 5 0x1240) 16 op) ∧ s.discards 5 false (scratchAddr 5 0x1240) = false ∧
        5 ≤ (s.barrier (scratchAddr 5 0x1240)).pend ∧ (s.barrier (scratchAddr 5 0x1240)).arrived < 65535 ∧
        (s.barrier (scratchAddr 5 0x1240)).phase = 0xF188 ∧ phasePassed 0xF188 0xF187 = true ∧ phasePassed 0xF188 0xF188 = false := by
  have h : ∀ op, op ∈ [FOp.barinit 3, .bararr 5, .barwait 0xF187, .barwait 0xF188, .barrd 12] →
      dueB (Wx 16 op []) 44 (acc (scratchAddr 5 0x1240) 16 op) = true ∧
        (Wx 16 op []).discards 5 false (scratchAddr 5 0x1240) = false ∧
        5 ≤ ((Wx 16 op []).barrier (scratchAddr 5 0x1240)).pend ∧ ((Wx 16 op []).barrier (scratchAddr 5 0x1240)).arrived < 65535 ∧
        ((Wx 16 op []).barrier (scratchAddr 5 0x1240)).phase = 0xF188 ∧ phasePassed 0xF188 0xF187 = true ∧
        phasePassed 0xF188 0xF188 = false := by decide +kernel
  exact fun op ho => ⟨due _ _ _ (h op ho).1, (h op ho).2⟩
/-- An arrival that is its phase's last, with all its bytes and with some missing. -/
theorem witness_BarriersPerform_last :
    ∀ p, p ∈ [5, 6] → let s := mem (Wx 16 (.bararr 5) []) (scratchAddr 5 0x1240) (natLe 2 9 ++ natLe 2 4 ++ natLe 2 3 ++ natLe 2 0 ++ natLe 4 7 ++ natLe 4 p)
      s.Due 44 (acc (scratchAddr 5 0x1240) 16 (.bararr 5)) ∧ s.discards 5 false (scratchAddr 5 0x1240) = false ∧
        (s.barrier (scratchAddr 5 0x1240)).arrived + 1 = (s.barrier (scratchAddr 5 0x1240)).expect ∧
        (s.barrier (scratchAddr 5 0x1240)).pend = p := by
  have h : ∀ p, p ∈ [5, 6] → let s := mem (Wx 16 (.bararr 5) []) (scratchAddr 5 0x1240) (natLe 2 9 ++ natLe 2 4 ++ natLe 2 3 ++ natLe 2 0 ++ natLe 4 7 ++ natLe 4 p)
      dueB s 44 (acc (scratchAddr 5 0x1240) 16 (.bararr 5)) = true ∧ s.discards 5 false (scratchAddr 5 0x1240) = false ∧
        (s.barrier (scratchAddr 5 0x1240)).arrived + 1 = (s.barrier (scratchAddr 5 0x1240)).expect ∧
        (s.barrier (scratchAddr 5 0x1240)).pend = p := by decide +kernel
  exact fun p hp => ⟨due _ _ _ (h p hp).1, (h p hp).2⟩
/-- R129: an arrival under another TOPINF is no write that R101 discards. -/
theorem test_bararr_topinf :
    let f := { acc (scratchAddr 5 0x1240) 16 (.bararr 5) with topinf := true, core := 9 }
    let s := core5 (Wx 16 (.bararr 5) []) fun x => { x with bfmt := [(1, 6)] }
    s.discards 9 true f.pa = true ∧
      (s.performAt f).barrier f.pa = (s.barrier f.pa).arrive 5 ∧ (s.barrier f.pa).arrive 5 ≠ s.barrier f.pa := by decide +kernel
/-- A value returns to a thread that runs on, and to one that waits for it. -/
def Wv (op : FOp) (w : Wait) : State :=
  { on { thr with wait := w } with flights := [{ acc (scratchAddr 5 0x1240) 8 op with stage := .returning 99 0 false }] }
theorem witness_ValuesReturn :
    ∀ p, p ∈ [(FOp.ld true (12 : BitVec 6).toNat, Wait.run), (.barrd (12 : BitVec 6).toNat, .run), (.atom 0 (12 : BitVec 6).toNat 5 7, .run),
        (.vld (3 : BitVec 5).toNat 2, .run),
        (.ldSync true (12 : BitVec 6).toNat, .busy 4 (.access 44)), (.stfe 3, .busy 4 (.access 44)), (.barwait 8, .busy 8 (.access 44))] →
      let f := { acc (scratchAddr 5 0x1240) 8 p.1 with stage := .returning 99 0 false }
      (Wv p.1 p.2).flights.find? (fun g => g.id == 44) = some f ∧ f.stage = .returning 99 0 false ∧ ((Wv p.1 p.2).slot 5 3).live = true ∧
        ((Wv p.1 p.2).slot 5 3).tid = f.tid ∧ ((Wv p.1 p.2).slot 5 3).role = .single ∧ ((Wv p.1 p.2).slot 5 3).wait = p.2 ∧
        ((Wv p.1 p.2).slot 5 3).isPort 12 = false := by decide +kernel
/-- Another lane of the same load is still to come. -/
theorem witness_ValuesReturn_lane :
    let f := { acc (scratchAddr 5 0x1240) 8 (.vld (3 : BitVec 5).toNat 2) with stage := .returning 99 0 false }
    let s := { Wv f.op .run with flights := [f, { acc (scratchAddr 5 0x1280) 4 (.vld 3 5) with id := 45 }] }
    s.flights.find? (fun g => g.id == 44) = some f ∧ (s.slot 5 3).live = true ∧ (s.slot 5 3).tid = f.tid ∧ (s.slot 5 3).role = .single ∧
      (s.flights.map fun g => (g.id, g.tid, g.op)) = [(44, 7, .vld 3 2), (45, 7, .vld 3 5)] := by decide +kernel
theorem witness_TagsPerform :
    ∀ op, op ∈ [FOp.sptagRead 12, .sptagWrite 0x1234] → (Wx 64 op []).Due 44 (acc (scratchAddr 5 0x1240) 64 op) ∧
      scratchAddr 5 0x1240 % 64 = 0 := by
  have h : ∀ op, op ∈ [FOp.sptagRead 12, .sptagWrite 0x1234] →
      dueB (Wx 64 op []) 44 (acc (scratchAddr 5 0x1240) 64 op) = true := by decide +kernel
  exact fun op ho => ⟨due _ _ _ (h op ho), by decide⟩
/-- Batches: 2, 0, 63 and 64 sealed ones that are unfinished. -/
theorem witness_BatchResults :
    (∀ b, b ∈ [({ openN := 5, done := 3, counts := [(3, 2), (5, 1)] } : Batches), {}, { openN := 63 }] →
      let s := on { thr with bat := b, sr := [(1, 1), (2, 64)] }
      s.begun ∧ (s.me.bat.openN - s.me.bat.done).toNat < 64 ∧ s.me.readyS 1 ∧ s.me.readyS 2 ∧ 64 ≤ (s.me.scalar 2).toNat ∧
        (s.me.scalar 1).toNat < 64) ∧
    (let s := on { thr with bat := { openN := 63, done := 65535 } }
     s.begun ∧ 64 ≤ (s.me.bat.openN - s.me.bat.done).toNat) ∧
    ((1 : Nat) < ((5 : W16) - 3).toNat ∧ look 0 ([(3, 2), (5, 1)] : Map Nat) 3 ≠ 0) := by
  simp only [State.begun, Slot.readyS]; decide +kernel
/-- The thread in slot 15 takes a mail. -/
def Wmb : State :=
  { W with cores := [(5, { slots := [(15, thr), (4, { live := true, tid := 8, task := 2 })], tasks := [(2, { live := true })],
                           mail := [(6, { full := true, words := [1, 2, 3, 4, 5, 6, 7, 8], slot := 4, tid := 8, privS := true, batch := 77 })] })],
           cur := { core := 5, slot := 15 } }
theorem witness_MailResults :
    (∀ a, a ∈ [(0 : Nat), 52] → W.begun ∧ W.idle ∧ W.me.live = true ∧ a + 8 ≤ 60 ∧
      (∀ i, i ∈ List.range 8 → W.me.readyS (BitVec.ofNat 6 (a + i))) ∧ (look {} W.myCore.mail 6).full = false ∧ W.myCore.mailWait = []) ∧
    (∀ a, a ∈ [(1 : Nat), 52] → Wmb.begun ∧ Wmb.idle ∧ Wmb.me.live = true ∧ Wmb.cur.slot = 15 ∧
      (∀ i, i ∈ List.range 8 → Wmb.me.openS (BitVec.ofNat 6 (a + i))) ∧ (look {} Wmb.myCore.mail 6).full = true ∧ 0 < a ∧
      Wmb.myCore.slreq.open_ = false) := by
  simp only [State.begun, State.idle, Slot.readyS, Slot.openS]; decide +kernel

/-! ### Witnesses: vector instructions -/

theorem witness_VectorIntegers : W.begun ∧ W.me.readyV 1 ∧ W.me.readyV 1 ∧ W.me.openV 1 := by
  simp only [State.begun, Slot.readyV, Slot.openV]; decide +kernel
theorem witness_VectorFloats : W.begun ∧ W.me.readyV 1 ∧ W.me.readyV 2 ∧ W.me.openV 31 ∧ W.me.readyV 31 := by
  simp only [State.begun, Slot.readyV, Slot.openV]; decide +kernel
/-- Lanes 0 and 2 complete. -/
theorem witness_VectorFunctions : (W.begun ∧ W.me.readyV 1 ∧ W.me.readyV 2 ∧ W.me.openV 31) ∧
    ((on { thr with wait := .busy 3 (.vdivide (31 : BitVec 5).toNat [(0, 1), (2, 3)] 1) }).slot 5 3).wait =
      .busy 3 (.vdivide (31 : BitVec 5).toNat [(0, 1), (2, 3)] 1) ∧
    ((on { thr with wait := .busy 3 (.vdivide (31 : BitVec 5).toNat [(0, 1), (2, 3)] 1) }).slot 5 3).pops = [] ∧
    (on { thr with wait := .busy 3 (.vdivide (31 : BitVec 5).toNat [(0, 1), (2, 3)] 1) }).noLanding 5 3 = true ∧ ([(0, 1), (2, 3)] : Map W32).map (·.1) = lanesOf 5 := by
  simp only [State.begun, Slot.readyV, Slot.openV]; decide +kernel
/-- A signalling NaN, a quiet NaN, a number. -/
theorem witness_FloatSpecials : isNan 0x7F800001 = true ∧ isSignalling 0x7F800001 = true ∧ isNan 0xFFC00000 = true ∧
    isSignalling 0xFFC00000 = false ∧ isNan 0x7F800000 = false ∧ isNan 0x3F800000 = false := by decide
/-- Operands at the edges of the rows of R244: 1, 2^126 and above, 2^-128, 127 and -149, 128, 9, a negative number. -/
theorem witness_FunctionBounds : isFinite 0x3F800000 ∧ isFinite 0x7E800000 ∧ isFinite 0x7E800001 ∧ isFinite 0x00200000 ∧ isFinite 0x42FE0000 ∧
    isFinite 0xC3150000 ∧ isFinite 0x43000000 ∧ isFinite 0x41100000 ∧ isFinite 0xC1100000 := by simp [isFinite]
theorem witness_FunctionBounds_units : units 0x3F800000 = 2 ^ 149 ∧ units 0x7E800000 = 2 ^ 126 * 2 ^ 149 ∧ 2 ^ 126 * 2 ^ 149 < units 0x7E800001 ∧
    units 0x00200000 = 2 ^ 21 ∧ units 0x42FE0000 = 127 * 2 ^ 149 ∧ units 0xC3150000 = -149 * 2 ^ 149 ∧ units 0x43000000 = 128 * 2 ^ 149 ∧
    units 0x41100000 = 9 * 2 ^ 149 ∧ units 0xC1100000 = -(9 * 2 ^ 149) := by simp [units]
/-- 3, -0.5 and the smallest number are finite; their sum, product and quotient are in range, and 3 has a root. -/
theorem witness_FloatRounding : isFinite 0x40400000 ∧ isFinite 0xBF000000 ∧ isFinite 0x00000001 := by simp [isFinite]
theorem witness_FloatRounding_units : units 0x00000001 = 1 ∧ units 0x40400000 = 3 * 2 ^ 149 ∧ units 0x40400000 ≠ 0 ∧
    0 < units 0x40400000 := by simp [units]
theorem witness_FloatRounding_range : (units 0x40400000 + units 0xBF000000).natAbs ≤ (2 ^ 24 - 1) * 2 ^ 253 * 1 ∧
    (units 0x40400000 * units 0xBF000000).natAbs ≤ (2 ^ 24 - 1) * 2 ^ 253 * 2 ^ 149 ∧
    (units 0x3F800000 * 2 ^ 149).natAbs ≤ (2 ^ 24 - 1) * 2 ^ 253 * (units 0x40400000).natAbs := by simp [units]
theorem witness_CrossLanes : W.begun ∧ W.me.readyV 1 ∧ W.me.readyV 2 ∧ W.me.openV 1 ∧ (2 : BitVec 2).toNat < 3 := by
  simp only [State.begun, Slot.readyV, Slot.openV]; decide +kernel
theorem witness_MovesAndMasks : W.begun ∧ W.me.readyV 1 ∧ W.me.readyV 2 ∧ W.me.openV 1 ∧ W.me.readyS 1 ∧ W.me.openS 1 := by
  simp only [State.begun, Slot.readyS, Slot.openS, Slot.readyV, Slot.openV]; decide +kernel
/-- Checked, as a Bool. -/
def checkedB (s : State) (e : W16) (addr : Nat → W64) (a : Acc) (locs : Nat → Loc) (sent : List Nat) : Bool :=
  decide (sent.Sublist (lanesOf e)) && (lanesOf e).all fun i =>
    (decide (i ∈ sent) && reached s (addr i) 4 a (locs i)) ||
    (decide (i ∉ sent) && bitAt s.me.hlp i && (match s.resolve s.myCtx (addr i) a with | .error (.trap _ _) => true | _ => false))
theorem checked (s : State) (e : W16) (addr : Nat → W64) (a : Acc) (locs : Nat → Loc) (sent : List Nat)
    (h : checkedB s e addr a locs sent = true) : s.Checked e addr a locs sent := by
  simp only [checkedB, Bool.and_eq_true, Bool.or_eq_true, decide_eq_true_eq, List.all_eq_true] at h
  refine ⟨h.1, fun i hi => ?_⟩
  rcases h.2 i hi with ⟨h1, h2⟩ | ⟨⟨h1, h2⟩, h3⟩
  · exact .inl ⟨h1, reaches _ _ _ _ _ h2⟩
  · refine .inr ⟨h1, h2, .inr (.inl ?_)⟩
    split at h3
    · next c st hr => exact ⟨c, st, hr⟩
    · cases h3
/-- Twelve lanes stand in the task's last bank, the helpers beyond it. -/
def Wvm : State := on { thr with act := 0x0FFF, hlp := 0xF000, afB := [(1, 0x3FD0)], afS := [(1, 4)] }
/-- A lane's address. -/
def off (s : State) (i : Nat) : W64 := BitVec.ofInt 64 ((s.me.aff 1).1.toNat + i * (s.me.aff 1).2.toInt + 4 * (0 : BitVec 14).toInt)
/-- A lane's address from v3. -/
def index (s : State) (scale i : Nat) : W64 :=
  BitVec.ofInt 64 ((s.me.aff 1).1.toNat + i * (s.me.aff 1).2.toInt + scale * (s.me.lane 3 i).toInt)
theorem witness_VectorMemory :
    (Wvm.begun ∧ Wvm.free_ ∧ Wvm.me.openV 1 ∧ Wvm.me.readyV 1 ∧ Wvm.me.readyV 3 ∧ Wvm.outstanding Wvm.me.tid < 16 ∧
      Wvm.me.act ||| Wvm.me.hlp = 0xFFFF) ∧
    (∀ p, p ∈ [(W, List.range 16), (Wvm, List.range 12)] → ∀ n, n ∈ [0, 1, 4] →
      let addr := if n = 0 then off p.1 else index p.1 n
      p.1.Checked 0xFFFF addr .load (fun i => own (addr i)) p.2 ∧ p.1.Checked 0xFFFF addr .store (fun i => own (addr i)) p.2 ∧
        (∀ i, i ∈ p.2 → p.1.unwatched (addr i) 4 (.vld 1 i) ∧ p.1.unwatched (addr i) 4 (.st ((p.1.me.lane 1 i).setWidth 64)))) := by
  have h : ∀ p, p ∈ [(W, List.range 16), (Wvm, List.range 12)] → ∀ n, n ∈ [0, 1, 4] →
      let addr := if n = 0 then off p.1 else index p.1 n
      (checkedB p.1 0xFFFF addr .load (fun i => own (addr i)) p.2 = true ∧ checkedB p.1 0xFFFF addr .store (fun i => own (addr i)) p.2 = true) ∧
        (∀ i, i ∈ p.2 → p.1.unwatched (addr i) 4 (.vld 1 i) ∧ p.1.unwatched (addr i) 4 (.st ((p.1.me.lane 1 i).setWidth 64))) := by
    simp only [State.unwatched]; decide +kernel
  refine ⟨?_, fun p hp n hn => ⟨checked _ _ _ _ _ _ (h p hp n hn).1.1, checked _ _ _ _ _ _ (h p hp n hn).1.2, (h p hp n hn).2⟩⟩
  simp only [State.begun, State.free_, Slot.readyV, Slot.openV]; decide +kernel
/-- Lane 0 is aligned and lane 1 is not. -/
def Wvt : State := on { thr with afB := [(1, 0x1000)], afS := [(1, 2)] }
theorem witness_VectorTraps :
    (Wvt.begun ∧ Wvt.untraced ∧ Wvt.me.evec ≠ 0 ∧ Wvt.me.openV 1 ∧ Wvt.me.readyV 1 ∧ Wvt.me.readyV 3) ∧
    (bitAt (Wvt.me.act ||| Wvt.me.hlp) 1 = true ∧ bitAt Wvt.me.hlp 1 = false) ∧
    (∀ addr, addr ∈ [off Wvt, index Wvt 1, index Wvt 4] → (addr 1).toNat % 4 ≠ 0 ∧ addr 0 = 0x1000) ∧
    Wvt.Reaches 0x1000 4 .load (own 0x1000) ∧ Wvt.Reaches 0x1000 4 .store (own 0x1000) := by
  refine ⟨?_, by decide +kernel, by decide +kernel, reaches _ _ _ _ _ (by decide +kernel), reaches _ _ _ _ _ (by decide +kernel)⟩
  simp only [State.begun, State.untraced, Slot.readyV, Slot.openV]; decide +kernel

/-! ### Witnesses: the matrix engine and the pattern generator -/

theorem okay {ε α : Type} (x : Except ε α) (h : x.toBool = true) : ∃ l, x = .ok l := by
  cases x with
  | error _ => cases h
  | ok l => exact ⟨l, rfl⟩
/-- A tile's shape. -/
def ts (fmt cols rows : Nat) : W64 := w64 (fmt * 2 ^ 28 + cols * 2 ^ 16 + rows * 2 ^ 8)
/-- An accumulator's shape. -/
def as_ (cols rows int : Nat) : W64 := w64 (cols * 2 ^ 16 + rows * 2 ^ 8 + int)
/-- MXCFG: tiles 0 and 2, accumulator 1, K = 12, M = 9, N = 8. -/
def cfg (trb zacc : Nat) : W64 := w64 (2 * 16 + 256 + 12 * 2 ^ 16 + 9 * 2 ^ 24 + 8 * 2 ^ 32 + trb * 2 ^ 41 + zacc * 2 ^ 42)
/-- Rows at 0x100, 0x48 apart; tile 2 is an FP32 tile of 4 rows and 10 columns, tile 1 one of 64 rows and 32 columns, accumulator 1 has 7 rows. -/
def Wmx : State :=
  core5 (on { thr with sr := [(1, 0x100), (2, 0x48), (3, 0x1C41C4)], tsh := [(2, ts 1 10 4)], ash := [(1, as_ 7 7 1)] })
    fun x => { x with tshape := [(2, ts 1 10 4), (1, ts 1 32 64)], ashape := [(1, as_ 7 7 0)], bfmt := [(0, 6)] }
theorem witness_MatrixIssues :
    (Wmx.begun ∧ Wmx.mayCommand ∧ Wmx.me.readyS 1 ∧ Wmx.me.readyS 2 ∧ Wmx.me.readyS 3 ∧ Wmx.me.openS 12 ∧ Wmx.outstanding Wmx.me.tid < 16) ∧
    ((Wmx.taskOf 5 2).tiles[2]? = some 2 ∧ (Wmx.taskOf 5 2).tiles[1]? = some 1 ∧ (Wmx.taskOf 5 2).accs[1]? = some 1) ∧
    (tshapeOk (look 0 Wmx.me.tsh 2) = true ∧ tsRows (ts 1 10 4) = 4 ∧ rowBytes (tsFmt (ts 1 10 4)) (tsCols (ts 1 10 4)) = 40 ∧
      ∃ l, Wmx.engineRows Wmx.myCtx (rowAddrs 0x100 0x48 4) 40 = .ok l) ∧
    (tsFmt (ts 1 10 4) ≠ .raw ∧ tsFmt (ts 1 10 4) = .fp32 ∧ (Fmt.ofCode 6).tapered = true ∧ rowBytes (Fmt.ofCode 6) 10 = 10 ∧
      (∃ l, Wmx.engineRows Wmx.myCtx (rowAddrs 0x100 0x48 1) 1 = .ok l) ∧ bfmtFmt (Wmx.bfmtAt (scratchAddr 5 0x100)) = Fmt.ofCode 6 ∧
      (∃ l, Wmx.engineRows Wmx.myCtx (rowAddrs 0x100 0x48 4) 10 = .ok l) ∧
      (match Wmx.engineRows Wmx.myCtx (rowAddrs 0x100 0x48 1) 1 with | .ok [p] => decide (p.pa = scratchAddr 5 0x100) | _ => false) = true ∧
      (match Wmx.engineRows Wmx.myCtx (rowAddrs 0x100 0x48 4) 10 with | .ok l => Wmx.quantBanks (Fmt.ofCode 6) l | _ => false) = true) ∧
    (tsFmt (ts 1 32 64) = .fp32 ∧ tsCols (ts 1 32 64) % 2 ^ 5 = 0 ∧ tsRows (ts 1 32 64) % 2 ^ 6 = 0) ∧
    (ashapeOk (look 0 Wmx.me.ash 1) = true ∧ Wmx.myCore.accLocked 1 = false ∧ asRows (as_ 7 7 0) = 7 ∧ asCols (as_ 7 7 0) = 7 ∧
      (∃ l, Wmx.engineRows Wmx.myCtx (rowAddrs 0x100 0x48 7) (4 * 7) = .ok l)) ∧
    (∀ e, e ∈ [0, 48] → e % 2 = 0 ∧ e < asRows (as_ 7 7 0) * asCols (as_ 7 7 0)) ∧
    ((∀ i, i < 4 → recOpOk ((Wmx.me.scalar 3).toNat / 2 ^ (12 * i) % 2 ^ 12) = true) ∧ (Wmx.me.scalar 3).toNat < 2 ^ 48) := by
  refine ⟨?_, by decide +kernel, ⟨by decide +kernel, by decide, by decide +kernel, okay _ (by decide +kernel)⟩,
    ⟨by decide +kernel, by decide +kernel, by decide +kernel, by decide +kernel, okay _ (by decide +kernel), by decide +kernel,
      okay _ (by decide +kernel), by decide +kernel, by decide +kernel⟩, by decide +kernel,
    ⟨by decide +kernel, by decide +kernel, by decide, by decide, okay _ (by decide +kernel)⟩, by decide +kernel, by decide +kernel⟩
  simp only [State.begun, State.mayCommand, State.free_, Slot.readyS, Slot.openS]; decide +kernel
/-- Patterns: one whose ranks are computed, one with a registered table, one for the completions. -/
def patA : PSlot := { code := [0x04040421, 0x2C000000], inv := true, r := 40, c := 40 }
def patB : PSlot := { code := [0x1500004D, 0x2C000000], inv := false, r := 20, c := 24, tab := true, tc0 := 4, tw := 9, tv := true, addr := 0x200 }
/-- A product of 16 × 16 tiles of format `fmt`, with column origin `o` in s1. -/
def Wpr (fmt int zacc : Nat) (p : PSlot) (o : W64) : State :=
  core5 (on { thr with sr := [(1, o)], mxcfg := cfg 1 zacc, ash := [(1, as_ 20 20 int)] })
    fun x => { x with tshape := [(0, ts fmt 16 16), (2, ts fmt 16 16)], ashape := [(1, as_ 16 16 int)], pslots := [(0, p)] }
theorem witness_ProductIssues :
    (∀ z, z ∈ [0, 1] → ∀ p, p ∈ [(4, 1), (1, 0)] → let s := Wpr p.1 p.2 z patA 7
      let sh := ts p.1 16 16
      let c := if z = 1 then as_ 20 20 p.2 else as_ 16 16 p.2
      s.begun ∧ s.mayCommand ∧ (s.taskOf 5 2).tiles[s.me.mxcfg.toNat % 8]? = some 0 ∧
        (s.taskOf 5 2).tiles[s.me.mxcfg.toNat / 2 ^ 4 % 8]? = some 2 ∧ (s.taskOf 5 2).accs[s.me.mxcfg.toNat / 2 ^ 8 % 4]? = some 1 ∧
        (cfgZacc s.me.mxcfg = true → ashapeOk (look 0 s.me.ash 1) = true) ∧ (p.1 = 4 → comboOk (tsFmt sh) (tsFmt sh) (asInt c) = true) ∧
        1 ≤ cfgM s.me.mxcfg ∧ 1 ≤ cfgN s.me.mxcfg ∧ 1 ≤ cfgK s.me.mxcfg ∧ cfgK s.me.mxcfg ≤ kMax (tsFmt sh) ∧ cfgK s.me.mxcfg ≤ 64 ∧
        holds sh (cfgTrb s.me.mxcfg) (cfgK s.me.mxcfg) (cfgN s.me.mxcfg) = true ∧ cfgM s.me.mxcfg ≤ asRows c ∧ cfgN s.me.mxcfg ≤ asCols c ∧
        holds sh (cfgTra s.me.mxcfg) (cfgM s.me.mxcfg) (cfgK s.me.mxcfg) = true ∧ cfgTra s.me.mxcfg = false) ∧
    (tsFmt (ts 1 16 16) = .fp32 ∧ asInt (as_ 16 16 0) = false) ∧
    (∀ p, p ∈ [(patA, 7), (patB, 0x40000)] → let s := Wpr 4 1 0 p.1 (w64 p.2)
      s.me.readyS 1 ∧ s.patSlot 5 2 0 = some 0 ∧ (p.1.prog.all fun g => decide (p.2 % 2 ^ 16 + 12 ≤ g.r) && decide (p.2 / 2 ^ 16 + 12 ≤ g.c)) = true ∧
        p.1.prog.isSome = true ∧ (p.1.inv = true ∨ p.1.rankFail (p.2 / 2 ^ 16) 9 = none)) ∧
    (∃ l, (Wpr 4 1 0 patB 0x40000).tableRows (Wpr 4 1 0 patB 0x40000).myCtx patB = .ok l) := by
  refine ⟨?_, by decide +kernel, ?_, okay _ (by decide +kernel)⟩
  all_goals (simp only [State.begun, State.mayCommand, State.free_, Slot.readyS]; decide +kernel)
theorem witness_CollectiveTraps : (on { thr with act := 0x0FFF }).begun ∧ (on { thr with act := 0x0FFF }).untraced ∧
    (on { thr with act := 0x0FFF }).me.evec ≠ 0 ∧ (on { thr with act := 0x0FFF }).me.act ≠ 0xFFFF := by
  simp only [State.begun, State.untraced]; decide +kernel
/-- A command of the thread behind one of another thread, with an error in a tile that it does not read. -/
def Wmc (q : MxCmd) : State :=
  core5 W fun x => { x with mx := [{ mxNew .accst with id := 9, slot := 4, tid := 8, task := 2, ta := 7, acc := 3 }, q],
                            engErr := [(4096 * 5 + 3, true)] }
/-- The thread's command. -/
def cmd (k : MxKind) : MxCmd :=
  { mxNew k with id := 44, slot := 3, tid := 7, task := 2, cfg := cfg 1 0, ta := 0, tb := 2, acc := 1, shA := ts 1 16 16, shB := ts 1 16 16,
                 shC := as_ 16 16 0, data := [(0, 5), (8191, 7)], d := 12 }
/-- It may end. -/
def endsB (q : MxCmd) : Bool :=
  let s := Wmc q
  (s.core 5).mxCmd 44 == some q && (q.flights.all fun i => s.flights.all fun f => f.id != i) && (s.core 5).mxClear q &&
    (!q.flights.isEmpty || s.hasPath 5 q) && !q.poison &&
    ((s.core 5).engErr.all fun e => !q.reads.contains (e.1 / 4096)) && (s.slot 5 3).role == .single &&
    (s.slot 5 3).live && (s.slot 5 3).tid == q.tid && q.slot == 3
theorem witness_MatrixCompletes :
    (∀ k, k ∈ [MxKind.tld, .tst, .tzero, .tquant, .accst, .acczero, .accrd, .mma, .spmma, .spmmat, .mxrun, .had] →
      endsB (cmd k) = true ∧ endsB { cmd k with flights := [77] } = true ∧ dimsOk (cmd k) 64 = true ∧ ashapeOk (cmd k).shC = true) ∧
    (∀ k, k ∈ [MxKind.mma, .spmma, .spmmat] → let q := { cmd k with shC := as_ 16 16 1 }
      endsB q = true ∧ dimsOk q 64 = true ∧ ashapeOk q.shC = true ∧ asInt q.shC = true ∧ asInt (cmd k).shC = false) ∧
    (∀ d, d ∈ [0, 1] → let q := { cmd .had with op2 := 4, d := d }
      endsB q = true ∧ tshapeOk q.shA = true ∧ tsFmt q.shA = .fp32 ∧ q.op2.toNat = 4 ∧ tsCols q.shA % 2 ^ 4 = 0 ∧ tsRows q.shA % 2 ^ 4 = 0) ∧
    (∀ i, i ∈ [0, 255] → let q := { cmd .accrd with op1 := w64 i }
      endsB q = true ∧ (Wmc q).accReady 5 q = true ∧ q.d = (12 : BitVec 6).toNat ∧ ((Wmc q).slot 5 3).isPort (12 : BitVec 6).toNat = false) ∧
    (∀ e, e ∈ ([(0, 5), (8191, 7)] : Map Byte) → e.1 < 8192) ∧ ([(0, 5), (8191, 7)] : Map Byte).Pairwise (fun a b => a.1 < b.1) := by
  decide +kernel
/-- A command that waits for the scale of the tile. -/
theorem witness_MatrixCompletes_scale :
    let z : MxCmd := { mxNew .mma with id := 50, slot := 4, tid := 8, task := 2, ta := 0, tb := 3 }
    ∀ k, k ∈ [MxKind.tld, .tzero] →
      let s := core5 (Wmc (cmd k)) fun x => { x with mx := x.mx ++ [z] }
      ((s.core 5).mx.map MxCmd.id).Nodup ∧ (s.core 5).mx.drop 1 = [cmd k, z] ∧ (s.core 5).mxClear (cmd k) = true ∧
        z.scales (cmd k).ta = false ∧ z.ta = (cmd k).ta ∧ z.scA = none := by decide +kernel
/-- Sums of a finite accumulator and two products, and of a block of two values. -/
theorem witness_EngineRounding :
    isFinite 0x3F800000 ∧
    (∀ p, p ∈ [(((false, 3, 0), (true, 5, -1)) : (Bool × Nat × Int) × (Bool × Nat × Int)), ((true, 1, -140), (false, 1, 2))] →
      0 ≤ p.1.2.2 + p.2.2.2 + 0 + 149 + (0 : Nat)) ∧
    (∀ x, x ∈ [((false, 3, 0) : Bool × Nat × Int), (true, 1, 2)] → 0 ≤ x.2.2 - ((1 / 2 : Nat) : Int) + 149 + (0 : Nat)) ∧
    [((false, 3, 0) : Bool × Nat × Int), (true, 1, 2)].length = 2 ^ 1 := by
  refine ⟨by simp [isFinite], ?_⟩
  decide
theorem witness_PatternQueues : (W.begun ∧ W.free_ ∧ W.me.readyS 1 ∧ W.me.readyS 2 ∧ W.me.openS 12) ∧
    (∀ p, p ∈ [0, 1] → (W.patSlot W.cur.core W.me.task p).isSome = true) ∧
    bitAt W.me.vAwait 30 = false ∧ bitAt W.me.vAwait 31 = false := by
  simp only [State.begun, State.free_, Slot.readyS, Slot.openS]; decide +kernel
/-- The generator's queue holds `q`; slot 1 holds `p`; `words` stand at 0x140 of the scratchpad. -/
def Wpg (p : PSlot) (q : PgCmd) (words : List Nat) : State :=
  mem (core5 (on { thr with wait := .busy 3 (.pattern 44) }) fun x => { x with pslots := [(1, p)], pg := [q] })
    (scratchAddr 5 0x140) (words.flatMap (natLe 4))
/-- The thread's pattern command. -/
def pcmd (k : PgKind) (x y n : Nat) (sent : Bool) : PgCmd :=
  { id := 44, kind := k, slot := 3, tid := 7, task := 2, p := 1, op1 := w64 x, op2 := w64 y, n := n, d := 12, sent := sent }
/-- The command has read `l`, from row 0 on. -/
def got (q : PgCmd) (l : List Nat) : PgCmd := { q with words := (List.range l.length).zip l }
/-- The double words of a PSREST image of an empty slot; of the slot `patA`, and of `patB` with its table. -/
def emptyImage : List Nat := List.replicate 16 0 ++ [2 ^ 56] ++ List.replicate 15 0
def imageA : List Nat := [0x2C00000004040421] ++ List.replicate 15 0 ++ [2 ^ 56 + 2 * 2 ^ 16 + 2 ^ 10 + 2 ^ 8, 40 + 40 * 2 ^ 16] ++ List.replicate 14 0
def imageB : List Nat := [0x2C0000001500004D] ++ List.replicate 15 0 ++
  [2 ^ 56 + 2 * 2 ^ 16 + 2 ^ 9, 20 + 24 * 2 ^ 16, 3 + 5 * 2 ^ 16, 7 + 4 * 2 ^ 32 + 9 * 2 ^ 48, 0x200] ++ List.replicate 11 0
/-- The places that a command of `n` words of `len` bytes at `v` reads. -/
def rowsAt (s : State) (v n len : Nat) : Except (Nat × Nat) (List Piece) :=
  s.engineRows (s.ctxOf 5 3) ((List.range n).map fun j => (j, (w64 v + BitVec.ofNat 64 (len * j)).toNat)) len
theorem witness_PatternCompletes :
    (∀ p, p ∈ [patA, patB, { patA with mode := true, row := 3, col := 39, rank := 7 }, { patA with done := true }] →
      ∀ q, q ∈ [pcmd .psgen 30 0 1 false, pcmd .psgen 30 0 16 false,
        { pcmd .psgen 0 0 16 true with trans := true }, pcmd .pschk 0 0x130013 0 true, pcmd .prank 0x200 0x90004 0 true,
        pcmd .prank 0x200 0x90004 0 false, pcmd .pssave 0x240 0 0 true, pcmd .pssave 0x240 0 0 false,
        got (pcmd .psld 0x140 0x140014 0 false) [0x04040421, 0x2C000000], got (pcmd .psrest 0x140 0 0 true) emptyImage] → let s := Wpg p q []
      (s.core 5).pg = [q] ∧ q.flights = [] ∧ q.reads = [] ∧ s.patSlot 5 q.task q.p = some 1 ∧ (s.slot 5 q.slot).role = .single ∧
        look {} (s.core 5).pslots 1 = p ∧ (s.slot 5 q.slot).isPort q.d = false ∧ p.prog.isSome = true) ∧
    (patA.inv = true ∧ (patA.prog.all fun g => decide (4 + 9 ≤ g.c) && g.keep 3 4) = true ∧
      (patB.prog.all fun g => decide (4 + 9 ≤ g.c) && decide (g.keptDown ≠ [])) = true) ∧
    (let p := { patB with tc0 := 0, tw := 24 }
     (p.prog.any fun g => decide (p.tw = g.c) && g.kept.length < 20 * 24) = true ∧
       ∃ l, (Wpg p (pcmd .pschk 0 0 0 false) []).tableRows ((Wpg p (pcmd .pschk 0 0 0 false) []).ctxOf 5 3) p = .ok l) ∧
    (match patLoad [0x04040421, 0x2C000000] none 0x140014 with | .ok e => e.2 == 2 && e.1.p.inv | .error _ => false) = true ∧
    (∃ l, rowsAt (Wpg patB (pcmd .prank 0x200 0x90004 0 false) []) 0x200 20 4 = .ok l) ∧
    (∃ l, rowsAt (Wpg patA (pcmd .pssave 0x240 0 0 false) []) 0x240 32 8 = .ok l) := by
  refine ⟨by decide +kernel, by decide +kernel, ⟨by decide +kernel, okay _ (by decide +kernel)⟩, by decide +kernel,
    okay _ (by decide +kernel), okay _ (by decide +kernel)⟩
/-- Images that pass the checks of R296: of an invertible program, and of one with a registered table. -/
theorem witness_PatternCompletes_image :
    ∀ p, p ∈ [(emptyImage, 0, false), (imageA, 2, false), (imageB, 2, true)] → let q := got (pcmd .psrest 0x140 0 0 true) p.1
      let dw (i : Nat) : Nat := look 0 q.words i % 2 ^ 64
      let field (i lo n : Nat) : Nat := dw i / 2 ^ lo % 2 ^ n
      let words : List Nat := (List.range 32).map fun i => field (i / 2) (32 * (i % 2)) 32
      q.sent = true ∧ field 16 56 8 = 1 ∧ field 16 16 8 = p.2.1 ∧ (dw 16).testBit 9 = p.2.2 ∧
        (p.2.1 ≠ 0 → (match patLoad words (some p.2.1) (BitVec.ofNat 64 (dw 17)) with | .ok e => e.2 == p.2.1 | .error _ => false) = true) ∧
        field 18 0 16 ≤ field 17 0 16 ∧ field 18 16 16 ≤ field 17 16 16 ∧
        (p.2.2 = true → 1 ≤ field 19 48 16 ∧ field 19 32 16 + field 19 48 16 ≤ field 17 16 16) := by decide +kernel
/-- Words of two homes still to be read; commands that are yet to name what they read; the first words of a program. -/
theorem witness_PatternReads :
    (let l : List Piece := [⟨0, 0, 4, 0x200, scratchAddr 5 0x200, none⟩, ⟨7, 0, 4, 0x21C, scratchAddr 5 0x21C, none⟩,
       ⟨9, 0, 4, 0x10000224, scratchAddr 9 0x4224, some 0⟩]
     let q := { pcmd .pschk 0 0x130013 0 true with reads := l }
     let s := Wpg patB q []
     (s.core 5).pg = [q] ∧ q.flights = [] ∧ s.patSlot 5 q.task q.p = some 1 ∧
       (q.reads.find? fun w => s.pieceReady 5 q.tid q.id (q.reads.filter fun z => s.homeOf z.pa == s.homeOf w.pa)) = l[0]? ∧
       (l.all fun z => soundB s z.pa z.len) = true) ∧
    (let p := { patB with tc0 := 0, tw := 24, mode := true }
     let q := { pcmd .psgen 0 0 16 false with trans := true }
     let s := Wpg p q []
     p.inv = false ∧ p.tab = true ∧ p.done = false ∧ (p.prog.any fun g => decide (p.tw = g.c) && decide (g.keptDown ≠ []) && g.kept.any fun z => z.1 < 20) = true ∧
       ∃ l, s.tableRows (s.ctxOf 5 3) p = .ok l) ∧
    (∃ l, rowsAt (Wpg patA (pcmd .psrest 0x140 0 0 false) []) 0x140 32 8 = .ok l) ∧
    (let q := pcmd .psld 0x140 0x140014 0 false
     let s := Wpg patA q [0x04040421, 0x2C000000]
     psldAt (q.words.map Prod.snd) 0 0 = (0, 0, false) ∧ (s.engineByte (s.ctxOf 5 3) 0x140).toBool = true ∧
       (match s.psldHome (s.ctxOf 5 3) q (some 5) 32 0 0 with | .ok l => l.all (fun z => soundB s z.pa z.len) && l.length == 2 | .error _ => false) = true) := by
  refine ⟨by decide +kernel, ⟨by decide +kernel, by decide +kernel, by decide +kernel, by decide +kernel, okay _ (by decide +kernel)⟩,
    okay _ (by decide +kernel), by decide +kernel⟩
/-- An empty slot, one without its table, one whose table covers part of the columns, images of another version and too long. -/
theorem witness_PatternFailures :
    (∀ p, p ∈ [{}, { patB with tab := false }, patB] → ∀ q, q ∈ [pcmd .psgen 30 0 1 false, { pcmd .psgen 30 0 16 false with trans := true },
        pcmd .pschk 0 0x130013 0 false, pcmd .prank 0x200 0x90004 0 false] → let s := Wpg p q []
      (s.core 5).pg = [q] ∧ q.flights = [] ∧ q.reads = [] ∧ s.patSlot 5 q.task q.p = some 1 ∧ (s.slot 5 q.slot).role = .single ∧
        (s.slot 5 q.slot).evec ≠ 0 ∧ bitAt (s.core 5).dbg.btbase 0 = false ∧ look {} (s.core 5).pslots 1 = p) ∧
    (({} : PSlot).prog = none ∧ patB.prog.isSome = true ∧ patB.inv = false ∧ patB.tab = true ∧ patB.tc0 ≠ 0) ∧
    (let dw (l : List Nat) : Nat := look 0 (got (pcmd .psrest 0x140 0 0 true) l).words 16 % 2 ^ 64
     dw (List.replicate 32 0) / 2 ^ 56 % 2 ^ 8 ≠ 1 ∧
       (let l := List.replicate 16 0 ++ [2 ^ 56 + 33 * 2 ^ 16]
        dw l / 2 ^ 56 % 2 ^ 8 = 1 ∧ 32 < dw l / 2 ^ 16 % 2 ^ 8)) := by decide +kernel

/-! ### Witnesses: the sluice, reduction groups, weirs -/

/-- A command of slot 3's or slot 4's thread. -/
def sc (num slot : Nat) : SlCmd :=
  { uid := num, num := num, cmd := 4, fl := 1, slot := slot, tid := if slot = 3 then 7 else 8, task := 2, batch := 0, privS := false, op1 := 0x100, op2 := 0,
    desc := [(1, 2), (2, 0x40), (7, 0xABCDEF0123456789)], root := 0, asp := 0, srcfg := 0, srbase := 0, time := 0 }
/-- The sluice thread runs in slot 15; its requester is slot 3's thread; s1 and s3 are `a` and 0x8. -/
def Wsl (priv : Bool) (a : W64) (r : Slot) (l : List SlCmd) : State :=
  let s := (on r).setSlot 5 15 { thr with tid := 15, sr := [(1, a), (2, 0x48), (3, 8)] }
  let s := s.setCore 5 { s.core 5 with slcmds := l, slreq := { slot := 3, tid := 7, open_ := true, batch := 9, privS := priv } }
  { s with cur := { core := 5, slot := 15, word := 0x12345678 } }
theorem witness_SluiceIssues :
    let s := Wsl false 0x100 thr [sc 7 3, sc 8 4]
    s.begun ∧ s.free_ ∧ s.cur.slot = 15 ∧ s.me.readyS 1 ∧ s.me.readyS 2 ∧ s.myCore.slcmds.length < 8 ∧
      (∀ p, p ∈ s.myCore.slcmds → p.uid ≠ s.nextId) ∧ (s.group (0x100 % 64)).away = [] ∧ (s.requester 5).live = true ∧
      (s.slot 5 (s.requester 5).slot).quiesced = false ∧ (s.slot 5 (s.requester 5).slot).wait ≠ .dumping := by
  simp only [State.begun, State.free_, Slot.readyS]; decide +kernel
theorem witness_SluiceOutside : W.begun ∧ W.untraced ∧ W.me.evec ≠ 0 ∧ W.cur.slot ≠ 15 := by
  simp only [State.begun, State.untraced]; decide +kernel
/-- A state with an image of slot 3's commands at 0x140, as SLQUIESCE writes it. -/
def Wim : State :=
  mem (Wsl true 0x140 { thr with quiesced := true } []) (scratchAddr 5 0x140) (((Wsl true 0 thr [sc 7 3]).slStop 5 8).slImage 5 8)
/-- A stopped command, number 0x40. -/
def stopped : SlCmd := { sc 0x40 3 with stopped := true }
/-- A request that may, a request that may not. -/
theorem witness_QuiesceResults :
    (∀ p, p ∈ [true, false] → let s := Wsl p 0x140 thr [sc 7 3, sc 8 4]
      s.begun ∧ s.free_ ∧ s.cur.slot = 15 ∧ s.me.readyS 1 ∧ s.me.readyS 3 ∧ s.me.openS 12 ∧ (s.requester 5).live = true ∧
        s.me.privS = true ∧ s.myCore.slreq.open_ = true ∧ s.myCore.slreq.privS = p ∧
        (s.slot 5 (s.requester 5).slot).bat.failed = false ∧ (s.myCore.slcmds.map (·.num)).Nodup ∧
        (s.myCore.slcmds.map (·.uid)).Nodup ∧ (∀ q, q ∈ s.myCore.slcmds → q.pend = []) ∧ s.flights = [] ∧
        (s.me.scalar 1).toNat % 64 = 0) ∧
    (let s := Wsl true 0x140 thr [sc 7 3, sc 8 4]
     (match (s.slStop 5 8).imageLines 5 (s.requester 5) 0x140 ((s.slStop 5 8).slImage 5 8).length .store with
      | .ok l => l.all fun z => (s.slStop 5 8).present z.pa && (s.slStop 5 8).homeOpen 5 z.pa
      | .error _ => false) = true) := by
  refine ⟨?_, by decide +kernel⟩
  simp only [State.begun, State.free_, Slot.readyS, Slot.openS]; decide +kernel
/-- A stopped command of slot 3, and an image of one command. -/
theorem witness_QuiesceResults_resume :
    (let q := stopped
     let s := Wsl true 0x140 thr [q]
     q ∈ s.myCore.slcmds ∧ q.stopped = true ∧ q.num = (s.me.scalar 1).toNat % 256 ∧ q.cmd < 6 ∧ (s.slot 5 q.slot).wait ≠ .dumping ∧
       (s.myCore.slcmds.map (·.num)).Nodup ∧ (s.myCore.slcmds.map (·.uid)).Nodup ∧
       (s.slot 5 q.slot).live = true ∧ (s.slot 5 q.slot).task = q.task) ∧
    (Wim.begun ∧ Wim.free_ ∧ Wim.cur.slot = 15 ∧ Wim.me.readyS 1 ∧ Wim.me.readyS 3 ∧ Wim.me.openS 12 ∧ (Wim.requester 5).live = true ∧
      Wim.me.privS = true ∧ Wim.myCore.slreq.privS = true ∧ Wim.myCore.slMail = [] ∧ Wim.myCore.slGone = [] ∧ (Wim.me.scalar 1).toNat = 0x140 ∧
      Wim.present (scratchAddr 5 0x140) = true ∧ Wim.homeOpen 5 (scratchAddr 5 0x140) = true ∧ Wim.myCore.slcmds.length + 1 ≤ 8 ∧
      (match Wim.imageLines 5 (Wim.requester 5) 0x140 64 .load with
       | .ok [h] => decide (h.pa = scratchAddr 5 0x140) && imageOk (Wim.readImage 5 2 [h]).1 &&
           decide (fieldAt (Wim.readImage 5 2 [h]).1 2 2 = 0) && decide (fieldAt (Wim.readImage 5 2 [h]).1 0 2 = 1)
       | _ => false) = true ∧
      (match Wim.imageLines 5 (Wim.requester 5) 0x140 (16 + 96 * 1) .load with
       | .ok l => (l.all fun z => Wim.present z.pa && Wim.homeOpen 5 z.pa) && Nat.testBit (fieldAt (Wim.readImage 5 (2 + 12 * 1) l).1 4 2) 3
       | .error _ => false) = true) := by
  refine ⟨by decide +kernel, ?_⟩
  simp only [State.begun, State.free_, Slot.readyS, Slot.openS]; decide +kernel
/-- The core's oldest command, in memory that holds bytes. -/
def Wss (q : SlCmd) : State :=
  mem (core5 (on { thr with bat := { counts := [(6, 3)], openN := 7, done := 6 } }) fun x => { x with slcmds := [q] }) (scratchAddr 5 0x240)
    [0x11, 0x92, 0x33, 0x44, 0x55, 0x66, 0x77, 0x88]
/-- A started command. -/
def st (cmd pos : Nat) : SlCmd :=
  { sc 7 3 with cmd := cmd, started := true, fixed := true, n := 5, pos := pos, sw := if cmd = 4 then 1 else 4, dw := if cmd = 4 then 1 else 4,
                op1 := 0x100, op2 := 0x240, desc := if cmd = 4 then [(7, 0x1234)] else [(4, 2 * 2 ^ 24)], batch := 6 }
/-- The command is the oldest, and runs. -/
def runsB (s : State) (q : SlCmd) : Bool :=
  s.slCmd 5 7 == some q && q.started && !q.stopped && !q.cut && !(s.core 5).dbg.freeze && (s.core 5).slcmds.head? == some q
/-- A byte of the core's scratchpad can be read or written at once by the command `q`. -/
def atB (s : State) (q : SlCmd) (va : Nat) (a : Acc) (pa : Nat) : Bool :=
  (match s.slLoc 5 q va a with | .ok l => decide (l = { pa := pa }) | .error _ => false) && s.present pa && s.homeOpen 5 pa && inMemory pa
/-- Claims at two homes; a fill and a RAW copy, each at its first and its last element, before and after the read; the end of a command
with an arrival and without. -/
theorem witness_SluiceSteps :
    (let l := scratchAddr 5 0x100 / 64
     let q := { st 4 0 with toClaim := [(5, [l, l + 1]), (9, [scratchAddr 9 0 / 64])] }
     let s := Wss q
     runsB s q = true ∧ (∀ x, x ∈ [l, l + 1] → s.present (x * 64) = true) ∧ s.homeOpen 5 (l * 64) = true) ∧
    (∀ p, p ∈ [0, 4] → ∀ v, v ∈ [none, some { bits := 0x34 }] → let q := { st 4 p with val := v }
      let s := Wss q
      let d := scratchAddr 5 (0x100 + p)
      runsB s q = true ∧ q.toClaim = [] ∧ q.pos < q.n ∧ q.dw = 1 ∧ atB s q (0x100 + p) .store d = true ∧
        s.discards 5 (s.core 5).topinf d = false ∧ s.flights = []) ∧
    (∀ p, p ∈ [0, 4] → ∀ v, v ∈ [none, some { bits := 0x34, count := 1 }] → let q := { st 0 p with val := v }
      let s := Wss q
      let d := scratchAddr 5 (0x100 + 4 * p)
      let e := scratchAddr 5 (0x240 + 4 * p)
      runsB s q = true ∧ q.toClaim = [] ∧ q.pos < q.n ∧ 4 = 2 ^ q.esz ∧ q.fl / 2 % 2 = 0 ∧ q.sw = 4 ∧ q.dw = 4 ∧ q.old = [] ∧
        atB s q (0x240 + p * 4) .load e = true ∧ atB s q (0x100 + p * 4) .store d = true ∧ (s.sideFmt q true e).1 = .raw ∧
        (s.sideFmt q false d).1 = .raw ∧ s.discards 5 (s.core 5).topinf d = false ∧ s.flights = []) ∧
    (∀ b, b ∈ [none, some (scratchAddr 5 0x500)] → let q := { st 4 5 with bar := b }
      let s := Wss q
      runsB s q = true ∧ q.toClaim = [] ∧ q.n ≤ q.pos ∧ q.pend = [] ∧ q.cmd < 6 ∧ q.fl % 2 = 1 ∧ (s.slot 5 q.slot).tid = q.tid) := by decide +kernel
/-- Writes that are sent: of a fill and of a RAW copy, the first and the second of the command's. -/
theorem witness_SluiceSteps_writes :
    ∀ k, k ∈ [0, 1] → ∀ m, m ∈ [4, 0] →
      let w (i pa : Nat) : SlWrite := { id := 80 + i, elem := i, val := { bits := 0x34, count := 1 }, code := 0, pa := pa, polder := none, page := none, topinf := false }
      let q := { st m 2 with pend := [w 0 (if k = 0 then scratchAddr 5 0x100 else scratchAddr 9 0x4000), w 1 (scratchAddr 5 0x104)] }
      let s := Wss q
      let v := q.pend.getD k (w 0 0)
      runsB s q = true ∧ q.pend[k]? = some v ∧ (q.pend.map SlWrite.id).Nodup ∧ (∀ p, p ∈ q.pend.take k → s.homeOf p.pa ≠ s.homeOf v.pa) ∧
        s.present v.pa = true ∧ s.homeOpen 5 v.pa = true ∧ inMemory v.pa = true ∧ s.discards 5 v.topinf v.pa = false ∧ s.flights = [] ∧
        ((q.cmd = 4 ∧ q.dw = 1) ∨ (q.cmd = 0 ∧ q.sw = 2 ^ q.esz ∧ q.dw = q.sw ∧ v.val.fmt = .raw ∧ (s.sideFmt q false v.pa).1 = .raw)) := by
  decide +kernel
/-- Cores 5 and 9 are members of group 5 by their registers; its root is core 9. -/
def Wg (g : Group) (w : Wait) (sl : Slot) : State :=
  let s := on { sl with sr := [(1, 5), (2, 9)], wait := w }
  { (s.setCore 5 { s.core 5 with srgrp := 0x21 }).setCore 9 { s.core 9 with srgrp := 0x20 } with groups := [(5, g)] }
theorem witness_GroupResults :
    (let s := Wg {} .run thr
     s.begun ∧ s.me.role = .single ∧ s.me.readyS 1 ∧ s.me.readyS 2 ∧ s.me.openS 12 ∧ s.me.privS = true ∧ (s.me.scalar 1).toNat = 5 ∧
       (s.me.scalar 2).toNat = 9 ∧ coreExists 9 = true ∧ (s.group 5).open_ = false ∧ (s.group 5).members = [] ∧
       ((keys s.cores).filter fun c => coreExists c && bitAt (s.core c).srgrp 5) ≠ []) ∧
    (let s := Wg { open_ := true, root := 9, members := [5, 9] } .run thr
     s.begun ∧ s.me.privS = true ∧ (s.group 5).open_ = true ∧ (s.group 5).running = [] ∧ s.groupBusy 5 = false) ∧
    ((Wg {} (.busy 3 (.rgopen 5)) thr).slot 5 3).wait = .busy 3 (.rgopen 5) := by
  simp only [State.begun, Slot.readyS, Slot.openS]; decide +kernel
/-- A round whose members 0 and 1 send to root 1, and both have. -/
def rnd : Round :=
  { kind := some 0, reqs := [(5, 3, 2, 7)], sent := [0, 1], taken := [0, 1],
    streams := [(0, { wins := [(3, (false, [(1, 0x3F800000), (5, 0x40000000)])), (4, (true, [(0, 1)]))], floor := 3, ended := true }),
      (1, { wins := [(3, (true, [(1, 0x40000000), (2, 7)]))], floor := 9 })] }
/-- That group, and a sending command of core 5. -/
def Wwr : State := core5 { W with groups := [(3, { open_ := true, root := 1, members := [0, 1], rounds := [(0, rnd)] })], time := 65536 } fun x =>
  { x with slcmds := [{ sc 7 3 with cmd := 6, fl := 0, op1 := 3, round := some 0, srcfg := 0x0001000000000000, held := true }] }
/-- The command of that core. -/
def rq : SlCmd := { sc 7 3 with cmd := 6, fl := 0, op1 := 3, round := some 0, srcfg := 0x0001000000000000, held := true }
theorem witness_WeirSteps :
    (let g := Wwr.group 3
     find g.rounds 0 = some rnd ∧ g.open_ = true ∧ rnd.cut = false ∧ g.inOrder 0 65600 = true ∧ g.inputs 65600 = some (0, 1) ∧
       65600 < 0x400000 ∧ g.fed 65600 = true ∧ 65600 ≠ moduleStream ∧ 0 ≠ moduleStream ∧ 1 ≠ moduleStream ∧ g.fed 0 = true ∧ g.fed 1 = true ∧
       (look {} rnd.streams 65600).ended = false ∧ (look {} rnd.streams 65600).wins = [] ∧ Wwr.buffered 65600 = 0 ∧
       nextWin ((look {} rnd.streams 0).from_ 0) ((look {} rnd.streams 1).from_ 0) = some 3 ∧ (look {} rnd.streams 65600).floor = 0 ∧
       (look {} rnd.streams 0).passed 3 = true ∧ (look {} rnd.streams 1).passed 3 = true) ∧
    (rnd.reqs ≠ [] ∧ (∀ c, c ∈ (Wwr.group 3).members → c ∈ rnd.sent) ∧ (∀ c, c ∈ (Wwr.group 3).receivers rnd → c ∈ rnd.taken)) ∧
    (Wwr.slCmd 5 7 = some rq ∧ 6 ≤ rq.cmd ∧ rq.cmd ≤ 8 ∧ rq.round = some 0 ∧ rq.cut = false ∧ rq.srcfg.toNat / 2 ^ 48 ≠ 0 ∧
      rq.time + rq.srcfg.toNat / 2 ^ 48 * 65536 ≤ Wwr.time ∧ (Wwr.round (rq.op1.toNat % 64) 0).cut = false ∧
      rq.cmd ≠ 7 ∧ rq.held ≠ Wwr.leafFull 5 (look {} (Wwr.round (rq.op1.toNat % 64) 0).streams 5)) := by decide +kernel

/-! ### Witnesses: the module, the host, the peers, the machine as a whole -/

theorem witness_ResetAndLevels : (∀ l, l ∈ [1, 2] → ({ W with level := l, fwok := true } : State).fwok = true ∧
    (({ W with level := l, fwok := true } : State).level = 1 ∨ ({ W with level := l, fwok := true } : State).level = 2)) ∧
    W.level = 3 ∧ State.reset.level = 0 := by decide +kernel
/-- Peer 2's window is open and far port 1 is up; then with a rail of peer 2 lost. -/
def Wl (l : List Nat) : State := { W with lost := l, peer := [(2, { trained := true, openHere := true })], far := [(1, { up := true, gib := 5 })] }
theorem witness_LinkEvents :
    ((Wl []).railsOf 2 < 2 ∧ (Wl []).lost.contains (2 * 8 + 4) = false ∧ (Wl []).railsOf 2 = 0 ∧ (Wl []).railsOf 12 = 0) ∧
    ((Wl [16]).lost.contains (2 * 8 + 4) = false ∧ (Wl [16]).railsOf 2 = 1 ∧ (Wl [96]).railsOf 12 = 1) ∧
    (1024 : BitVec 11).toNat ≤ 1024 ∧ (look ({} : Far) (Wl []).far 1).up = true := by decide +kernel
/-- A launch window. -/
def lw : Nat := deviceBase + 64
theorem witness_HostAccesses :
    (0 < 64 ∧ 0 % 64 + 64 ≤ 64 ∧ 2 ^ 48 ≤ 2 ^ 48 ∧ W.homeOf (2 ^ 48) = none) ∧
    (∀ x, x ∈ [0x400003, scratchAddr 5 0x10] → x % 64 + 8 ≤ 64 ∧ x < 2 ^ 48 ∧ (W.homeOf x).isSome = true ∧
      W.extReady x (.host x 8 none) = true ∧ W.extReady x (.host x 8 (some (natLe 8 3))) = true ∧ inMemory x = true ∧ W.poisoned x 8 = false ∧ W.latent = [] ∧ W.flights = []) ∧
    (regionOf lw = .launch 0 64 ∧ W.served 0 = true ∧ ({ W with level := 0 } : State).served 0 = false ∧
      (let l := recB 0x5000 1 2 3 4 77 0x101 5 0
       l.length = 64 ∧ recordOk l = true ∧ recSib l = false ∧ recCore l / 16 = 0 ∧ (W.hub 0).bank.length < 256) ∧
      recordOk (List.replicate 64 7) = false) ∧
    (mgmtReaches 5 0x324 = true ∧ mgmtReaches 5 0 = false) := by decide +kernel
theorem witness_PeerAccesses :
    W.homeOf (2 ^ 48) = none ∧ 2 ^ 48 % 64 + 1 ≤ 64 ∧
    (∀ x, x ∈ [0x400008, scratchAddr 5 0x10] → (W.homeOf x).isSome = true ∧
      (∀ o, o ∈ [PeerOp.read x 8, .write x (natLe 8 3) false 5, .atomic x 9 true 3 4 false 5] → W.extReady x (.peer 2 o) = true) ∧
      inMemory x = true ∧ W.poisoned x 8 = false ∧ W.latent = [] ∧ W.discards 4096 false x = false ∧ W.flights = [] ∧ x % 8 = 0 ∧
      x % 64 + 8 ≤ 64) ∧
    ((Wwr.group 3).open_ = true ∧ (Wwr.round 3 0).cut = false ∧ (look {} (Wwr.round 3 0).streams (peerStream 2)).hdr = none ∧
      Wwr.buffered (peerStream 2) + 33 < 64 ∧
      Wwr.badFlits.contains 2 = false) := by decide +kernel
/-- A sparse pair, a dense header with three values, a masked one of one window. -/
theorem witness_PeerAccesses_entries :
    (0x3FFFFFFF40400000 : W64).toNat / 2 ^ 62 = 0 ∧
    (let h : W64 := w64 (2 ^ 62 + 77 * 2 ^ 32 + 3)
     h.toNat / 2 ^ 62 = 1 ∧ bitAt h 16 = false ∧ [(0 : W64), 1].length = (h.toNat % 2 ^ 16 + 1) / 2) ∧
    (let h : W64 := w64 (2 ^ 62 + 128 * 2 ^ 32 + 2 ^ 16 + 64)
     h.toNat / 2 ^ 62 = 1 ∧ bitAt h 16 = true ∧ h.toNat / 2 ^ 32 % 2 ^ 30 % 64 = 0 ∧
       (List.replicate 33 (5 : W64)).length = h.toNat % 2 ^ 16 / 64 * 33) := by decide +kernel
/-- A dump that is being written. -/
def Wdu (ended : Bool) : State := (on { thr with wait := .dumping }).startDump 5 3 ended [1, 2, 3, 4, 5]
theorem witness_ObservationEvents :
    (({ W with smpInterval := 1000 } : State).pulseDue = true ∧
      (∀ d, d < 4 → (({ W with smpInterval := 1000 } : State).die d).smpbuf.toNat % 2 ^ 16 = 0) ∧ W.pulseDue = false) ∧
    ((100, true) ∈ ({ W with latent := [(100, true), (101, false)] } : State).latent ∧ 803 / 8 = 100) ∧
    (let s := core5 (on { thr with sErr := 2, vErr := [9], rErr := [(1, false)] }) fun x =>
       { x with engErr := [(3, true)], gErr := [(2, false)], mail := [(6, { err := [(1, true)] })] }
     find (s.core 5).engErr 3 = some true ∧ find (look {} (s.core 5).mail 6).err 1 = some true ∧ find (s.core 5).gErr 2 = some false ∧
       find (s.slot 5 3).rErr 1 = some false ∧ bitAt (s.slot 5 3).sErr 1 = true ∧ (s.slot 5 3).vErr.contains (8 * 1 + 1) = true) ∧
    (∀ e, e ∈ [true, false] → (match ((Wdu e).core 5).dump with
      | some j => (Wdu e).dumpDrained 5 j && (j.ended == e) && j.slot == 3
      | none => false) = true ∧ (Wdu e).flights = [] ∧ ((Wdu e).slot 5 3).wait = .dumping) := by decide +kernel
theorem witness_RoundTrip : (Instr.add 5 6 7).encoded = true ∧ (Instr.add 5 6 7).wf = true := by decide +kernel
theorem witness_Unambiguous : decode 0x04518700 = some (.add 5 6 7) := by decide +kernel
/-- One instruction, placed where the next step fetches: ADD s1, s2, s3. -/
noncomputable def placed : State := State.reset.withFetchWord 32 0x04108300
theorem witness_StepRunsDecoded :
    let s := placed
    let t := s.slot 0 15
    s.agenda = .issue 0 15 :: [] ∧ ({ s with agenda := [] } : State).nextSlot 0 = some 15 ∧ t.inStream = false ∧ t.halted = false ∧
      bpMatch (s.core 0).dbg t.nextPc = false ∧ t.pc.toNat < 2 ^ 57 ∧
      (s.core 0).icache.find? (fun b => b.asp == t.aspace.toNat && b.blk == t.pc.toNat / 64) = none ∧ t.pc.toNat % 4 = 0 ∧
      (match s.translate { core := 0, task := t.task, root := t.ptroot, asp := t.aspace.toNat, privS := t.privS } t.pc.toNat .fetch with
       | .ok l => (s.homeOf l.pa).isSome && s.present l.pa && s.homeTakes 0 l.pa t.queued && !(s.crossLink (s.linkOf 0 l.pa)).1 && inMemory (l.pa / 64 * 64) &&
           !s.poisoned (l.pa / 64 * 64) 64 && s.latent.isEmpty && decide (l.pa % 64 = t.pc.toNat % 64) &&
           decide (s.loadN l.pa 4 = 0x04108300)
       | .error _ => false) = true := by decide +kernel
/-- Whether an outcome is a next state. -/
def answers (o : Host.Outcome State Fault Refusal) : Bool := match o with | .next _ => true | _ => false
theorem answered (o : Host.Outcome State Fault Refusal) (h : answers o = true) : ∃ t, o = .next t := by
  cases o with
  | next t => exact ⟨t, rfl⟩
  | _ => cases h
theorem witness_StepKeepsResult : ∃ t, exec (.add 1 2 3) W = .next t ∧ (t.slot 5 3).wait = .run := by
  have h : (match exec (.add 1 2 3) W with | .next t => decide ((t.slot 5 3).wait = .run) | _ => false) = true := by decide +kernel
  split at h
  · next t ht => exact ⟨t, ht, of_decide_eq_true h⟩
  · cases h
/-- A state whose next choice is an event. -/
noncomputable def Wev : State := { W with agenda := [.event .moduleReset] }
theorem witness_StepRunsEvent : Wev.agenda = .event .moduleReset :: [] ∧ ∃ t, exec .moduleReset { Wev with agenda := [] } = .next t :=
  ⟨rfl, answered _ (by decide +kernel)⟩
theorem witness_MemoryInvariant : Memory.wf placed.mem = true ∧ placed.mem ≠ [] ∧ ∃ t, step placed = .next t :=
  ⟨by decide +kernel, by decide +kernel, answered _ (by decide +kernel)⟩
theorem witness_RestUnchanged : (W.begun ∧ W.untraced ∧ W.me.readyS 1 ∧ W.me.readyS 2 ∧ W.me.live = true ∧ W.me.wait = .run) ∧
    (∃ t, exec .quit W = .next t) ∧ (∃ t, exec (.callat 12 1) W = .next t) ∧ (∃ t, exec (.chsub 1) W = .next t) ∧
    (∃ t, exec (.mbtake 1 6) Wmb = .next t) ∧ (∃ t, exec (.tmake 12 1 2) (Wrec 0x80 9 0) = .next t) ∧
    (∃ t, exec (.pjoin 1 2) (Wpo { live := true } 3) = .next t) ∧
    (∃ t, exec .pleave (Wpo { live := true, member := some (3, 5) } 3) = .next t) := by
  refine ⟨?_, answered _ (by decide +kernel), answered _ (by decide +kernel), answered _ (by decide +kernel), answered _ (by decide +kernel),
    answered _ (by decide +kernel), answered _ (by decide +kernel), answered _ (by decide +kernel)⟩
  simp only [State.begun, State.untraced, Slot.readyS]; decide +kernel
theorem witness_EventsLeaveThreads : (∃ t, exec (.sleepWake 5 3) (Wb 3 (.sleep 1000)) = .next t) ∧
    (∃ t, exec (.weirMerge 3 0 65600) Wwr = .next t) ∧ (∃ t, exec (.tadjWrite 1) W = .next t) :=
  ⟨answered _ (by decide +kernel), answered _ (by decide +kernel), answered _ (by decide +kernel)⟩
theorem witness_IssuedThreadsRun : (W.nextSlot 5).isSome = true ∧ placed.nextSlot 0 = some 15 := by decide +kernel
end Sys2Proof.Tests
end

section
/-! PROOF. O14: what MOVC reads of a control register and what MOVTC writes of it. One lemma for each way in which a register is held (by the
thread, by its core, by both), and then a line for each register. -/

namespace Sys2Proof.Machine

/-! ### Bits of a doubleword -/

/-- Keeping the low `k` bits is the remainder. -/
theorem keep_low (v : W64) (k : Nat) (h : k ≤ 64) : keep v (2 ^ k - 1) = BitVec.ofNat 64 (v.toNat % 2 ^ k) := by
  have lt : 2 ^ k - 1 < 2 ^ 64 := by have := Nat.pow_le_pow_right (n := 2) (by omega) h; omega
  apply BitVec.eq_of_toNat_eq
  simp only [keep, w64, BitVec.toNat_and, BitVec.toNat_ofNat, Nat.mod_eq_of_lt lt, Nat.and_two_pow_sub_one_eq_mod]
  exact (Nat.mod_eq_of_lt (Nat.lt_of_le_of_lt (Nat.mod_le _ _) v.isLt)).symm

/-- Clearing the low `k` bits is rounding down to a multiple of `2 ^ k`. -/
theorem clear_low (v : W64) (k : Nat) : v &&& ~~~ BitVec.ofNat 64 (2 ^ k - 1) = BitVec.ofNat 64 (v.toNat / 2 ^ k * 2 ^ k) := by
  apply BitVec.eq_of_getLsbD_eq
  intro i hi
  simp only [BitVec.getLsbD_and, BitVec.getLsbD_not, BitVec.getLsbD_ofNat, Nat.testBit_two_pow_sub_one, Nat.testBit_mul_two_pow,
    Nat.testBit_div_two_pow, hi, decide_true, Bool.true_and]
  by_cases low : i < k
  · simp [low]
  · simp [low, Nat.not_lt.1 low, BitVec.testBit_toNat]

/-- A field of a doubleword. -/
theorem ofNat_fieldN (v : W64) (lo n : Nat) : BitVec.ofNat n (fieldN v lo n) = v.extractLsb' lo n := by
  apply BitVec.eq_of_toNat_eq
  simp [fieldN, BitVec.extractLsb'_toNat, Nat.shiftRight_eq_div_pow]

/-- A table after one of its entries is written, asked for the entry by the reader's number. -/
theorem look_put_eq {α : Type} {d v : α} {m : Map α} {k : Nat} (j : Nat) : look d (put m k v) j = if j = k then v else look d m j :=
  (look_put d m k j v).trans (if_congr eq_comm rfl rfl)

/-! ### Reading a thread and its core past an instruction -/

/-- What a completed instruction leaves of a thread, read by anything that `Slot.still` keeps. -/
theorem past_holds {held : Slot → Prop} (still : ∀ x : Slot, held x.still = held x) (u : Slot) : held (u.past none) = held u := by
  rw [← still, past_still, still]

/-- A change of a core that keeps its slots keeps every thread. -/
theorem slot_modCore {s : State} {c : Nat} {f : Core → Core} (h : ∀ x, (f x).slots = x.slots) (d k : Nat) :
    (s.modCore c f).slot d k = s.slot d k := by
  unfold State.slot
  rw [core_modCore]
  split
  · rw [h]
  · rfl

theorem noLanding_congr {s t : State} (h : ∀ c k, t.slot c k = s.slot c k) (c k : Nat) : t.noLanding c k = s.noLanding c k := by
  simp only [State.noLanding, h]

/-! ### The checks of R238 -/

/-- A number that needs no part of the task's allocation. -/
def cregPlain (n : Nat) : Bool :=
  !(inRange n 0x100 0x17F || inRange n 0x1C0 0x1CB || inRange n 0x1E0 0x1E7 || inRange n 0x200 0x23F)

theorem inRange_iff (n lo hi : Nat) : inRange n lo hi = true ↔ lo ≤ n ∧ n ≤ hi := by simp [inRange]

theorem inRange_false (n lo hi : Nat) : inRange n lo hi = false ↔ n < lo ∨ hi < n := by
  rw [← Bool.not_eq_true, inRange_iff]; omega

theorem cregPlain_iff (n : Nat) : cregPlain n = true ↔
    (n < 0x100 ∨ 0x17F < n) ∧ (n < 0x1C0 ∨ 0x1CB < n) ∧ (n < 0x1E0 ∨ 0x1E7 < n) ∧ (n < 0x200 ∨ 0x23F < n) := by
  simp only [cregPlain, Bool.not_eq_true', Bool.or_eq_false_iff, inRange_false, and_assoc]

theorem needS_ok {s : State} (h : s.me.privS = true) : needS s = .ok ((), s) := by
  unfold needS; rw [if_pos h]

/-- A number beyond the task's allocation (R238), as `cregCheck` asks it. -/
def Task.beyond (t : Task) (n : Nat) : Bool :=
  (inRange n 0x100 0x17F && decide (t.banks.length ≤ n - 0x100))
    || (inRange n 0x1C0 0x1C7 && decide (t.tiles.length ≤ n - 0x1C0)) || (inRange n 0x1C8 0x1CB && decide (t.accs.length ≤ n - 0x1C8))
    || (inRange n 0x1E0 0x1E7 && decide (t.tiles.length ≤ n - 0x1E0)) || (inRange n 0x200 0x23F && decide (t.accs.length ≤ (n - 0x200) / 16))

theorem cregCheck_ok {s : State} {n : Nat} (priv : cregPriv n = true → s.me.privS = true)
    (within : (s.taskOf s.cur.core s.me.task).beyond n = false) : cregCheck n s = .ok ((), s) := by
  have inside : ¬ (s.taskOf s.cur.core s.me.task).beyond n = true := by rw [within]; exact Bool.false_ne_true
  have rest : (askM (fun s => (s.taskOf s.cur.core s.me.task).beyond n) >>= fun b : Bool => if b then permNoAddr else pure ()) s
      = .ok ((), s) := (bind_ok rfl).trans (congrFun (if_neg inside) s)
  unfold cregCheck
  split
  · next p => exact (bind_ok (needS_ok (priv p))).trans rest
  · exact rest

theorem beyond_plain {n : Nat} (h : cregPlain n = true) (t : Task) : t.beyond n = false := by
  obtain ⟨bank, tile, scale, pattern⟩ := (cregPlain_iff n).1 h
  have e1 := (inRange_false n 0x100 0x17F).2 bank
  have e2 := (inRange_false n 0x1C0 0x1C7).2 (by omega)
  have e3 := (inRange_false n 0x1C8 0x1CB).2 (by omega)
  have e4 := (inRange_false n 0x1E0 0x1E7).2 scale
  have e5 := (inRange_false n 0x200 0x23F).2 pattern
  simp only [Task.beyond, e1, e2, e3, e4, e5, Bool.false_and, Bool.or_false]

theorem beyond_bank {n b : Nat} {t : Task} (hn : n < 128) (h : t.banks[n]? = some b) : t.beyond (0x100 + n) = false := by
  obtain ⟨held, -⟩ := List.getElem?_eq_some_iff.1 h
  have e2 := (inRange_false (0x100 + n) 0x1C0 0x1C7).2 (by omega)
  have e3 := (inRange_false (0x100 + n) 0x1C8 0x1CB).2 (by omega)
  have e4 := (inRange_false (0x100 + n) 0x1E0 0x1E7).2 (by omega)
  have e5 := (inRange_false (0x100 + n) 0x200 0x23F).2 (by omega)
  simp only [Task.beyond, e2, e3, e4, e5, Bool.false_and, Bool.or_false, Nat.add_sub_cancel_left, decide_eq_false (Nat.not_le.2 held), Bool.and_false]

/-! ### MOVC -/

/-- A register whose MOVC waits for nothing and has no effect of its own completes with the register's value. -/
theorem movc_reads {s : State} {d : BitVec 6} {n : BitVec 14} {v : W64} (b : s.begun) (o : s.me.openS d) (r : s.me.role = .single)
    (check : cregCheck n.toNat s = .ok ((), s)) (now : n.toNat ≠ 0x311 ∧ n.toNat ≠ 0x2B9 ∧ n.toNat ≠ 0x332)
    (value : s.creg s.cur.core s.cur.slot n.toNat = v) : CompletesS (.movc d n) s d v := by
  refine run_writeS b o ?_
  obtain ⟨tag, pm, drop⟩ := now
  rw [bind_ok check, if_neg tag, if_neg pm]
  refine bind_ok ?_
  simp only [input, r, if_neg drop, value]

/-- MOVC of a register that U may read. -/
theorem movc_user {s : State} {d : BitVec 6} {n : BitVec 14} {v : W64} (b : s.begun) (o : s.me.openS d) (r : s.me.role = .single)
    (value : s.creg s.cur.core s.cur.slot n.toNat = v) (plain : cregPlain n.toNat = true := by decide)
    (user : cregPriv n.toNat = false := by decide) (now : n.toNat ≠ 0x311 ∧ n.toNat ≠ 0x2B9 ∧ n.toNat ≠ 0x332 := by decide) :
    CompletesS (.movc d n) s d v :=
  movc_reads b o r (cregCheck_ok (by simp [user]) (beyond_plain plain _)) now value

/-- MOVC of a supervisor's register, at S. -/
theorem movc_super {s : State} {d : BitVec 6} {n : BitVec 14} {v : W64} (b : s.begun) (o : s.me.openS d) (r : s.me.role = .single)
    (priv : s.me.privS = true) (value : s.creg s.cur.core s.cur.slot n.toNat = v) (plain : cregPlain n.toNat = true := by decide)
    (now : n.toNat ≠ 0x311 ∧ n.toNat ≠ 0x2B9 ∧ n.toNat ≠ 0x332 := by decide) : CompletesS (.movc d n) s d v :=
  movc_reads b o r (cregCheck_ok (fun _ => priv) (beyond_plain plain _)) now value

/-- The number of a register in a table of registers. -/
theorem toNat_cregNumber {n : Nat} (h : n < 2 ^ 14) : (BitVec.ofNat 14 n).toNat = n := by
  rw [BitVec.toNat_ofNat, Nat.mod_eq_of_lt h]

theorem cregOwn_of_range {n : Nat} (h : (0x100 ≤ n ∧ n ≤ 0x17F) ∨ (0x1C0 ≤ n ∧ n ≤ 0x1E7)) : cregOwn n = true := by
  simp only [cregOwn, Bool.or_eq_true, inRange_iff]; omega

theorem creg_own {s : State} {c k n : Nat} (h : cregOwn n = true) : s.creg c k n = s.ownReg c k n := if_pos h

theorem ownReg_bfmt {s : State} {c k n b : Nat} (hn : n < 128) (h : (s.taskOf c (s.slot c k).task).banks[n]? = some b) :
    s.ownReg c k (0x100 + n) = look 0 (s.core c).bfmt b := by
  unfold State.ownReg
  simp (disch := omega) only [if_neg, if_pos, Nat.add_sub_cancel_left, h]

theorem ownReg_tsh {s : State} {c k n : Nat} (hn : n < 8) : s.ownReg c k (0x1D0 + n) = look 0 (s.slot c k).tsh n := by
  unfold State.ownReg
  simp (disch := omega) only [if_neg, if_pos, Nat.add_sub_cancel_left]

theorem ownReg_ash {s : State} {c k n : Nat} (hn : n < 4) : s.ownReg c k (0x1D8 + n) = look 0 (s.slot c k).ash n := by
  unfold State.ownReg
  simp (disch := omega) only [if_neg, if_pos, Nat.add_sub_cancel_left]

/-- The shadow shapes are the thread's own, and no part of its task's allocation. -/
theorem cregPlain_shadow {n : Nat} (lo : 0x1D0 ≤ n) (hi : n ≤ 0x1DB) : cregPlain n = true := (cregPlain_iff n).2 (by omega)

theorem cregPriv_low {n : Nat} (lo : 0x005 ≤ n) (hi : n < 0x300) : cregPriv n = false := by
  simp only [cregPriv, Bool.or_eq_false_iff, beq_eq_false_iff_ne, decide_eq_false_iff_not]; omega

/-- MOVC of BFMTn reads the format of the bank that the task holds as its bank n (R93). -/
theorem movc_bfmt {s : State} {d : BitVec 6} {n p : Nat} (b : s.begun) (o : s.me.openS d) (r : s.me.role = .single) (hn : n < 128)
    (bank : (s.taskOf s.cur.core s.me.task).banks[n]? = some p) :
    CompletesS (.movc d (BitVec.ofNat 14 (0x100 + n))) s d (look 0 s.myCore.bfmt p) := by
  have e : (BitVec.ofNat 14 (0x100 + n)).toNat = 0x100 + n := toNat_cregNumber (by omega)
  have user := cregPriv_low (n := 0x100 + n) (by omega) (by omega)
  refine movc_reads b o r (cregCheck_ok (by simp [e, user]) (by rw [e]; exact beyond_bank hn bank)) (by omega) ?_
  rw [e, creg_own (cregOwn_of_range (by omega)), ownReg_bfmt hn bank]
  rfl

/-- MOVC of a shadow shape reads it from the thread (R209). -/
theorem movc_shape {s : State} {d : BitVec 6} {n : Nat} {v : W64} (b : s.begun) (o : s.me.openS d) (r : s.me.role = .single)
    (lo : 0x1D0 ≤ n) (hi : n ≤ 0x1DB) (value : s.ownReg s.cur.core s.cur.slot n = v) : CompletesS (.movc d (BitVec.ofNat 14 n)) s d v := by
  have e : (BitVec.ofNat 14 n).toNat = n := toNat_cregNumber (by omega)
  refine movc_user b o r ?_ (by rw [e]; exact cregPlain_shadow lo hi) (by rw [e]; exact cregPriv_low (by omega) (by omega)) (by omega)
  rw [e, creg_own (cregOwn_of_range (by omega)), value]

/-- R216, R238: each register named reads as its table says. -/
theorem controlReads : Sys2Proof.Says.ControlReads := by
  intro s d b o r m
  refine ⟨⟨movc_user b o r rfl, movc_user b o r rfl, movc_user b o r rfl, movc_user b o r rfl, movc_user b o r rfl, movc_user b o r rfl,
    movc_user b o r rfl, movc_user b o r rfl, movc_user b o r rfl, movc_user b o r rfl, movc_user b o r rfl, movc_user b o r rfl,
    movc_user b o r rfl, movc_user b o r rfl, movc_user b o r rfl, movc_user b o r rfl, movc_user b o r rfl, movc_user b o r rfl,
    fun n p hn bank => movc_bfmt b o r hn bank, fun n hn => movc_shape b o r (by omega) (by omega) (ownReg_tsh hn),
    fun n hn => movc_shape b o r (by omega) (by omega) (ownReg_ash hn)⟩, fun priv => ?_⟩
  exact ⟨movc_super b o r priv rfl, movc_super b o r priv rfl, movc_super b o r priv rfl, movc_super b o r priv rfl,
    movc_super b o r priv (BitVec.ofNat_toNat 64 _), movc_super b o r priv rfl, movc_super b o r priv (BitVec.ofNat_toNat 64 _), movc_super b o r priv rfl,
    movc_super b o r priv rfl, movc_super b o r priv rfl, movc_super b o r priv rfl⟩

/-! ### MOVTC -/

/-- The register's own checks of a MOVTC pass, and U may write it or the thread is at S (R113, R215, R238). -/
structure State.mayWrite (s : State) (n : Nat) : Prop where
  check : cregCheck n s = .ok ((), s)
  shadow : inRange n 0x180 0x187 = false ∧ n ≠ 0x190
  writable : s.me.privS = true ∨ cregRoAtU n = false

theorem writerCheck_ok {s : State} {n : Nat} (h : inRange n 0x180 0x187 = false ∧ n ≠ 0x190) : writerCheck n s = .ok ((), s) := by
  unfold writerCheck
  rw [h.1, beq_eq_false_iff_ne.2 h.2]
  rfl

/-- A MOVTC whose checks pass reads its operand, and then writes or, at U, ignores the write of a register that U may only read. -/
theorem movtc_runs {s : State} {a : BitVec 6} {n : BitVec 14} (ready : s.me.readyS a) (check : cregCheck n.toNat s = .ok ((), s))
    (shadow : inRange n.toNat 0x180 0x187 = false ∧ n.toNat ≠ 0x190) :
    ∃ m, exec (.movtc a n) s = run m s ∧
      m s = (if !s.me.privS && cregRoAtU n.toNat then pure () else writeCreg n.toNat (s.me.scalar a)) s := by
  refine ⟨_, rfl, ?_⟩
  rw [bind_ok check, bind_ok (writerCheck_ok shadow), bind_ok (readS_ready ready), bind_ok rfl]

/-- At U a MOVTC of a register that U may only read has no effect. -/
theorem movtc_ignored {s : State} {a : BitVec 6} {n : BitVec 14} (b : s.begun) (ready : s.me.readyS a) (user : s.me.privS = false)
    (plain : cregPlain n.toNat = true := by decide) (open_ : cregPriv n.toNat = false := by decide)
    (shadow : inRange n.toNat 0x180 0x187 = false ∧ n.toNat ≠ 0x190 := by decide) (ro : cregRoAtU n.toNat = true := by decide) :
    GoesTo (.movtc a n) s s.me.next.pc := by
  obtain ⟨m, runs, same⟩ := movtc_runs ready (cregCheck_ok (by simp [open_]) (beyond_plain plain _)) shadow
  have ignored : (!s.me.privS && cregRoAtU n.toNat) = true := by simp [user, ro]
  rw [if_pos ignored] at same
  obtain ⟨t, h1, h2, h3⟩ := run_same b same
  exact ⟨t, runs.trans h1, .of_past h2 h3 rfl rfl⟩

/-- A change of a thread that leaves alone what decides how it goes on, and of the rest what `but` forgets alone. -/
structure WritesRegister (f but : Slot → Slot) : Prop where
  place : ∀ x, ((f x).pops, (f x).role, (f x).lvq, (f x).inStream, (f x).chBuf, (f x).pc) = (x.pops, x.role, x.lvq, x.inStream, x.chBuf, x.pc)
  still : ∀ x, but (f x).still = but x.still

/-- A MOVTC whose write changes the thread by `f`, and no other thread: the thread goes on, and all else is as the write left it. -/
theorem movtc_passes {s s' : State} {a : BitVec 6} {n : BitVec 14} {f but : Slot → Slot} (b : s.begun) (ready : s.me.readyS a)
    (may : s.mayWrite n.toNat) (write : writeCreg n.toNat (s.me.scalar a) s = .ok ((), s')) (cur : s'.cur = s.cur)
    (slots : ∀ c k, s'.slot c k = (s.modSlot s.cur.core s.cur.slot f).slot c k) (keeps : WritesRegister f but) :
    ∃ t, exec (.movtc a n) s = .next t ∧ OnlyThread s' t ∧ Passed s t s.me.next.pc but ∧ t.thread s = (f s.me).past none := by
  obtain ⟨check, shadow, writable⟩ := may
  obtain ⟨npc, taken, -, -, -, landing⟩ := b
  obtain ⟨m, runs, ok⟩ := movtc_runs ready check shadow
  have through : ¬ (!s.me.privS && cregRoAtU n.toNat) = true := by rcases writable with h | h <;> simp [h]
  rw [if_neg through, write] at ok
  have place := keeps.place s.me
  simp only [Prod.mk.injEq] at place
  obtain ⟨pops, role, lvq, stream, buffer, pc⟩ := place
  have me : s'.me = f s.me := by
    unfold State.me
    rw [cur, slots]
    exact slot_setSlot_same _ _ _ _
  obtain ⟨t, h1, h2, -, h3⟩ := run_done ok (by rw [cur, npc]) (by rw [me, pops, taken])
    (by rw [cur, noLanding_congr slots]; exact noLanding_mod landing role lvq) (by rw [cur]) (by rw [cur])
  rw [me] at h3
  exact ⟨t, runs.trans h1, h2, .of_past h3 (next_pc_congr stream buffer pc) (keeps.still _), h3⟩

/-- MOVTC of register `n` from s[a] completes: of its thread's own state it changes what `but` forgets alone, which then is as `held` says,
and nothing outside the thread. -/
def State.WritesOwn (s : State) (a : BitVec 6) (n : BitVec 14) (but : Slot → Slot) (held : Slot → Prop) : Prop :=
  ∃ t, exec (.movtc a n) s = .next t ∧ Went s t s.me.next.pc but ∧ held (t.thread s)

/-- MOVTC of register `n` from s[a] completes: it changes what `but` forgets of its core alone, which then is as `held` says. -/
def State.WritesCore (s : State) (a : BitVec 6) (n : BitVec 14) (but : Core → Core) (held : Core → Prop) : Prop :=
  ∃ t, exec (.movtc a n) s = .next t ∧ Passed s t s.me.next.pc all ∧ Beyond whole but s t ∧ held (t.core s.cur.core)

theorem writeCreg_own {s : State} {n : Nat} {v : W64} (own : cregOwn n = true) (now : n ≠ 0x311 ∧ n ≠ 0x339) :
    writeCreg n v s = .ok ((), s.writeOwn s.cur.core s.cur.slot n v) := by
  obtain ⟨tag, acc⟩ := now
  unfold writeCreg
  rw [if_neg tag, if_neg acc, if_pos own]
  rfl

theorem writeCreg_core {s : State} {n : Nat} {v : W64} (r : s.me.role = .single) (own : cregOwn n = false) (shared : cregModule n = false)
    (now : n ≠ 0x311 ∧ n ≠ 0x339 ∧ n ≠ 0x371 ∧ ¬ (n = 0x374 ∨ n = 0x312 ∨ n = 0x331 ∨ n = 0x361)) :
    writeCreg n v s = .ok ((), s.writeCore s.cur.core n v) := by
  obtain ⟨tag, acc, out, slow⟩ := now
  unfold writeCreg
  rw [if_neg tag, if_neg acc, if_neg (by rw [own]; exact Bool.false_ne_true), if_neg out]
  simp only [if_neg slow, outputPost, r, State.writeShared, shared, Bool.false_eq_true, if_false]

/-- MOVTC of a register of the thread's own, whose write is the change `f` of the thread. -/
theorem movtc_own {s : State} {a : BitVec 6} {n : BitVec 14} {but : Slot → Slot} {held : Slot → Prop} (b : s.begun)
    (ready : s.me.readyS a) (may : s.mayWrite n.toNat) (f : Slot → Slot) (new : held (f s.me))
    (write : s.writeOwn s.cur.core s.cur.slot n.toNat (s.me.scalar a) = s.modSlot s.cur.core s.cur.slot f := by rfl)
    (keeps : WritesRegister f but := by exact ⟨fun _ => rfl, fun _ => rfl⟩)
    (still : ∀ x : Slot, held x.still = held x := by exact fun _ => rfl)
    (own : cregOwn n.toNat = true := by decide) (now : n.toNat ≠ 0x311 ∧ n.toNat ≠ 0x339 := by decide) :
    s.WritesOwn a n but held := by
  have ok := (writeCreg_own own now).trans (congrArg (fun x => Except.ok ((), x)) write)
  obtain ⟨t, h1, h2, ⟨h3, h4, h5⟩, h6⟩ := movtc_passes b ready may ok rfl (fun _ _ => rfl) keeps
  exact ⟨t, h1, ⟨(OnlyThread.setMe s _).trans h2 rfl rfl, h3, h4, h5⟩, by rw [h6, past_holds still]; exact new⟩

/-- A MOVTC whose write is the change `f` of the core. -/
theorem movtc_modCore {s : State} {a : BitVec 6} {n : BitVec 14} {but : Core → Core} {held : Core → Prop} (b : s.begun)
    (ready : s.me.readyS a) (may : s.mayWrite n.toNat) (f : Core → Core) (new : held (f s.myCore))
    (write : writeCreg n.toNat (s.me.scalar a) s = .ok ((), s.modCore s.cur.core f))
    (slots : ∀ x, (f x).slots = x.slots := by exact fun _ => rfl)
    (rest : ∀ x, but { f x with slots := [] } = but { x with slots := [] } := by exact fun _ => rfl)
    (still : ∀ x : Core, held { x with slots := [] } = held x := by exact fun _ => rfl) : s.WritesCore a n but held := by
  have same (c k : Nat) : (s.modCore s.cur.core f).slot c k = (s.modSlot s.cur.core s.cur.slot id).slot c k := by
    rw [slot_modCore slots, slot_modSlot]
    exact (ite_self _).symm
  obtain ⟨t, h1, h2, h3, -⟩ := movtc_passes (but := all) b ready may write rfl same ⟨fun _ => rfl, fun _ => rfl⟩
  refine ⟨t, h1, h3, (Beyond.modCore s f slots rest).trans (.of_only h2) rfl rfl, ?_⟩
  rw [← still, h2.cores, still, core_modCore, if_pos rfl]
  exact new

/-- MOVTC of a register of the core, whose write is the change `f` of the core. -/
theorem movtc_core {s : State} {a : BitVec 6} {n : BitVec 14} {but : Core → Core} {held : Core → Prop} (b : s.begun)
    (ready : s.me.readyS a) (r : s.me.role = .single) (may : s.mayWrite n.toNat) (f : Core → Core) (new : held (f s.myCore))
    (write : s.writeCore s.cur.core n.toNat (s.me.scalar a) = s.modCore s.cur.core f := by rfl)
    (slots : ∀ x, (f x).slots = x.slots := by exact fun _ => rfl)
    (rest : ∀ x, but { f x with slots := [] } = but { x with slots := [] } := by exact fun _ => rfl)
    (still : ∀ x : Core, held { x with slots := [] } = held x := by exact fun _ => rfl)
    (own : cregOwn n.toNat = false := by decide) (shared : cregModule n.toNat = false := by decide)
    (now : n.toNat ≠ 0x311 ∧ n.toNat ≠ 0x339 ∧ n.toNat ≠ 0x371 ∧
      ¬ (n.toNat = 0x374 ∨ n.toNat = 0x312 ∨ n.toNat = 0x331 ∨ n.toNat = 0x361) := by decide) : s.WritesCore a n but held :=
  movtc_modCore b ready may f new ((writeCreg_core r own shared now).trans (congrArg (fun x => Except.ok ((), x)) write)) slots rest still

theorem mayWrite_user {s : State} {n : Nat} (plain : cregPlain n = true := by decide) (priv : cregPriv n = false := by decide)
    (shadow : inRange n 0x180 0x187 = false ∧ n ≠ 0x190 := by decide) (writable : cregRoAtU n = false := by decide) : s.mayWrite n :=
  ⟨cregCheck_ok (by simp [priv]) (beyond_plain plain _), shadow, .inr writable⟩

theorem mayWrite_super {s : State} {n : Nat} (priv : s.me.privS = true) (plain : cregPlain n = true := by decide)
    (shadow : inRange n 0x180 0x187 = false ∧ n ≠ 0x190 := by decide) : s.mayWrite n :=
  ⟨cregCheck_ok (fun _ => priv) (beyond_plain plain _), shadow, .inl priv⟩

theorem writeOwn_bfmt {s : State} {c k n p : Nat} {v : W64} (hn : n < 128) (h : (s.taskOf c (s.slot c k).task).banks[n]? = some p) :
    s.writeOwn c k (0x100 + n) v = s.modCore c fun x => { x with bfmt := put x.bfmt p (keep v 0xFF07) } := by
  simp (disch := omega) only [State.writeOwn, inRange_iff, if_neg, if_pos, Nat.add_sub_cancel_left, h]

theorem writeOwn_tsh {s : State} {c k n : Nat} {v : W64} (hn : n < 8) :
    s.writeOwn c k (0x1D0 + n) v = s.modSlot c k fun t => { t with tsh := put t.tsh n (keep v 0x71FFFF00) } := by
  simp (disch := omega) only [State.writeOwn, inRange_iff, if_neg, if_pos, Nat.add_sub_cancel_left]

theorem writeOwn_ash {s : State} {c k n : Nat} {v : W64} (hn : n < 4) :
    s.writeOwn c k (0x1D8 + n) v = s.modSlot c k fun t => { t with ash := put t.ash n (keep v 0xFF7F01) } := by
  simp (disch := omega) only [State.writeOwn, inRange_iff, if_neg, if_pos, Nat.add_sub_cancel_left]

theorem cregRoAtU_shape {n : Nat} (h : (0x100 ≤ n ∧ n ≤ 0x17F) ∨ (0x1D0 ≤ n ∧ n ≤ 0x1DB)) : cregRoAtU n = false := by
  simp only [cregRoAtU, Bool.or_eq_false_iff, inRange_false, beq_eq_false_iff_ne]
  omega

/-- MOVTC of BFMTn writes the format of the bank that the task holds as its bank n (R93). -/
theorem movtc_bfmt {s : State} {a : BitVec 6} {n p : Nat} (b : s.begun) (ready : s.me.readyS a) (hn : n < 128)
    (bank : (s.taskOf s.cur.core s.me.task).banks[n]? = some p) :
    s.WritesCore a (BitVec.ofNat 14 (0x100 + n)) (fun x => { x with bfmt := [] })
      (fun x => ∀ j, look 0 x.bfmt j = if j = p then s.me.scalar a &&& 0xFF07 else look 0 s.myCore.bfmt j) := by
  have e : (BitVec.ofNat 14 (0x100 + n)).toNat = 0x100 + n := toNat_cregNumber (by omega)
  have user := cregPriv_low (n := 0x100 + n) (by omega) (by omega)
  refine movtc_modCore b ready ?_ (fun x => { x with bfmt := put x.bfmt p (keep (s.me.scalar a) 0xFF07) }) (fun j => ?_) ?_
  · rw [e]
    exact ⟨cregCheck_ok (by simp [user]) (beyond_bank hn bank), ⟨(inRange_false _ _ _).2 (by omega), by omega⟩,
      .inr (cregRoAtU_shape (by omega))⟩
  · exact look_put_eq j
  · rw [e, writeCreg_own (cregOwn_of_range (by omega)) (by omega), writeOwn_bfmt hn bank]

/-- MOVTC of a shadow shape writes it (R209). -/
theorem movtc_shape {s : State} {a : BitVec 6} {n : Nat} {but : Slot → Slot} {held : Slot → Prop} (b : s.begun)
    (ready : s.me.readyS a) (lo : 0x1D0 ≤ n) (hi : n ≤ 0x1DB) (f : Slot → Slot) (new : held (f s.me))
    (write : s.writeOwn s.cur.core s.cur.slot n (s.me.scalar a) = s.modSlot s.cur.core s.cur.slot f)
    (keeps : WritesRegister f but := by exact ⟨fun _ => rfl, fun _ => rfl⟩)
    (still : ∀ x : Slot, held x.still = held x := by exact fun _ => rfl) : s.WritesOwn a (BitVec.ofNat 14 n) but held := by
  have e : (BitVec.ofNat 14 n).toNat = n := toNat_cregNumber (by omega)
  refine movtc_own b ready ?_ f new (by rw [e, write]) keeps still (by rw [e]; exact cregOwn_of_range (by omega)) (by omega)
  rw [e]
  exact mayWrite_user (cregPlain_shadow lo hi) (cregPriv_low (by omega) (by omega)) ⟨(inRange_false _ _ _).2 (by omega), by omega⟩
    (cregRoAtU_shape (by omega))

/-- A MOVTC whose write is the change `f` of the thread with the change `g` of its core. -/
theorem movtc_both {s : State} {a : BitVec 6} {n : BitVec 14} {but : Slot → Slot} {butCore : Core → Core} {held : Slot → Prop}
    {heldCore : Core → Prop} (b : s.begun) (ready : s.me.readyS a) (may : s.mayWrite n.toNat) (f : Slot → Slot) (g : Core → Core)
    (new : held (f s.me)) (newCore : ∀ x, heldCore (g x))
    (write : s.writeOwn s.cur.core s.cur.slot n.toNat (s.me.scalar a) = (s.modSlot s.cur.core s.cur.slot f).modCore s.cur.core g)
    (keeps : WritesRegister f but) (still : ∀ x : Slot, held x.still = held x) (slots : ∀ x, (g x).slots = x.slots)
    (rest : ∀ x, butCore { g x with slots := [] } = butCore { x with slots := [] })
    (stillCore : ∀ x : Core, heldCore { x with slots := [] } = heldCore x)
    (own : cregOwn n.toNat = true) (now : n.toNat ≠ 0x311 ∧ n.toNat ≠ 0x339) :
    ∃ t, exec (.movtc a n) s = .next t ∧ Passed s t s.me.next.pc but ∧ held (t.thread s) ∧ Beyond whole butCore s t ∧
      heldCore (t.core s.cur.core) := by
  have ok := (writeCreg_own own now).trans (congrArg (fun x => Except.ok ((), x)) write)
  obtain ⟨t, h1, h2, h3, h4⟩ := movtc_passes b ready may ok rfl (slot_modCore slots) keeps
  have thread : Beyond whole butCore s (s.modSlot s.cur.core s.cur.slot f) := .of_only (.setMe s _)
  have core : Beyond whole butCore s ((s.modSlot s.cur.core s.cur.slot f).modCore s.cur.core g) :=
    thread.trans (.modCore (s.modSlot s.cur.core s.cur.slot f) g slots rest) rfl rfl
  refine ⟨t, h1, h3, by rw [h4, past_holds still]; exact new, core.trans (.of_only h2) rfl rfl, ?_⟩
  rw [← stillCore, h2.cores, stillCore, core_modCore, if_pos rfl]
  exact newCore _

/-- MOVTC of FSTAT writes the thread's fields, and TOPINF at the core (R100, R102). -/
theorem movtc_fstat {s : State} {a : BitVec 6} (b : s.begun) (ready : s.me.readyS a) :
    ∃ t, exec (.movtc a 0x006) s = .next t ∧ Passed s t s.me.next.pc (fun x => { x with fstat := 0 }) ∧
      (t.thread s).fstat = s.me.scalar a &&& 0x71F ∧ Beyond whole (fun x => { x with topinf := false }) s t ∧
      (t.core s.cur.core).topinf = bitAt (s.me.scalar a) 11 :=
  movtc_both (held := fun x => x.fstat = s.me.scalar a &&& 0x71F) (heldCore := fun x => x.topinf = bitAt (s.me.scalar a) 11) b ready
    mayWrite_user (fun x => { x with fstat := keep (s.me.scalar a) 0x71F }) (fun x => { x with topinf := bitAt (s.me.scalar a) 11 }) rfl
    (fun _ => rfl) rfl ⟨fun _ => rfl, fun _ => rfl⟩ (fun _ => rfl) (fun _ => rfl) (fun _ => rfl) (fun _ => rfl) (by decide) (by decide)

theorem satAt_eq_min (m n : Nat) : satAt m n = Nat.min m n := by
  unfold satAt
  split
  · next h => exact (Nat.min_eq_left (Nat.le_of_lt h)).symm
  · next h => exact (Nat.min_eq_right (Nat.not_lt.1 h)).symm

theorem setWidth_eq_field (v : W64) (n : Nat) : v.setWidth n = v.extractLsb' 0 n := by
  apply BitVec.eq_of_toNat_eq
  simp

/-- R13, R215, R238: each register named takes its writable bits, and at U one that U may only read keeps its value. -/
theorem controlWrites : Sys2Proof.Says.ControlWrites := by
  intro s a b ready r v own core
  have ownIs {n but held} (h : s.WritesOwn a n but held) : own n but held := h
  have coreIs {n but held} (h : s.WritesCore a n but held) : core n but held := h
  clear_value own core
  refine ⟨⟨ownIs ?dspill, ownIs ?chcfg, ownIs ?qrpc, ownIs ?mxcfg, coreIs ?srcfg, coreIs ?srbase, movtc_fstat b ready,
      fun n p hn bank => coreIs (movtc_bfmt b ready hn bank),
      fun n hn => ownIs (movtc_shape b ready (by omega) (by omega) _ look_put_eq (writeOwn_tsh hn)),
      fun n hn => ownIs (movtc_shape b ready (by omega) (by omega) _ look_put_eq (writeOwn_ash hn))⟩,
    fun user => ⟨movtc_ignored b ready user, movtc_ignored b ready user, movtc_ignored b ready user, movtc_ignored b ready user⟩,
    fun priv => ⟨coreIs ?colwin, ownIs ?sptagsel, ownIs ?epc, ownIs ?ecause, ownIs ?eaddr, ownIs ?estat, ownIs ?evec, ownIs ?dsmask,
      ownIs ?esmask, ownIs ?ptroot, ownIs ?aspace, coreIs ?gown, coreIs ?filldrop, coreIs ?devec⟩⟩
  case dspill => exact movtc_own b ready mayWrite_user (fun x => { x with dspill := v &&& ~~~ 63 }) (clear_low v 6)
  case chcfg => exact movtc_own b ready mayWrite_user (fun x => { x with chcfg := keep v 0xFFFFFFFF }) (keep_low v 32 (by decide))
  case qrpc => exact movtc_own b ready mayWrite_user (fun x => { x with qrpc := v &&& ~~~ 3 }) (clear_low v 2)
  case mxcfg => exact movtc_own b ready mayWrite_user (fun x => { x with mxcfg := keep v 0x7FF7F7F0377 }) rfl
  case srcfg => exact movtc_core b ready r mayWrite_user (fun x => { x with srcfg := keep v 0xFFFF000000007F01 }) rfl
  case srbase => exact movtc_core b ready r mayWrite_user (fun x => { x with srbase := v }) rfl
  case colwin =>
    exact movtc_core b ready r (mayWrite_super priv) (fun x => { x with colwin := satAt 64 (fieldN v 0 7) })
      ((satAt_eq_min _ _).trans (by simp [fieldN]))
  case sptagsel => exact movtc_own b ready (mayWrite_super priv) (fun x => { x with sptagsel := keep v 0x7FFC0 }) rfl
  case epc => exact movtc_own b ready (mayWrite_super priv) (fun x => { x with epc := v }) rfl
  case ecause => exact movtc_own b ready (mayWrite_super priv) (fun x => { x with ecause := keep v 0xFF }) (keep_low v 8 (by decide))
  case eaddr => exact movtc_own b ready (mayWrite_super priv) (fun x => { x with eaddr := v }) rfl
  case estat => exact movtc_own b ready (mayWrite_super priv) (fun x => { x with estat := keep v 0x100FFFFFF }) rfl
  case evec => exact movtc_own b ready (mayWrite_super priv) (fun x => { x with evec := v &&& ~~~ 3 }) (clear_low v 2)
  case dsmask =>
    exact movtc_own b ready (mayWrite_super priv) (fun x => { x with act := v.setWidth 16, hlp := BitVec.ofNat 16 (fieldN v 16 16) })
      ⟨setWidth_eq_field v 16, ofNat_fieldN v 16 16⟩
  case esmask =>
    exact movtc_own b ready (mayWrite_super priv) (fun x => { x with esA := v.setWidth 16, esH := BitVec.ofNat 16 (fieldN v 16 16) })
      ⟨setWidth_eq_field v 16, ofNat_fieldN v 16 16⟩
  case ptroot => exact movtc_own b ready (mayWrite_super priv) (fun x => { x with ptroot := keep v 0xFFFFFFFFFC000 }) rfl
  case aspace => exact movtc_own b ready (mayWrite_super priv) (fun x => { x with aspace := v.setWidth 16 }) (setWidth_eq_field v 16)
  case gown => exact movtc_core b ready r (mayWrite_super priv) (fun x => { x with gown := keep v 0x1F }) rfl
  case filldrop =>
    exact movtc_core b ready r (mayWrite_super priv) (fun x => { x with filldrop := v.setWidth 32 }) (setWidth_eq_field v 32)
  case devec => exact movtc_core b ready r (mayWrite_super priv) (fun x => { x with devec := v &&& ~~~ 3 }) (clear_low v 2)

/-- Settles O14: the registers of the thread, of its core and of the module, each read and written through the lemma for where it stands. -/
theorem controlRegisters : Obligations.ControlRegisters := ⟨controlReads, controlWrites⟩

end Sys2Proof.Machine
end

section
/-! PROOF. O58, refuted: EventsLeaveThreads speaks of every state, and in a state whose pair does not agree an event that ends one thread's
wait writes a register of a thread that belongs to no pair. -/

namespace Sys2Proof.Machine

/-- A state whose pair does not agree: the thread in slot 0 sleeps and trails slot 1, but slot 1 leads slot 2, and its load-value queue
holds a register fill of s5 for its trailing thread; slot 2 belongs to no pair. -/
def crossedPair : State :=
  { cores := [(0, { slots := [
      (0, { wait := .busy 3 (.sleep 0), role := .trailing 1 }),
      (1, { role := .leading 2, lvq := [{ key := fillKey 5, vals := some [7], at_ := some 0 }] })] })] }

/-- As the sleeping thread goes on, it looks at the fills of the thread that it trails, and the fill lands in slot 2. -/
theorem sleepWake_crossedPair : ∃ t, exec (.sleepWake 0 0) crossedPair = .next t ∧ (t.slot 0 2).scalar 5 = 7 := ⟨_, rfl, by decide⟩

/-- The premise of EventsLeaveThreads holds of slot 2, whose s5 is 0. -/
theorem crossedPair_bystander : crossedPair.noLanding 0 2 = true ∧ (crossedPair.slot 0 2).scalar 5 = 0 := by decide

/-- The registers that the statement compares hold the scalar ones. -/
theorem registers_scalar (u : Slot) (n : BitVec 6) : u.registers.scalar n = u.scalar n := rfl

/-- Refutes O58: in `crossedPair` SLEEP_WAKE of slot 0 writes s5 of slot 2. The premise that no fill lands is about the thread whose
registers are compared, and nothing in the statement asks that a leading thread's pair be the thread that trails it. -/
theorem not_whatTheRestLeavesAlone : ¬ Obligations.WhatTheRestLeavesAlone := by
  unfold Obligations.WhatTheRestLeavesAlone
  rintro ⟨-, events, -⟩
  obtain ⟨t, wakes, filled⟩ := sleepWake_crossedPair
  obtain ⟨noFill, empty⟩ := crossedPair_bystander
  obtain ⟨threads, -⟩ := events crossedPair t (.sleepWake 0 0) 0 0 0 0 0 0 0 wakes (by simp)
  have kept : (t.slot 0 2).registers = (crossedPair.slot 0 2).registers := (threads 0 2).1 noFill
  have changed : (7 : W64) = 0 := by
    rw [← filled, ← empty, ← registers_scalar, kept, registers_scalar]
  exact absurd changed (by decide)

end Sys2Proof.Machine
end

section
/-! PROOF. O53 and O54: the decoder and the encoder are inverse. A field reads back from a word that was put together, row by row of the tables;
and a word is the sum of the fields of its format (R18), so that what a row reads and what it requires make the word again. -/

namespace Sys2Proof

/-! ### Reading a word that was put together -/

/-- Bits of a word, of the number that it is made of. -/
theorem bits_of_word {N lo k : Nat} (h : lo + k ≤ 32) : bits (word N) lo k = N / 2 ^ lo % 2 ^ k := by
  obtain ⟨j, e⟩ := Nat.exists_eq_add_of_le h
  simp only [bits, word, BitVec.toNat_ofNat]
  rw [e, show 2 ^ (lo + k + j) = 2 ^ lo * (2 ^ k * 2 ^ j) by ring, Nat.mod_mul_right_div_self, Nat.mod_mul_right_mod]

/-- Bits of a word are the bits of its two parts. -/
theorem bits_append (w : BitVec 32) (lo n m : Nat) : bits w lo (n + m) = bits w lo n + 2 ^ n * bits w (lo + n) m := by
  simp only [bits, Nat.pow_add, ← Nat.div_div_eq_div_mul]
  exact Nat.mod_mul ..

/-- Two numbers that agree from bit `p` on make words that agree there. -/
theorem bits_congr_div {M N p lo k : Nat} (h : p ≤ lo) (e : M / 2 ^ p = N / 2 ^ p) : bits (word M) lo k = bits (word N) lo k := by
  obtain ⟨j, rfl⟩ := Nat.exists_eq_add_of_le h
  simp only [bits, word, BitVec.toNat_ofNat, Nat.pow_add 2 p j, ← Nat.div_div_eq_div_mul]
  rcases Nat.le_total p 32 with hp | hp
  · obtain ⟨r, hr⟩ := Nat.exists_eq_add_of_le hp
    rw [hr, Nat.pow_add, Nat.mod_mul_right_div_self, Nat.mod_mul_right_div_self, e]
  · have small (n : Nat) : n % 2 ^ 32 < 2 ^ p :=
      (Nat.mod_lt n (Nat.two_pow_pos 32)).trans_le (Nat.pow_le_pow_right (by omega) hp)
    rw [Nat.div_eq_of_lt (small M), Nat.div_eq_of_lt (small N)]

theorem div_put {M p n : Nat} (x : BitVec n) : (M + put x p) / 2 ^ p = M / 2 ^ p + x.toNat :=
  Nat.add_mul_div_right _ _ (Nat.two_pow_pos p)

/-- A field above the bits that are read. -/
theorem bits_put_above {M lo k p n : Nat} (x : BitVec n) (h : lo + k ≤ p) : bits (word (M + put x p)) lo k = bits (word M) lo k := by
  obtain ⟨j, rfl⟩ := Nat.exists_eq_add_of_le h
  rcases Nat.le_total (lo + k) 32 with hw | hw
  · rw [bits_of_word hw, bits_of_word hw, put,
      show x.toNat * 2 ^ (lo + k + j) = 2 ^ lo * (2 ^ k * (x.toNat * 2 ^ j)) by ring, Nat.add_mul_div_left _ _ (Nat.two_pow_pos lo),
      Nat.add_mul_mod_self_left]
  · obtain ⟨r, hr⟩ := Nat.exists_eq_add_of_le hw
    rw [word, word, put, hr, show x.toNat * 2 ^ (32 + r + j) = 2 ^ 32 * (x.toNat * 2 ^ (r + j)) by ring]
    congr 1
    apply BitVec.eq_of_toNat_eq
    simp only [BitVec.toNat_ofNat, Nat.add_mul_mod_self_left]

/-- A field below the bits that are read, put where nothing stood. -/
theorem bits_put_below {M lo k p n : Nat} (x : BitVec n) (h : p + n ≤ lo) (clear : bits (word M) p n = 0) :
    bits (word (M + put x p)) lo k = bits (word M) lo k := by
  rcases Nat.lt_or_ge 32 (p + n) with hp | hp
  · have zero (N : Nat) : bits (word N) lo k = 0 := by
      rw [bits, Nat.div_eq_of_lt ((word N).isLt.trans_le (Nat.pow_le_pow_right (by omega) (by omega))), Nat.zero_mod]
    rw [zero, zero]
  · rw [bits_of_word hp] at clear
    refine bits_congr_div h ?_
    have := x.isLt
    rw [Nat.pow_add, ← Nat.div_div_eq_div_mul, ← Nat.div_div_eq_div_mul, div_put, Nat.add_div (Nat.two_pow_pos n), clear,
      Nat.div_eq_of_lt x.isLt, Nat.zero_add, Nat.mod_eq_of_lt x.isLt, if_neg (by omega)]
    rfl

/-- The field that is read. -/
theorem bits_put_same {M p n : Nat} (x : BitVec n) (h : p + n ≤ 32) (clear : bits (word M) p n = 0) :
    bits (word (M + put x p)) p n = x.toNat := by
  rw [bits_of_word h] at clear ⊢
  rw [div_put, Nat.add_mod, clear, Nat.zero_add, Nat.mod_mod, Nat.mod_eq_of_lt x.isLt]

theorem fld_congr {v w : BitVec 32} {lo n : Nat} (h : bits v lo n = bits w lo n) : (fld v lo : BitVec n) = fld w lo :=
  fld_eq v lo _ (by simpa only [fld, BitVec.toNat_ofNat, bits] using h)

/-- Reading a word that was put together from the highest field to the lowest: fields beside the one that is read fall away, and of a word
without fields the bits are those of its number. -/
theorem reads_of_word :
    (∀ {M lo k p n} (x : BitVec n), lo + k ≤ p → bits (word (M + put x p)) lo k = bits (word M) lo k) ∧
    (∀ {M lo k p n} (x : BitVec n), p + n ≤ lo → bits (word M) p n = 0 → bits (word (M + put x p)) lo k = bits (word M) lo k) ∧
    (∀ {M lo k p n} (x : BitVec n), lo + k ≤ p → (fld (word (M + put x p)) lo : BitVec k) = fld (word M) lo) ∧
    (∀ {M lo k p n} (x : BitVec n), p + n ≤ lo → bits (word M) p n = 0 →
      (fld (word (M + put x p)) lo : BitVec k) = fld (word M) lo) ∧
    (∀ {M p n} (x : BitVec n), p + n ≤ 32 → bits (word M) p n = 0 → fld (word (M + put x p)) p = x) ∧
    (∀ {N lo k : Nat}, lo + k ≤ 32 → bits (word (no_index (OfNat.ofNat N))) lo k = OfNat.ofNat N / 2 ^ lo % 2 ^ k) :=
  ⟨bits_put_above, bits_put_below, fun x h => fld_congr (bits_put_above x h), fun x h c => fld_congr (bits_put_below x h c),
   fun x h c => fld_eq _ _ x (bits_put_same x h c), bits_of_word⟩

theorem requires_true (i : Instr) : requires true i = some i := rfl

/-! ### Every encoded instruction decodes -/

/-- An instruction has a word, and the fields of that word are the instruction's. -/
def Decodes (i : Instr) : Prop := ∃ w, encode i = some w ∧ decodeFields w = some i

theorem decodes_of {i : Instr} {w : BitVec 32} (he : encode i = some w) (hd : decodeFields w = some i) : Decodes i := ⟨w, he, hd⟩

/-- The words of majors 0x01 to 0x0F, but for MOVTC, whose register must not be s0. -/
theorem decodes_scalar :
    (∀ d a b, Decodes (.add d a b) ∧ Decodes (.sub d a b) ∧ Decodes (.and d a b) ∧ Decodes (.or d a b) ∧ Decodes (.xor d a b) ∧
      Decodes (.andn d a b) ∧ Decodes (.sll d a b) ∧ Decodes (.srl d a b) ∧ Decodes (.sra d a b) ∧ Decodes (.rol d a b) ∧
      Decodes (.ror d a b) ∧ Decodes (.slt d a b) ∧ Decodes (.sltu d a b) ∧ Decodes (.min d a b) ∧ Decodes (.max d a b) ∧
      Decodes (.minu d a b) ∧ Decodes (.maxu d a b) ∧ Decodes (.addw d a b) ∧ Decodes (.subw d a b) ∧ Decodes (.mul d a b) ∧
      Decodes (.mulh d a b) ∧ Decodes (.mulhu d a b) ∧ Decodes (.mulhsu d a b) ∧ Decodes (.div d a b) ∧ Decodes (.divu d a b) ∧
      Decodes (.rem d a b) ∧ Decodes (.remu d a b) ∧ Decodes (.mulw d a b) ∧ Decodes (.divw d a b) ∧ Decodes (.divwu d a b) ∧
      Decodes (.remw d a b) ∧ Decodes (.remwu d a b) ∧ Decodes (.slli d a b) ∧ Decodes (.srli d a b) ∧ Decodes (.srai d a b) ∧
      Decodes (.rori d a b)) ∧
    (∀ d a, Decodes (.clz d a) ∧ Decodes (.ctz d a) ∧ Decodes (.popc d a) ∧ Decodes (.sextb d a) ∧ Decodes (.sexth d a) ∧
      Decodes (.sextw d a) ∧ Decodes (.tstf d a) ∧ Decodes (.rfill d a) ∧ Decodes (.rdfe d a) ∧ Decodes (.wrfe d a) ∧
      Decodes (.tlbinv d a)) ∧
    (∀ d a b, Decodes (.addi d a b) ∧ Decodes (.slti d a b) ∧ Decodes (.sltiu d a b) ∧ Decodes (.andi d a b) ∧ Decodes (.ori d a b) ∧
      Decodes (.xori d a b)) ∧
    (∀ d a, Decodes (.ldhi d a) ∧ Decodes (.pcrel d a)) ∧
    (∀ d a b, Decodes (.afset d a b)) ∧
    (∀ d a, Decodes (.afbase d a) ∧ Decodes (.afstr d a)) ∧
    (∀ d a b, Decodes (.afadd d a b)) ∧
    (∀ d a, Decodes (.afstep d a) ∧ Decodes (.afmov d a)) ∧
    (∀ d a, Decodes (.afrdb d a) ∧ Decodes (.afrds d a)) ∧
    (∀ d, Decodes (.sete d) ∧ Decodes (.setf d) ∧ Decodes (.trap d) ∧ Decodes (.bkpt d) ∧ Decodes (.sleep d) ∧ Decodes (.icinv d)) ∧
    (∀ d a, Decodes (.gld d a) ∧ Decodes (.gldfe d a)) ∧
    (∀ d a, Decodes (.gst d a) ∧ Decodes (.gstfe d a)) ∧
    (∀ d, Decodes (.vsete d)) ∧
    (∀ d a, Decodes (.vtstf d a)) ∧
    (∀ d a, Decodes (.qpushc d a) ∧ Decodes (.qstat d a)) ∧
    (∀ d a, Decodes (.movc d a)) ∧
    (Decodes .eret ∧ Decodes .yield ∧ Decodes .halt) := by
  and_intros
  all_goals intros
  all_goals and_intros
  all_goals refine decodes_of rfl ?_
  all_goals simp only [decodeFields, decInt, decMulDiv, decAddi, decSlti, decSltiu, decAndi, decOri, decXori, decShiftImm, decLdhi,
    decPcrel, decAffine, decRegState, decControl, decSystem, requires_true, beq_self_eq_true, Bool.and_self, if_true, reads_of_word,
    Nat.reduceAdd, Nat.reduceLeDiff, Nat.reducePow, Nat.reduceDiv, Nat.reduceMod]

/-- The words of majors 0x10 to 0x17. -/
theorem decodes_flow :
    (∀ d a b, Decodes (.beq d a b) ∧ Decodes (.bne d a b) ∧ Decodes (.blt d a b) ∧ Decodes (.bge d a b) ∧ Decodes (.bltu d a b) ∧
      Decodes (.bgeu d a b)) ∧
    (∀ d, Decodes (.br d) ∧ Decodes (.call d)) ∧
    (∀ d a b, Decodes (.jalr d a b)) ∧
    (∀ d a, Decodes (.bany d a) ∧ Decodes (.ball d a) ∧ Decodes (.bnone d a) ∧ Decodes (.bnall d a)) ∧
    (∀ d, Decodes (.dif d) ∧ Decodes (.dbrk d)) ∧
    (Decodes .delse ∧ Decodes .dend ∧ Decodes .whole ∧ Decodes .wholeH ∧ Decodes .endwhole ∧ Decodes .chpub ∧ Decodes .chclose ∧
      Decodes .chunsub ∧ Decodes .chsync ∧ Decodes .quit ∧ Decodes .qret) ∧
    (∀ d, Decodes (.chsub d) ∧ Decodes (.spawn d) ∧ Decodes (.retv d) ∧ Decodes (.tdec d) ∧ Decodes (.migr d)) ∧
    (∀ d a, Decodes (.chleaveIf d a) ∧ Decodes (.chresub d a)) ∧
    (∀ d, Decodes (.chrdv d)) ∧
    (∀ d a, Decodes (.callat d a)) ∧
    (∀ d a b, Decodes (.tmake d a b)) := by
  and_intros
  all_goals intros
  all_goals and_intros
  all_goals refine decodes_of rfl ?_
  all_goals simp only [decodeFields, decBranch, decBr, decCall, decJalr, decMaskBranch, decDivergence, decChannel, decTask, requires_true,
    beq_self_eq_true, Bool.and_self, reads_of_word, Nat.reduceAdd, Nat.reduceLeDiff, Nat.reducePow, Nat.reduceDiv, Nat.reduceMod]

/-- The words of majors 0x18 to 0x1E. -/
theorem decodes_memory :
    (∀ d a b, Decodes (.ldB d a b) ∧ Decodes (.ldH d a b) ∧ Decodes (.ldW d a b) ∧ Decodes (.ldD d a b) ∧ Decodes (.ldBu d a b) ∧
      Decodes (.ldHu d a b) ∧ Decodes (.ldWu d a b) ∧ Decodes (.stB d a b) ∧ Decodes (.stH d a b) ∧ Decodes (.stW d a b) ∧
      Decodes (.stD d a b)) ∧
    (∀ d a b c e, Decodes (.ldfe d a b c e) ∧ Decodes (.ldff d a b c e) ∧ Decodes (.stfe d a b c e) ∧ Decodes (.stff d a b c e)) ∧
    (∀ d a b c, Decodes (.feclr d a b c)) ∧
    (∀ d a b c e, Decodes (.aadd d a b c e) ∧ Decodes (.aand d a b c e) ∧ Decodes (.aor d a b c e) ∧ Decodes (.axor d a b c e) ∧
      Decodes (.amin d a b c e) ∧ Decodes (.amax d a b c e) ∧ Decodes (.aminu d a b c e) ∧ Decodes (.amaxu d a b c e) ∧
      Decodes (.aswap d a b c e) ∧ Decodes (.acas d a b c e)) ∧
    (∀ d a b c, Decodes (.atomicAfadd d a b c)) ∧
    (∀ d, Decodes (.fence d)) ∧
    (∀ d a, Decodes (.barinit d a) ∧ Decodes (.bararr d a) ∧ Decodes (.barwait d a) ∧ Decodes (.barrd d a) ∧ Decodes (.pjoin d a) ∧
      Decodes (.pquery d a)) ∧
    (Decodes .pleave ∧ Decodes .bseal) ∧
    (∀ d, Decodes (.bwait d)) ∧
    (∀ d a, Decodes (.mbsend d a)) ∧
    (∀ d a, Decodes (.mbtake d a)) := by
  and_intros
  all_goals intros
  all_goals and_intros
  all_goals refine decodes_of rfl ?_
  all_goals simp only [decodeFields, decLoad, decStore, decSyncLoad, decSyncStore, decAtomic, decFenceBarrier, decPolderBatch,
    requires_true, beq_self_eq_true, Bool.and_self, reads_of_word, Nat.reduceAdd, Nat.reduceLeDiff, Nat.reducePow, Nat.reduceDiv, Nat.reduceMod]

/-- The words of majors 0x20 to 0x22, but for VCVT, whose function code holds two operands. -/
theorem decodes_vector :
    (∀ d a b c, Decodes (.vadd d a b c) ∧ Decodes (.vsub d a b c) ∧ Decodes (.vmul d a b c) ∧ Decodes (.vmulh d a b c) ∧
      Decodes (.vmulhu d a b c) ∧ Decodes (.vand d a b c) ∧ Decodes (.vor d a b c) ∧ Decodes (.vxor d a b c) ∧ Decodes (.vandn d a b c) ∧
      Decodes (.vsll d a b c) ∧ Decodes (.vsrl d a b c) ∧ Decodes (.vsra d a b c) ∧ Decodes (.vmin d a b c) ∧ Decodes (.vmax d a b c) ∧
      Decodes (.vminu d a b c) ∧ Decodes (.vmaxu d a b c) ∧ Decodes (.vadds d a b c) ∧ Decodes (.vsubs d a b c) ∧
      Decodes (.vaddsu d a b c) ∧ Decodes (.vsubsu d a b c) ∧ Decodes (.vfadd d a b c) ∧ Decodes (.vfsub d a b c) ∧
      Decodes (.vfmul d a b c) ∧ Decodes (.vfdiv d a b c) ∧ Decodes (.vfma d a b c) ∧ Decodes (.vfms d a b c) ∧
      Decodes (.vfnma d a b c) ∧ Decodes (.vfmin d a b c) ∧ Decodes (.vfmax d a b c)) ∧
    (∀ d a b, Decodes (.vabs d a b) ∧ Decodes (.vclz d a b) ∧ Decodes (.vpopc d a b) ∧ Decodes (.vfabs d a b) ∧ Decodes (.vfneg d a b) ∧
      Decodes (.vfsqrt d a b) ∧ Decodes (.vfrsq d a b) ∧ Decodes (.vfrcp d a b) ∧ Decodes (.vfexp2 d a b) ∧ Decodes (.vflog2 d a b) ∧
      Decodes (.vfsin d a b) ∧ Decodes (.vfcos d a b) ∧ Decodes (.vftanh d a b)) ∧
    (∀ d a b c, Decodes (.vceq d a b c) ∧ Decodes (.vclt d a b c) ∧ Decodes (.vcltu d a b c) ∧ Decodes (.vfceq d a b c) ∧
      Decodes (.vfclt d a b c) ∧ Decodes (.vfcle d a b c) ∧ Decodes (.vfcun d a b c)) := by
  and_intros
  all_goals intros
  all_goals and_intros
  all_goals refine decodes_of rfl ?_
  all_goals simp only [decodeFields, decVecInt, decVecFp, decVecFun, requires_true, beq_self_eq_true, reads_of_word, Nat.reduceAdd,
    Nat.reduceLeDiff, Nat.reducePow, Nat.reduceDiv, Nat.reduceMod]

/-- The words of majors 0x23 to 0x27. -/
theorem decodes_lanes :
    (∀ d a b c, Decodes (.vperm d a b c) ∧ Decodes (.vsel d a b c)) ∧
    (∀ d a b c, Decodes (.qxch d a b c) ∧ Decodes (.qbcast d a b c)) ∧
    (∀ d a b c, Decodes (.vshup d a b c) ∧ Decodes (.vshdn d a b c) ∧ Decodes (.vldx d a b c) ∧ Decodes (.vstx d a b c) ∧
      Decodes (.vldxW d a b c) ∧ Decodes (.vstxW d a b c)) ∧
    (∀ d a b, Decodes (.vradd d a b) ∧ Decodes (.vraddi d a b) ∧ Decodes (.vrmax d a b) ∧ Decodes (.vrmin d a b) ∧
      Decodes (.vscan d a b) ∧ Decodes (.vscani d a b) ∧ Decodes (.vmov d a b)) ∧
    (∀ d a b, Decodes (.vbcast d a b)) ∧
    (∀ d a b, Decodes (.vext d a b)) ∧
    (∀ d a b c, Decodes (.vins d a b c)) ∧
    (∀ d a b, Decodes (.kand d a b) ∧ Decodes (.kor d a b) ∧ Decodes (.kxor d a b)) ∧
    (∀ d a, Decodes (.knot d a) ∧ Decodes (.kmov d a) ∧ Decodes (.elect d a)) ∧
    (∀ d a, Decodes (.ktos d a) ∧ Decodes (.stok d a) ∧ Decodes (.vany d a) ∧ Decodes (.vall d a) ∧ Decodes (.kpopc d a)) ∧
    (∀ d a b c, Decodes (.vld d a b c) ∧ Decodes (.vst d a b c)) := by
  and_intros
  all_goals intros
  all_goals and_intros
  all_goals refine decodes_of rfl ?_
  all_goals simp only [decodeFields, decCrossLane, decVecMove, decVld, decVst, decVecIndexed, requires_true, beq_self_eq_true,
    Bool.and_self, reads_of_word, Nat.reduceAdd, Nat.reduceLeDiff, Nat.reducePow, Nat.reduceDiv, Nat.reduceMod]

/-- The words of major 0x28. -/
theorem decodes_engine :
    (∀ d a b c e, Decodes (.slcopy d a b c e) ∧ Decodes (.slcopy2 d a b c e)) ∧
    (∀ d a b c, Decodes (.slgath d a b c) ∧ Decodes (.slscat d a b c) ∧ Decodes (.slsend d a b c) ∧ Decodes (.slrecv d a b c) ∧
      Decodes (.sldred d a b c) ∧ Decodes (.slquiesce d a b c) ∧ Decodes (.slresume d a b c) ∧ Decodes (.had d a b c)) ∧
    (∀ d a b, Decodes (.slfill d a b) ∧ Decodes (.slpat d a b)) ∧
    (∀ d a, Decodes (.slstat d a) ∧ Decodes (.tzero d a) ∧ Decodes (.acczero d a) ∧ Decodes (.rgclose d a)) ∧
    (∀ d a b, Decodes (.tld d a b) ∧ Decodes (.tst d a b) ∧ Decodes (.tquant d a b)) ∧
    (Decodes .mma ∧ Decodes .mxrun) ∧
    (∀ d a b, Decodes (.spmma d a b) ∧ Decodes (.spmmat d a b)) ∧
    (∀ d a b, Decodes (.accrd d a b) ∧ Decodes (.accst d a b) ∧ Decodes (.psld d a b) ∧ Decodes (.prank d a b) ∧
      Decodes (.pschk d a b)) ∧
    (∀ d a, Decodes (.mxrec d a) ∧ Decodes (.rgopen d a) ∧ Decodes (.rgstat d a)) ∧
    (∀ d a b c, Decodes (.psgen d a b c)) ∧
    (∀ d a, Decodes (.pssave d a) ∧ Decodes (.psrest d a)) := by
  and_intros
  all_goals intros
  all_goals and_intros
  all_goals refine decodes_of rfl ?_
  all_goals simp only [decodeFields, decEngine, requires_true, beq_self_eq_true, Bool.and_self, reads_of_word, Nat.reduceAdd, Nat.reduceLeDiff,
    Nat.reducePow, Nat.reduceDiv, Nat.reduceMod]

theorem decodes_movtc {a : BitVec 6} (c : BitVec 14) (h : a ≠ 0) : Decodes (.movtc a c) := by
  refine decodes_of rfl ((decodeFields_0e ?_).trans ?_)
  · simp only [reads_of_word, Nat.reduceAdd, Nat.reduceLeDiff, Nat.reducePow, Nat.reduceDiv, Nat.reduceMod]
  · have operand : bits (word (0x38000000 + put a 14)) 14 6 ≠ 0 := by
      rw [bits_put_same a (by omega) (by decide)]
      exact fun e => h (BitVec.eq_of_toNat_eq e)
    simp only [decControl, reads_of_word, operand, if_true, if_false, Nat.reduceAdd, Nat.reduceLeDiff, Nat.reducePow, Nat.reduceDiv, Nat.reduceMod]

theorem decodes_vcvt (d a : BitVec 5) (k f t : BitVec 3) : Decodes (.vcvt d a k f t) := by
  refine decodes_of rfl ((decodeFields_22 ?_).trans ?_)
  · simp only [reads_of_word, Nat.reduceAdd, Nat.reduceLeDiff, Nat.reducePow, Nat.reduceDiv, Nat.reduceMod]
  · generalize hw : word (0x88000040 + put d 21 + put a 16 + put k 8 + put f 3 + put t 0) = w
    have top : bits w 6 2 = 1 := by
      rw [← hw]; simp only [reads_of_word, Nat.reduceAdd, Nat.reduceLeDiff, Nat.reducePow, Nat.reduceDiv, Nat.reduceMod]
    have fn : bits w 0 8 = bits w 0 6 + 64 * bits w 6 2 := bits_append w 0 6 2
    unfold decVecFun
    split
    case h_9 => 
      rw [top]; rw [← hw]
      simp only [requires_true, beq_self_eq_true, Bool.and_self, reads_of_word, Nat.reduceAdd, Nat.reduceLeDiff, Nat.reducePow, Nat.reduceDiv, Nat.reduceMod]
    all_goals omega

/-- Every encoded instruction with the field values that R48 allows decodes. -/
theorem decodes_of_encoded (i : Instr) (he : i.encoded = true) (hw : i.wf = true) : Decodes i := by
  cases i
  all_goals cases he
  case movtc a c => exact decodes_movtc c (bne_iff_ne.1 (Bool.and_eq_true_iff.1 hw).1)
  all_goals simp only [decodes_scalar, decodes_flow, decodes_memory, decodes_vector, decodes_vcvt, decodes_lanes, decodes_engine]

/-! ### A word that decodes is the encoding of its instruction -/

/-- Every instruction that `o` may hold encodes to `w`. -/
def EncodesTo (w : BitVec 32) (o : Option Instr) : Prop := ∀ i, o = some i → encode i = some w

theorem encodesTo_none (w : BitVec 32) : EncodesTo w none := fun _ h => nomatch h

theorem encodesTo_some {w : BitVec 32} {i : Instr} : EncodesTo w (some i) ↔ encode i = some w :=
  ⟨fun h => h i rfl, fun h _ e => Option.some.inj e ▸ h⟩

theorem encodesTo_requires {w : BitVec 32} {b : Bool} {i : Instr} : EncodesTo w (requires b i) ↔ (b = true → encode i = some w) := by
  cases b
  · exact ⟨fun _ h => (nomatch h), fun _ => encodesTo_none w⟩
  · exact encodesTo_some.trans ⟨fun h _ => h, fun h => h rfl⟩

/-- What the rows of a table say of a word that they encode to, with the checks of R19 as equations of bits. -/
theorem encodesTo_rows :
    (∀ w, EncodesTo w none) ∧ (∀ {w i}, EncodesTo w (some i) ↔ encode i = some w) ∧
    (∀ {w b i}, EncodesTo w (requires b i) ↔ (b = true → encode i = some w)) ∧
    (∀ {b c : Bool}, (b && c) = true ↔ b = true ∧ c = true) ∧ ∀ {m n : Nat}, (m == n) = true ↔ m = n :=
  ⟨encodesTo_none, encodesTo_some, encodesTo_requires, Bool.and_eq_true_iff, beq_iff_eq⟩

theorem word_eq_of_toNat {n : Nat} {w : BitVec 32} (h : n = w.toNat) : word n = w := by
  rw [h, word, BitVec.ofNat_toNat, BitVec.setWidth_eq]

theorem put_fld {n : Nat} (w : BitVec 32) (lo : Nat) : put (fld w lo : BitVec n) lo = bits w lo n * 2 ^ lo := by
  simp only [put, fld, bits, BitVec.toNat_ofNat]

/-! The formats of R18: a word is the sum of its format's fields. -/

theorem toNat_eq_bits (w : BitVec 32) : w.toNat = bits w 0 32 := by
  rw [bits, Nat.pow_zero, Nat.div_one, Nat.mod_eq_of_lt w.isLt]

theorem toNat_formatR (w : BitVec 32) :
    w.toNat = bits w 0 8 + 2 ^ 8 * bits w 8 6 + 2 ^ 14 * bits w 14 6 + 2 ^ 20 * bits w 20 6 + 2 ^ 26 * bits w 26 6 := by
  rw [toNat_eq_bits, bits_append w 0 26 6, bits_append w 0 20 6, bits_append w 0 14 6, bits_append w 0 8 6]

theorem toNat_formatI (w : BitVec 32) :
    w.toNat = bits w 0 14 + 2 ^ 14 * bits w 14 6 + 2 ^ 20 * bits w 20 6 + 2 ^ 26 * bits w 26 6 := by
  rw [toNat_eq_bits, bits_append w 0 26 6, bits_append w 0 20 6, bits_append w 0 14 6]

theorem toNat_formatLS (w : BitVec 32) :
    w.toNat = bits w 0 11 + 2 ^ 11 * bits w 11 3 + 2 ^ 14 * bits w 14 6 + 2 ^ 20 * bits w 20 6 + 2 ^ 26 * bits w 26 6 := by
  rw [toNat_eq_bits, bits_append w 0 26 6, bits_append w 0 20 6, bits_append w 0 14 6, bits_append w 0 11 3]

theorem toNat_formatU (w : BitVec 32) :
    w.toNat = bits w 0 20 + 2 ^ 20 * bits w 20 6 + 2 ^ 26 * bits w 26 6 := by
  rw [toNat_eq_bits, bits_append w 0 26 6, bits_append w 0 20 6]

theorem toNat_formatB (w : BitVec 32) :
    w.toNat = bits w 0 11 + 2 ^ 11 * bits w 11 6 + 2 ^ 17 * bits w 17 6 + 2 ^ 23 * bits w 23 3 + 2 ^ 26 * bits w 26 6 := by
  rw [toNat_eq_bits, bits_append w 0 26 6, bits_append w 0 23 3, bits_append w 0 17 6, bits_append w 0 11 6]

theorem toNat_formatJ (w : BitVec 32) :
    w.toNat = bits w 0 26 + 2 ^ 26 * bits w 26 6 := by
  rw [toNat_eq_bits, bits_append w 0 26 6]

theorem toNat_formatV (w : BitVec 32) :
    w.toNat = bits w 0 8 + 2 ^ 8 * bits w 8 3 + 2 ^ 11 * bits w 11 5 + 2 ^ 16 * bits w 16 5 + 2 ^ 21 * bits w 21 5 + 2 ^ 26 * bits w 26 6 := by
  rw [toNat_eq_bits, bits_append w 0 26 6, bits_append w 0 21 5, bits_append w 0 16 5, bits_append w 0 11 5, bits_append w 0 8 3]

theorem toNat_formatVM (w : BitVec 32) :
    w.toNat = bits w 0 14 + 2 ^ 14 * bits w 14 3 + 2 ^ 17 * bits w 17 4 + 2 ^ 21 * bits w 21 5 + 2 ^ 26 * bits w 26 6 := by
  rw [toNat_eq_bits, bits_append w 0 26 6, bits_append w 0 21 5, bits_append w 0 17 4, bits_append w 0 14 3]

theorem toNat_formatX (w : BitVec 32) :
    w.toNat = bits w 0 4 + 2 ^ 4 * bits w 4 6 + 2 ^ 10 * bits w 10 6 + 2 ^ 16 * bits w 16 10 + 2 ^ 26 * bits w 26 6 := by
  rw [toNat_eq_bits, bits_append w 0 26 6, bits_append w 0 16 10, bits_append w 0 10 6, bits_append w 0 4 6]

/-! Each row of a table: its fixed bits and its operands are all the fields of the word's format. -/

theorem encodesTo_integer (w : BitVec 32) :
    (bits w 26 6 = 0x01 → EncodesTo w (decInt w)) ∧
    (bits w 26 6 = 0x02 → EncodesTo w (decMulDiv w)) := by
  have format := toNat_formatR w
  unfold decInt decMulDiv
  and_intros
  all_goals intro
  all_goals split
  all_goals simp only [encodesTo_rows]
  all_goals intros; refine congrArg some (word_eq_of_toNat ?_)
  all_goals simp only [put_fld, format]; omega

theorem encodesTo_control (w : BitVec 32) :
    bits w 26 6 = 0x0E → EncodesTo w (decControl w) := by
  have format := toNat_formatI w
  unfold decControl
  intro
  split
  case' isFalse => split
  all_goals simp only [encodesTo_rows]
  all_goals refine congrArg some (word_eq_of_toNat ?_)
  all_goals simp only [put_fld, format]; omega

theorem encodesTo_immediate (w : BitVec 32) :
    (bits w 26 6 = 0x03 → EncodesTo w (decAddi w)) ∧
    (bits w 26 6 = 0x04 → EncodesTo w (decSlti w)) ∧
    (bits w 26 6 = 0x05 → EncodesTo w (decSltiu w)) ∧
    (bits w 26 6 = 0x06 → EncodesTo w (decAndi w)) ∧
    (bits w 26 6 = 0x07 → EncodesTo w (decOri w)) ∧
    (bits w 26 6 = 0x08 → EncodesTo w (decXori w)) ∧
    (bits w 26 6 = 0x13 → EncodesTo w (decJalr w)) := by
  have format := toNat_formatI w
  unfold decAddi decSlti decSltiu decAndi decOri decXori decJalr
  and_intros
  all_goals intro
  all_goals simp only [encodesTo_rows]
  all_goals refine congrArg some (word_eq_of_toNat ?_)
  all_goals simp only [put_fld, format]; omega

theorem encodesTo_shiftImm (w : BitVec 32) :
    bits w 26 6 = 0x09 → EncodesTo w (decShiftImm w) := by
  have format := toNat_formatI w
  have : bits w 0 14 = bits w 0 12 + 2 ^ 12 * bits w 12 2 := bits_append w 0 12 2
  have : bits w 0 12 = bits w 0 6 + 2 ^ 6 * bits w 6 6 := bits_append w 0 6 6
  unfold decShiftImm
  intro
  split
  all_goals simp only [encodesTo_rows]
  all_goals intros; refine congrArg some (word_eq_of_toNat ?_)
  all_goals simp only [put_fld, format]; omega

theorem encodesTo_oneRow (w : BitVec 32) :
    (bits w 26 6 = 0x0A → EncodesTo w (decLdhi w)) ∧
    (bits w 26 6 = 0x0B → EncodesTo w (decPcrel w)) ∧
    (bits w 26 6 = 0x11 → EncodesTo w (decBr w)) ∧
    (bits w 26 6 = 0x12 → EncodesTo w (decCall w)) ∧
    (bits w 26 6 = 0x25 → EncodesTo w (decVld w)) ∧
    (bits w 26 6 = 0x26 → EncodesTo w (decVst w)) := by
  have formatU := toNat_formatU w
  have formatJ := toNat_formatJ w
  have formatVM := toNat_formatVM w
  unfold decLdhi decPcrel decBr decCall decVld decVst
  and_intros
  all_goals intro
  all_goals simp only [encodesTo_rows]
  all_goals refine congrArg some (word_eq_of_toNat ?_)
  all_goals simp only [put_fld]; omega

theorem encodesTo_affine (w : BitVec 32) :
    bits w 26 6 = 0x0C → EncodesTo w (decAffine w) := by
  have format := toNat_formatR w
  have : bits w 20 6 = bits w 20 4 + 2 ^ 4 * bits w 24 2 := bits_append w 20 4 2
  have : bits w 14 6 = bits w 14 4 + 2 ^ 4 * bits w 18 2 := bits_append w 14 4 2
  unfold decAffine
  intro
  split
  all_goals simp only [encodesTo_rows]
  all_goals intros; refine congrArg some (word_eq_of_toNat ?_)
  all_goals simp only [put_fld, format]; omega

theorem encodesTo_regState (w : BitVec 32) :
    bits w 26 6 = 0x0D → EncodesTo w (decRegState w) := by
  have format := toNat_formatR w
  have : bits w 8 12 = bits w 8 6 + 2 ^ 6 * bits w 14 6 := bits_append w 8 6 6
  have : bits w 14 6 = bits w 14 3 + 2 ^ 3 * bits w 17 3 := bits_append w 14 3 3
  have : bits w 20 6 = bits w 20 3 + 2 ^ 3 * bits w 23 3 := bits_append w 20 3 3
  have : bits w 20 6 = bits w 20 5 + 2 ^ 5 * bits w 25 1 := bits_append w 20 5 1
  have : bits w 14 6 = bits w 14 5 + 2 ^ 5 * bits w 19 1 := bits_append w 14 5 1
  have : bits w 20 6 = bits w 20 2 + 2 ^ 2 * bits w 22 4 := bits_append w 20 2 4
  unfold decRegState
  intro
  split
  all_goals simp only [encodesTo_rows]
  all_goals intros; refine congrArg some (word_eq_of_toNat ?_)
  all_goals simp only [put_fld, format]; omega

theorem encodesTo_system (w : BitVec 32) :
    (bits w 26 6 = 0x0F → EncodesTo w (decSystem w)) ∧
    (bits w 26 6 = 0x15 → EncodesTo w (decDivergence w)) ∧
    (bits w 26 6 = 0x17 → EncodesTo w (decTask w)) ∧
    (bits w 26 6 = 0x1E → EncodesTo w (decPolderBatch w)) := by
  have format := toNat_formatR w
  have : bits w 14 12 = bits w 14 6 + 2 ^ 6 * bits w 20 6 := bits_append w 14 6 6
  have : bits w 8 18 = bits w 8 6 + 2 ^ 6 * bits w 14 12 := bits_append w 8 6 12
  have : bits w 14 6 = bits w 14 3 + 2 ^ 3 * bits w 17 3 := bits_append w 14 3 3
  have : bits w 17 9 = bits w 17 3 + 2 ^ 3 * bits w 20 6 := bits_append w 17 3 6
  have : bits w 20 6 = bits w 20 3 + 2 ^ 3 * bits w 23 3 := bits_append w 20 3 3
  unfold decSystem decDivergence decTask decPolderBatch
  and_intros
  all_goals intro
  all_goals split
  all_goals simp only [encodesTo_rows]
  all_goals intros; refine congrArg some (word_eq_of_toNat ?_)
  all_goals simp only [put_fld, format]; omega

theorem encodesTo_branch (w : BitVec 32) :
    (bits w 26 6 = 0x10 → EncodesTo w (decBranch w)) ∧
    (bits w 26 6 = 0x14 → EncodesTo w (decMaskBranch w)) := by
  have format := toNat_formatB w
  have : bits w 17 6 = bits w 17 3 + 2 ^ 3 * bits w 20 3 := bits_append w 17 3 3
  unfold decBranch decMaskBranch
  and_intros
  all_goals intro
  all_goals split
  all_goals simp only [encodesTo_rows]
  all_goals intros; refine congrArg some (word_eq_of_toNat ?_)
  all_goals simp only [put_fld, format]; omega

theorem encodesTo_channel (w : BitVec 32) :
    bits w 26 6 = 0x16 → EncodesTo w (decChannel w) := by
  have format := toNat_formatI w
  have : bits w 0 20 = bits w 0 14 + 2 ^ 14 * bits w 14 6 := bits_append w 0 14 6
  unfold decChannel
  intro
  split
  all_goals simp only [encodesTo_rows]
  all_goals intros; refine congrArg some (word_eq_of_toNat ?_)
  all_goals simp only [put_fld, format]; omega

theorem encodesTo_loadStore (w : BitVec 32) :
    (bits w 26 6 = 0x18 → EncodesTo w (decLoad w)) ∧
    (bits w 26 6 = 0x19 → EncodesTo w (decStore w)) := by
  have format := toNat_formatLS w
  unfold decLoad decStore
  and_intros
  all_goals intro
  all_goals split
  all_goals simp only [encodesTo_rows]
  all_goals refine congrArg some (word_eq_of_toNat ?_)
  all_goals simp only [put_fld, format]; omega

theorem encodesTo_sync (w : BitVec 32) :
    (bits w 26 6 = 0x1A → EncodesTo w (decSyncLoad w)) ∧
    (bits w 26 6 = 0x1B → EncodesTo w (decSyncStore w)) := by
  have format := toNat_formatLS w
  have : bits w 0 11 = bits w 0 9 + 2 ^ 9 * bits w 9 2 := bits_append w 0 9 2
  have : bits w 0 9 = bits w 0 8 + 2 ^ 8 * bits w 8 1 := bits_append w 0 8 1
  unfold decSyncLoad decSyncStore
  and_intros
  all_goals intro
  all_goals split
  all_goals simp only [encodesTo_rows]
  all_goals intros; refine congrArg some (word_eq_of_toNat ?_)
  all_goals simp only [put_fld, format]; omega

theorem encodesTo_atomic (w : BitVec 32) :
    bits w 26 6 = 0x1C → EncodesTo w (decAtomic w) := by
  have format := toNat_formatR w
  have : bits w 0 8 = bits w 0 4 + 2 ^ 4 * bits w 4 4 := bits_append w 0 4 4
  have : bits w 0 4 = bits w 0 3 + 2 ^ 3 * bits w 3 1 := bits_append w 0 3 1
  unfold decAtomic
  intro
  split
  all_goals simp only [encodesTo_rows]
  all_goals intros; refine congrArg some (word_eq_of_toNat ?_)
  all_goals simp only [put_fld, format]; omega

theorem encodesTo_fenceBarrier (w : BitVec 32) :
    bits w 26 6 = 0x1D → EncodesTo w (decFenceBarrier w) := by
  have format := toNat_formatR w
  have : bits w 14 12 = bits w 14 6 + 2 ^ 6 * bits w 20 6 := bits_append w 14 6 6
  have : bits w 8 18 = bits w 8 6 + 2 ^ 6 * bits w 14 12 := bits_append w 8 6 12
  have : bits w 0 8 = bits w 0 3 + 2 ^ 3 * bits w 3 5 := bits_append w 0 3 5
  unfold decFenceBarrier
  intro
  split
  all_goals simp only [encodesTo_rows]
  all_goals intros; refine congrArg some (word_eq_of_toNat ?_)
  all_goals simp only [put_fld, format]; omega

theorem encodesTo_vecArith (w : BitVec 32) :
    (bits w 26 6 = 0x20 → EncodesTo w (decVecInt w)) ∧
    (bits w 26 6 = 0x21 → EncodesTo w (decVecFp w)) := by
  have format := toNat_formatV w
  have : bits w 21 5 = bits w 21 3 + 2 ^ 3 * bits w 24 2 := bits_append w 21 3 2
  unfold decVecInt decVecFp
  and_intros
  all_goals intro
  all_goals split
  all_goals simp only [encodesTo_rows]
  all_goals intros; refine congrArg some (word_eq_of_toNat ?_)
  all_goals simp only [put_fld, format]; omega

theorem encodesTo_vecFun (w : BitVec 32) :
    bits w 26 6 = 0x22 → EncodesTo w (decVecFun w) := by
  have format := toNat_formatV w
  have : bits w 0 8 = bits w 0 6 + 2 ^ 6 * bits w 6 2 := bits_append w 0 6 2
  have : bits w 0 6 = bits w 0 3 + 2 ^ 3 * bits w 3 3 := bits_append w 0 3 3
  unfold decVecFun
  intro
  split
  all_goals simp only [encodesTo_rows]
  all_goals intros; refine congrArg some (word_eq_of_toNat ?_)
  all_goals simp only [put_fld, format]; omega

theorem encodesTo_crossLane (w : BitVec 32) :
    (bits w 26 6 = 0x23 → EncodesTo w (decCrossLane w)) ∧
    (bits w 26 6 = 0x27 → EncodesTo w (decVecIndexed w)) := by
  have format := toNat_formatV w
  have : bits w 11 5 = bits w 11 2 + 2 ^ 2 * bits w 13 3 := bits_append w 11 2 3
  have : bits w 11 5 = bits w 11 4 + 2 ^ 4 * bits w 15 1 := bits_append w 11 4 1
  unfold decCrossLane decVecIndexed
  and_intros
  all_goals intro
  all_goals split
  all_goals simp only [encodesTo_rows]
  all_goals intros; refine congrArg some (word_eq_of_toNat ?_)
  all_goals simp only [put_fld, format]; omega

theorem encodesTo_vecMove (w : BitVec 32) :
    bits w 26 6 = 0x24 → EncodesTo w (decVecMove w) := by
  have format := toNat_formatV w
  have : bits w 11 5 = bits w 11 4 + 2 ^ 4 * bits w 15 1 := bits_append w 11 4 1
  have : bits w 15 6 = bits w 15 1 + 2 ^ 1 * bits w 16 5 := bits_append w 15 1 5
  have : bits w 11 5 = bits w 11 3 + 2 ^ 3 * bits w 14 2 := bits_append w 11 3 2
  have : bits w 16 5 = bits w 16 3 + 2 ^ 3 * bits w 19 2 := bits_append w 16 3 2
  have : bits w 21 5 = bits w 21 3 + 2 ^ 3 * bits w 24 2 := bits_append w 21 3 2
  have : bits w 8 8 = bits w 8 3 + 2 ^ 3 * bits w 11 5 := bits_append w 8 3 5
  have : bits w 8 7 = bits w 8 3 + 2 ^ 3 * bits w 11 4 := bits_append w 8 3 4
  unfold decVecMove
  intro
  split
  all_goals simp only [encodesTo_rows]
  all_goals intros; refine congrArg some (word_eq_of_toNat ?_)
  all_goals simp only [put_fld, format]; omega

theorem encodesTo_engine (w : BitVec 32) :
    bits w 26 6 = 0x28 → EncodesTo w (decEngine w) := by
  have format := toNat_formatX w
  have : bits w 0 4 = bits w 0 3 + 2 ^ 3 * bits w 3 1 := bits_append w 0 3 1
  have : bits w 0 3 = bits w 0 2 + 2 ^ 2 * bits w 2 1 := bits_append w 0 2 1
  have : bits w 0 2 = bits w 0 1 + 2 ^ 1 * bits w 1 1 := bits_append w 0 1 1
  have : bits w 1 2 = bits w 1 1 + 2 ^ 1 * bits w 2 1 := bits_append w 1 1 1
  have : bits w 2 2 = bits w 2 1 + 2 ^ 1 * bits w 3 1 := bits_append w 2 1 1
  have : bits w 3 7 = bits w 3 1 + 2 ^ 1 * bits w 4 6 := bits_append w 3 1 6
  have : bits w 2 8 = bits w 2 2 + 2 ^ 2 * bits w 4 6 := bits_append w 2 2 6
  have : bits w 0 10 = bits w 0 4 + 2 ^ 4 * bits w 4 6 := bits_append w 0 4 6
  have : bits w 0 16 = bits w 0 10 + 2 ^ 10 * bits w 10 6 := bits_append w 0 10 6
  unfold decEngine
  intro
  split
  all_goals simp only [encodesTo_rows]
  all_goals intros; refine congrArg some (word_eq_of_toNat ?_)
  all_goals simp only [put_fld, format]; omega

/-- What stands in a word's fields encodes to that word. -/
theorem encode_of_decodeFields {w : BitVec 32} {i : Instr} (h : decodeFields w = some i) : encode i = some w := by
  revert h
  suffices EncodesTo w (decodeFields w) from this i
  unfold decodeFields
  split
  all_goals simp only [encodesTo_integer, encodesTo_control, encodesTo_immediate, encodesTo_shiftImm, encodesTo_oneRow,
    encodesTo_affine, encodesTo_regState, encodesTo_system, encodesTo_branch, encodesTo_channel, encodesTo_loadStore, encodesTo_sync,
    encodesTo_atomic, encodesTo_fenceBarrier, encodesTo_vecArith, encodesTo_vecFun, encodesTo_crossLane, encodesTo_vecMove,
    encodesTo_engine, encodesTo_rows, *]

/-- Settles O53: the word is the one that encode gives, and R48's checks are the instruction's own. -/
theorem encodingRoundTrip : Obligations.EncodingRoundTrip := by
  intro i encoded wf
  obtain ⟨w, encodes, fields⟩ := decodes_of_encoded i encoded wf
  exact ⟨w, encodes, decode_of fields wf⟩

theorem encoded_of_encode {i : Instr} {w : BitVec 32} (h : encode i = some w) : i.encoded = true := by
  cases i
  all_goals cases h
  all_goals rfl

/-- Settles O54. -/
theorem decodingUnambiguous : Obligations.DecodingUnambiguous := by
  intro w i decodes
  obtain ⟨fields, wf⟩ := of_decode decodes
  have encodes := encode_of_decodeFields fields
  exact ⟨encodes, encoded_of_encode encodes, wf⟩

end Sys2Proof
end

section
/-! PROOF. O55: the words that the manual writes out. -/

namespace Sys2Proof
theorem decode_of_encode {i : Instr} {w : BitVec 32} (encodes : encode i = some w) (wf : i.wf = true) : decode w = some i := by
  obtain ⟨_, same, fields⟩ := decodes_of_encoded i (encoded_of_encode encodes) wf
  cases encodes.symm.trans same
  exact decode_of fields wf

/-- Settles O55: each written word is its instruction's encoding; the three malformed ones have no instruction in their fields, or
one with a bit set that R48 wants clear. -/
theorem manualWords : Obligations.ManualWords := by
  refine ⟨decode_of_encode rfl rfl, decode_of_encode rfl rfl, decode_of_encode rfl rfl, decode_of_encode rfl rfl,
    decode_of_encode rfl rfl, decode_of_encode rfl rfl, decode_of_encode rfl rfl, decode_of_encode rfl rfl,
    decode_of_encode rfl rfl, decode_of_encode rfl rfl, ?reserved, ?zeros, ?ones⟩
  case reserved => rfl
  case zeros => rfl
  case ones => rfl
end Sys2Proof
end

section
/-! PROOF. O56: every meaning answers a next state. -/

namespace Sys2Proof.Machine

/-- A result that is a next state, no fault and no refusal. -/
def Answers (r : Result) : Prop := ∃ t, r = .next t

theorem answers_next (s : State) : Answers (.next s) := ⟨s, rfl⟩

/-- Whatever a meaning ends with, `run` turns it into a next state. -/
theorem run_answers (m : M Unit) (s : State) : Answers (run m s) := by
  unfold run
  split
  case h_10 => split <;> exact answers_next _
  all_goals exact answers_next _

theorem exec_answers_of_encoded {i : Instr} (s : State) (encoded : i.encoded = true) : Answers (exec i s) := by
  cases i
  all_goals cases encoded
  case trap n => exact run_answers (trapM 0x11 0 (w64 n.toNat)) s
  all_goals exact run_answers _ _

/-- Every branch of an event's meaning ends in a next state. -/
theorem exec_answers_of_event {i : Instr} (s : State) (event : i.encoded = false) : Answers (exec i s) := by
  cases i
  all_goals cases event
  case illegal w => exact run_answers (trapM 1 (w64 w.toNat) 0) s
  case accputWrite v => exact run_answers (writeAccput v) s
  case fill | rendezvousTimeout | bundleArrival | channelHold | departureReport | clockCrossingRelock | polderWindowUpdate |
    ringRefill | dispatch | recordArrival | tdecArrival | migrationArrival | frequencyStep | newClockStart | throttleStep |
    asyncTrapDelivery | waitWithdrawal | fmtmismatchRecord | preempt | hmapWrite | pdirbaseWrite | pmrdRead | yieldExpiry |
    sleepWake | tlbShootdown | divideComplete | patternCommandComplete | matrixComplete | rstpostWrite | cxlMemAccess |
    launchWindowWrite | managementWindowAccess | accessPerform | sptagRead | sptagWrite | groupSetupComplete | weirHold |
    roundComplete | watchdogExpiry | samplingPulse | dump | peerLinkUp =>
    dsimp only [exec, execFill, execRendezvousTimeout, execBundleArrival, execChannelHold, execDepartureReport,
      execClockCrossingRelock, execPolderWindowUpdate, execRingRefill, execDispatch, execRecordArrival, execTdecArrival,
      execMigrationArrival, execFrequencyStep, execNewClockStart, execThrottleStep, execAsyncTrapDelivery, execWaitWithdrawal,
      execFmtmismatchRecord, execPreempt, execHmapWrite, execPdirbaseWrite, execPmrdRead, execYieldExpiry, execSleepWake,
      execTlbShootdown, execDivideComplete, execPatternCommandComplete, execMatrixComplete, execRstpostWrite, execCxlMemAccess,
      execLaunchWindowWrite, execManagementWindowAccess, execAccessPerform, execSptagRead, execSptagWrite, execGroupSetupComplete,
      execWeirHold, execRoundComplete, execWatchdogExpiry, execSamplingPulse, execDump, execPeerLinkUp]
    repeat' split
    all_goals exact answers_next _
  all_goals exact answers_next _

/-- Settles O56. -/
theorem everythingRuns : Obligations.EverythingRuns := by
  intro i s
  cases event : i.encoded
  · exact exec_answers_of_event s event
  · exact exec_answers_of_encoded s event

end Sys2Proof.Machine
end

section
/-! PROOF. O57, refuted: the note of an issue can write a register of the thread that issued, where the pair of another does not agree. -/

namespace Sys2Proof.Machine

/-- A state whose pair does not agree: the thread in slot 0 waits in YIELD for an issue of slot 2 and trails slot 1, but slot 1 leads
slot 2, and its load-value queue holds a register fill of s5 for its trailing thread. -/
def crossedYield : State :=
  { cores := [(0, { slots := [
      (0, { wait := .busy 2 (.yield 64 [2]), role := .trailing 1 }),
      (1, { role := .leading 2, lvq := [{ key := fillKey 5, vals := some [7], at_ := some 1 }] })] })],
    cur := { core := 0, slot := 2 } }

/-- ADDI s0, s0, 0 in slot 2 leaves s5 zero. As its issue is noted, the YIELD of slot 0 ends, that thread goes on and looks at the fills
of the thread that it trails, and the fill lands in slot 2. -/
theorem settle_crossedYield : ∃ t v, exec (.addi 0 0 0) crossedYield = .next t ∧ crossedYield.settle 0 2 (.next t) = .next v ∧
    (t.slot 0 2).wait = .run ∧ (t.slot 0 2).scalar 5 = 0 ∧ (v.slot 0 2).scalar 5 = 7 :=
  ⟨_, _, rfl, rfl, by decide, by decide, by decide⟩

/-- Refutes O57: StepKeepsResult speaks of every state, and in `crossedYield` the note of an issue writes s5 of the thread that issued.
Nothing in the statement asks that a leading thread's pair be the thread that trails it. -/
theorem not_stepRunsTheInstruction : ¬ Obligations.StepRunsTheInstruction := by
  unfold Obligations.StepRunsTheInstruction
  rintro ⟨-, keeps, -⟩
  obtain ⟨t, v, runs, settles, running, zero, seven⟩ := settle_crossedYield
  obtain ⟨u, settles', -, -, -, -, -, registers, -⟩ :=
    keeps crossedYield t 0 2 (.addi 0 0 0) runs (by rw [running]; exact fun _ _ => nofun) (by rw [running]; exact fun _ _ _ => nofun)
  rw [runs, settles] at settles'
  cases settles'
  have changed : (7 : W64) = 0 := by
    calc (7 : W64) = (v.slot 0 2).scalar 5 := seven.symm
      _ = (t.slot 0 2).scalar 5 := congrArg (fun m => if (5 : BitVec 6) = 0 then (0 : W64) else look 0 m 5) registers
      _ = 0 := zero
  exact absurd changed (by decide)

end Sys2Proof.Machine
end

section
/-! PROOF. O9: trap entry, the PRIV traps, and the end of a thread that has no handler. -/

namespace Sys2Proof.Machine

/-! ### Trap entry -/

/-- A thread that has entered its handler (R378). -/
def Slot.entered (t : Slot) (cause : Nat) (pc addr st : W64) : Slot :=
  { t with
    epc := pc, ecause := w64 cause, eaddr := addr, estat := (st &&& ~~~ w64 (2 ^ 32)) ||| (if t.privS then w64 (2 ^ 32) else 0),
    esA := t.act, esH := t.hlp, act := 0xFFFF, hlp := 0, privS := true, pc := t.evec, wait := .run, trapped := true, entering := true,
    walkRes := [], missed := none, queued := none, agreed := false, rdv := none, wip := none, pops := [],
    cmp := t.cmp.filter fun e => !(e.stands && !e.agreed), chAt := if t.chState = 2 ∧ t.chAt.isNone then some pc else t.chAt }

theorem slUncount_none {s : State} {c : Nat} (h : (s.core c).slHold = none) : s.slUncount c = s := by
  unfold State.slUncount; rw [h]

theorem slUncount_idle {s : State} {c k : Nat} (idle : k = 15 → (s.core c).slHold = none) :
    (if k = 15 then s.slUncount c else s) = s := by
  split
  · exact slUncount_none (idle ‹_›)
  · rfl

theorem trace_off {s : State} {c : Nat} (off : bitAt (s.core c).dbg.btbase 0 = false) (k kind : Nat) (pc : W64) :
    s.trace c k kind pc = s := by
  unfold State.trace; rw [off]; rfl

/-- With a handler, and the branch trace off, trap entry changes the thread and the list of those that wait for a mailbox. -/
theorem trapEntry_handled {s : State} {c k cause : Nat} {pc addr st : W64} (idle : k = 15 → (s.core c).slHold = none)
    (handler : (s.slot c k).evec ≠ 0) (untraced : bitAt (s.core c).dbg.btbase 0 = false) :
    s.trapEntry c k cause pc addr st =
      (s.leaveMail c (s.slot c k).tid).setSlot c k ((s.slot c k).entered cause pc addr st) := by
  have off : bitAt (((s.leaveMail c (s.slot c k).tid).setSlot c k ((s.slot c k).entered cause pc addr st)).core c).dbg.btbase 0 = false := by
    rw [core_setSlot, if_pos rfl, State.leaveMail, core_modCore, if_pos rfl]
    exact untraced
  unfold State.trapEntry
  rw [slUncount_idle idle]
  exact (if_neg handler).trans (trace_off off k 1 pc)

theorem clear_privBit {st : W64} (low : st.toNat < 2 ^ 32) : st &&& ~~~ w64 (2 ^ 32) = st := by
  refine BitVec.eq_of_getLsbD_eq fun i hi => ?_
  by_cases h : i = 32
  · subst h
    rw [BitVec.getLsbD_and, show st.getLsbD 32 = false from Nat.testBit_lt_two_pow low, Bool.false_and]
  · have apart : (w64 (2 ^ 32)).getLsbD i = false := by
      rw [show w64 (2 ^ 32) = BitVec.twoPow 64 32 from rfl, BitVec.getLsbD_twoPow]
      simp [Ne.symm h]
    rw [BitVec.getLsbD_and, BitVec.getLsbD_not, apart]
    simp [hi]

/-- An instruction whose meaning traps, of a thread with a handler, leaves what R378 says. -/
theorem traps_of {i : Instr} {m : M Unit} {s : State} {cause : Nat} {addr st : W64} (runs : exec i s = run m s)
    (stops : m s = .error (.trap cause addr st)) (b : s.begun) (handler : s.me.evec ≠ 0) (untraced : s.untraced)
    (small : cause < 2 ^ 64) (low : st.toNat < 2 ^ 32) : Traps i s cause addr st := by
  obtain ⟨-, -, idle, -⟩ := b
  refine ⟨_, runs.trans (run_trap stops), ?_⟩
  rw [trapEntry_handled idle handler untraced]
  have outside : Beyond whole noWait s (s.leaveMail s.cur.core s.me.tid) := .modCore s _ (fun _ => rfl) fun _ => rfl
  have thread : ((s.leaveMail s.cur.core s.me.tid).setMe (s.me.entered cause s.me.pc addr st)).thread s =
      s.me.entered cause s.me.pc addr st := me_setMe (s.leaveMail s.cur.core s.me.tid) _
  have estat : (s.me.entered cause s.me.pc addr st).estat = st ||| (if s.me.privS then 0x100000000 else 0) :=
    congrArg (· ||| _) (clear_privBit low)
  refine
    { outside := outside.trans (.of_only (.setMe _ _)) rfl rfl
      epc := congrArg Slot.epc thread
      ecause := (congrArg (·.ecause.toNat) thread).trans (Nat.mod_eq_of_lt small)
      eaddr := congrArg Slot.eaddr thread
      estat := (congrArg Slot.estat thread).trans estat
      masks := ⟨congrArg Slot.esA thread, congrArg Slot.esH thread, congrArg Slot.act thread, congrArg Slot.hlp thread⟩
      privS := congrArg Slot.privS thread
      pc := congrArg Slot.pc thread
      wait := congrArg Slot.wait thread
      still := (congrArg noTrap thread).trans rfl }

theorem needS_user {s : State} (h : s.me.privS = false) : needS s = .error (.trap 2 (w64 s.cur.word.toNat) 0) := by
  unfold needS; rw [h]; rfl

theorem cregCheck_user {s : State} {n : Nat} (priv : cregPriv n = true) (h : s.me.privS = false) :
    cregCheck n s = .error (.trap 2 (w64 s.cur.word.toNat) 0) := by
  unfold cregCheck; rw [if_pos priv]; exact bind_error (needS_user h)

theorem trapResults : Sys2Proof.Says.TrapResults := by
  intro s n w b handler untraced
  have low : (w64 n.toNat).toNat < 2 ^ 32 := (Nat.mod_le _ _).trans_lt (n.isLt.trans (by decide))
  refine ⟨?trap, fun unclaimed => ?bkpt, ?illegal⟩
  case trap => exact traps_of (m := trapM 0x11 0 (w64 n.toNat)) rfl rfl b handler untraced (by decide) low
  case bkpt =>
    have claim : ¬ s.myCore.dbg.swbp = true := by rw [unclaimed]; decide
    exact traps_of rfl ((bind_ok rfl).trans (congrFun (if_neg claim) s)) b handler untraced (by decide) low
  case illegal => exact traps_of (m := trapM 1 (w64 w.toNat) 0) rfl rfl b handler untraced (by decide) (by decide)

theorem privilegeTraps : Sys2Proof.Says.PrivilegeTraps := by
  intro s a d c b handler untraced user
  have traps {i : Instr} {m : M Unit} (runs : exec i s = run m s) (stops : m s = .error (.trap 2 (w64 s.cur.word.toNat) 0)) :
      Traps i s 2 (w64 s.cur.word.toNat) 0 := traps_of runs stops b handler untraced (by decide) (by decide)
  have refused {m : Unit → M Unit} : (needS >>= m) s = .error (.trap 2 (w64 s.cur.word.toNat) 0) := bind_error (needS_user user)
  refine ⟨traps rfl refused, traps rfl refused, traps rfl refused, fun number => ?_⟩
  have priv : cregPriv c.toNat = true := by
    rcases number with rfl | high
    · rfl
    · simp [cregPriv, high]
  exact ⟨traps rfl (bind_error (cregCheck_user priv user)), traps rfl (bind_error (cregCheck_user priv user))⟩

/-! ### The end of a thread without a handler -/

/-- The threads, the tasks, the dump settings and slot 15's wait (R111) of every core are as before. -/
def Steady (s t : State) : Prop :=
  ∀ d, ((t.core d).slots, (t.core d).tasks, (t.core d).dumpcfg, (t.core d).slHold) =
    ((s.core d).slots, (s.core d).tasks, (s.core d).dumpcfg, (s.core d).slHold)

theorem Steady.refl (s : State) : Steady s s := fun _ => rfl

theorem Steady.trans {s t u : State} (h : Steady s t) (g : Steady t u) : Steady s u := fun d => (g d).trans (h d)

theorem Steady.of_cores {s t : State} (h : t.cores = s.cores) : Steady s t := fun d => by unfold State.core; rw [h]

theorem Steady.modCore (s : State) (c : Nat) {f : Core → Core}
    (h : ∀ x, ((f x).slots, (f x).tasks, (f x).dumpcfg, (f x).slHold) = (x.slots, x.tasks, x.dumpcfg, x.slHold) := by exact fun _ => rfl) :
    Steady s (s.modCore c f) := by
  intro d
  rw [core_modCore]
  split
  · exact h _
  · rfl

theorem Steady.slot {s t : State} (h : Steady s t) (d k : Nat) : t.slot d k = s.slot d k := by
  have slots : (t.core d).slots = (s.core d).slots := congrArg Prod.fst (h d)
  unfold State.slot; rw [slots]

theorem Steady.taskOf {s t : State} (h : Steady s t) (d n : Nat) : t.taskOf d n = s.taskOf d n := by
  have tasks : (t.core d).tasks = (s.core d).tasks := congrArg (·.2.1) (h d)
  unfold State.taskOf; rw [tasks]

theorem Steady.dumpcfg {s t : State} (h : Steady s t) (d : Nat) : (t.core d).dumpcfg = (s.core d).dumpcfg :=
  congrArg (fun x => x.2.2.1) (h d)

theorem Steady.slHold {s t : State} (h : Steady s t) (d : Nat) : (t.core d).slHold = (s.core d).slHold :=
  congrArg (fun x => x.2.2.2) (h d)

theorem Steady.leaveMail (s : State) (c tid : Nat) : Steady s (s.leaveMail c tid) := .modCore s c

theorem Steady.dropBusy (s : State) (c k : Nat) : Steady s (s.dropBusy c k) := by
  unfold State.dropBusy
  dsimp only
  split
  · exact .of_cores rfl
  · exact .trans (.of_cores rfl) (.modCore _ c)
  · exact .of_cores rfl
  · exact .modCore s c
  · exact .refl s

/-- The overflow queue of a home drains by changes of the accesses alone. -/
theorem drainOverflow_flights (home fuel : Nat) (s : State) : ∃ l, s.drainOverflow home fuel = { s with flights := l } := by
  induction fuel generalizing s with
  | zero => exact ⟨_, rfl⟩
  | succ n ih =>
    unfold State.drainOverflow
    split
    · exact ⟨_, rfl⟩
    · exact ih _

theorem rebalance_flights (home : Nat) (s : State) : ∃ l, s.rebalance home = { s with flights := l } := drainOverflow_flights home _ s

theorem Steady.rebalance (s : State) (home : Nat) : Steady s (s.rebalance home) := by
  obtain ⟨l, e⟩ := rebalance_flights home s
  rw [e]
  exact .of_cores rfl

theorem Steady.withdraw (s : State) (tid : Nat) : Steady s (s.withdraw tid) :=
  .trans (.of_cores rfl) (foldl_keeps Steady .refl (fun _ _ _ => .trans) _ .rebalance _ _)

theorem Steady.dropWaits (s : State) (c k : Nat) : Steady s (s.dropWaits c k) := (Steady.dropBusy s c k).trans (.withdraw _ _)

/-- A thread in no channel and no pair, for which no fault waits, leaves its slot and nothing more. -/
theorem vacate_alone {s : State} {c k : Nat} (unchained : (s.slot c k).chState = 0) (single : (s.slot c k).role = .single)
    (copy : (s.slot c k).pendCopy = []) (merge : (s.slot c k).pendMerge = []) (idle : k = 15 → (s.core c).slHold = none) :
    ∃ t, Steady s t ∧ s.vacate c k = t.modSlot c k Slot.vacated := by
  have channel : s.leaveChannel c k = s := by
    unfold State.leaveChannel Slot.trails
    simp [unchained, single]
  unfold State.vacate
  simp only [channel, copy, merge, State.passPosts, List.isEmpty_nil, Bool.and_self, if_true]
  refine ⟨_, ?_, rfl⟩
  have mail := Steady.leaveMail s c (s.slot c k).tid
  split
  · next last => rw [slUncount_none ((mail.slHold c).trans (idle last))]; exact mail.trans (.modCore _ c)
  · exact mail

theorem mem_threadsOf {s : State} {c h k : Nat} :
    k ∈ s.threadsOf c h ↔ k ∈ upto 0 16 ∧ (s.slot c k).live = true ∧ (s.slot c k).task = h := by
  simp [State.threadsOf]

theorem slot_modTask (s : State) (c h d k : Nat) (f : Task → Task) : (s.modTask c h f).slot d k = s.slot d k :=
  slot_modCore (f := fun x => { x with tasks := put x.tasks h (f (look {} x.tasks h)) }) (fun _ => rfl) d k

theorem taskOf_modTask_same (s : State) (c h : Nat) (f : Task → Task) : (s.modTask c h f).taskOf c h = f (s.taskOf c h) := by
  unfold State.taskOf State.modTask
  rw [core_modCore, if_pos rfl, look_put_eq, if_pos rfl]

theorem taskOf_modSlot (s : State) (c k d h : Nat) (f : Slot → Slot) : (s.modSlot c k f).taskOf d h = s.taskOf d h := by
  unfold State.taskOf State.modSlot
  rw [core_setSlot]
  split <;> rfl

/-- As such a thread goes, its task ends when none of its threads is left. -/
theorem freeSlot_alone {s : State} {c k : Nat} (unchained : (s.slot c k).chState = 0) (single : (s.slot c k).role = .single)
    (copy : (s.slot c k).pendCopy = []) (merge : (s.slot c k).pendMerge = []) (idle : k = 15 → (s.core c).slHold = none) :
    ((s.freeSlot c k).slot c k).live = false ∧
      (s.threadsOf c (s.slot c k).task = [k] →
        (s.freeSlot c k).taskOf c (s.slot c k).task = { s.taskOf c (s.slot c k).task with ending := true }) := by
  obtain ⟨t, steady, gone⟩ := vacate_alone unchained single copy merge idle
  have partner : (s.slot c k).partner = none := by unfold Slot.partner; rw [single]
  unfold State.freeSlot
  simp only [partner, gone]
  have dead : ((t.modSlot c k Slot.vacated).slot c k).live = false := by rw [slot_modSlot, if_pos ⟨rfl, rfl⟩]; rfl
  refine ⟨?_, fun only => ?_⟩
  · split
    · rw [slot_modTask]; exact dead
    · exact dead
  · have none_left : (t.modSlot c k Slot.vacated).threadsOf c (s.slot c k).task = [] := by
      refine List.eq_nil_iff_forall_not_mem.2 fun j => ?_
      rw [mem_threadsOf]
      rintro ⟨slot, live, task⟩
      by_cases same : j = k
      · rw [same, dead] at live
        exact Bool.false_ne_true live
      · rw [slot_modSlot, if_neg fun h => same h.2.symm, steady.slot] at live task
        have left := mem_threadsOf.2 ⟨slot, live, task⟩
        rw [only] at left
        exact same (List.mem_singleton.1 left)
    rw [none_left, if_pos List.isEmpty_nil, taskOf_modTask_same, taskOf_modSlot, steady.taskOf]

theorem trapEntry_unhandled {s : State} {c k cause : Nat} {pc addr st : W64} (idle : k = 15 → (s.core c).slHold = none)
    (none : (s.slot c k).evec = 0) :
    s.trapEntry c k cause pc addr st = (s.leaveMail c (s.slot c k).tid).endThread c k cause pc addr st := by
  unfold State.trapEntry
  rw [slUncount_idle idle]
  exact if_pos none

/-- The task of a thread that ends takes the thread's cause when the thread was its last. -/
def State.lastCause (s : State) (c k cause : Nat) : State :=
  if s.lastOf c k then s.modTask c (s.slot c k).task fun x => { x with endStatus := cause } else s

theorem slot_lastCause (s : State) (c k cause d j : Nat) : (s.lastCause c k cause).slot d j = s.slot d j := by
  unfold State.lastCause
  split
  · exact slot_modTask ..
  · rfl

theorem core_lastCause (s : State) (c k cause : Nat) : ∃ l, (s.lastCause c k cause).core c = { s.core c with tasks := l } := by
  unfold State.lastCause
  split
  · exact ⟨_, by rw [State.modTask, core_modCore, if_pos rfl]⟩
  · exact ⟨_, rfl⟩

theorem lastCause_only {s : State} {c k cause : Nat} (only : s.threadsOf c (s.slot c k).task = [k]) :
    (s.lastCause c k cause).taskOf c (s.slot c k).task = { s.taskOf c (s.slot c k).task with endStatus := cause } := by
  have last : s.lastOf c k = true := by simp [State.lastOf, only]
  rw [State.lastCause, if_pos last, taskOf_modTask_same]

/-- With dumps off a thread that ends frees its slot at once (R378, R414). -/
theorem endThread_undumped {s : State} {c k cause : Nat} {pc addr st : W64} (off : bitAt (s.core c).dumpcfg 0 = false) :
    s.endThread c k cause pc addr st = ((s.lastCause c k cause).dropWaits c k).freeSlot c k := by
  have still : bitAt (((s.lastCause c k cause).dropWaits c k).core c).dumpcfg 0 = false := by
    obtain ⟨_, tasks⟩ := core_lastCause s c k cause
    rw [(Steady.dropWaits _ c k).dumpcfg, tasks]
    exact off
  unfold State.lastCause at still ⊢
  unfold State.endThread
  simp only [still, Bool.false_eq_true, false_and, if_false]

theorem threadsOf_congr {s t : State} (h : ∀ d k, t.slot d k = s.slot d k) (c n : Nat) : t.threadsOf c n = s.threadsOf c n := by
  unfold State.threadsOf; simp only [h]

/-- Such a thread's end frees its slot, and ends its task with its cause when it was the task's last. -/
theorem endThread_alone {s : State} {c k cause : Nat} {pc addr st : W64} (off : bitAt (s.core c).dumpcfg 0 = false)
    (unchained : (s.slot c k).chState = 0) (single : (s.slot c k).role = .single) (copy : (s.slot c k).pendCopy = [])
    (merge : (s.slot c k).pendMerge = []) (idle : k = 15 → (s.core c).slHold = none) :
    ((s.endThread c k cause pc addr st).slot c k).live = false ∧
      (s.threadsOf c (s.slot c k).task = [k] →
        ((s.endThread c k cause pc addr st).taskOf c (s.slot c k).task).endStatus = cause ∧
          ((s.endThread c k cause pc addr st).taskOf c (s.slot c k).task).ending = true) := by
  rw [endThread_undumped off]
  have steady := Steady.dropWaits (s.lastCause c k cause) c k
  have slots (d j : Nat) : ((s.lastCause c k cause).dropWaits c k).slot d j = s.slot d j :=
    (steady.slot d j).trans (slot_lastCause ..)
  have hold : (((s.lastCause c k cause).dropWaits c k).core c).slHold = (s.core c).slHold := by
    obtain ⟨_, tasks⟩ := core_lastCause s c k cause
    rw [steady.slHold, tasks]
  rw [← slots c k] at unchained single copy merge
  obtain ⟨freed, ends⟩ := freeSlot_alone unchained single copy merge fun last => hold.trans (idle last)
  refine ⟨freed, fun only => ?_⟩
  rw [threadsOf_congr slots, slots, steady.taskOf, lastCause_only only] at ends
  rw [ends only]
  exact ⟨rfl, rfl⟩

theorem trapWithoutHandler : Sys2Proof.Says.TrapWithoutHandler := by
  intro s n b none undumped unchained single _ copy merge
  obtain ⟨-, -, idle, -⟩ := b
  refine ⟨_, run_trap (m := trapM 0x11 0 (w64 n.toNat)) rfl, ?_⟩
  rw [trapEntry_unhandled idle none]
  have mail := Steady.leaveMail s s.cur.core s.me.tid
  have me : (s.leaveMail s.cur.core s.me.tid).slot s.cur.core s.cur.slot = s.me := mail.slot _ _
  obtain ⟨freed, ends⟩ := endThread_alone (s := s.leaveMail s.cur.core s.me.tid) (c := s.cur.core) (k := s.cur.slot) (cause := 0x11)
    (pc := s.me.pc) (addr := 0) (st := w64 n.toNat) (by rw [mail.dumpcfg]; exact undumped) (by rw [me]; exact unchained)
    (by rw [me]; exact single) (by rw [me]; exact copy) (by rw [me]; exact merge) fun last => (mail.slHold _).trans (idle last)
  rw [me, threadsOf_congr mail.slot] at ends
  exact ⟨freed, ends⟩

/-- Settles O9. -/
theorem traps : Obligations.Traps := ⟨trapResults, privilegeTraps, trapWithoutHandler⟩

end Sys2Proof.Machine
end

section
/-! PROOF. O46, refuted: a command with END takes the open request out of the requester's batch. -/

namespace Sys2Proof.Machine

/-- A state in which slot 15 serves an open request: the request of slot 3's thread counts into that thread's batch 0, and SLREQ holds
its stamp, as MBTAKE leaves it. -/
def servedRequest : State :=
  { cores := [(0, { slots := [(3, { live := true, tid := 7, bat := { counts := [(0, 1)] } }), (15, { live := true, tid := 8 })],
                    slreq := { slot := 3, tid := 7, open_ := true, batch := 0 } })],
    cur := { core := 0, slot := 15 }, nextId := 1, nextTid := 9 }

/-- Batch 0 counts the request alone. -/
theorem servedRequest_batch : look 0 (servedRequest.slot 0 (servedRequest.requester 0).slot).bat.counts (servedRequest.requester 0).batch.toNat = 1 := by
  decide

/-- After an SLFILL with END it counts the command alone: END has ended the request, which leaves its batch (R111). -/
theorem slfill_servedRequest : ∃ t, exec (.slfill 0 1 0) servedRequest = .next t ∧
    look 0 (t.slot 0 (servedRequest.requester 0).slot).bat.counts (servedRequest.requester 0).batch.toNat = 1 := ⟨_, rfl, by decide⟩

/-- Refutes O46: the statement has the count of the requester's batch rise by one with every command, one with END too; but END takes
the open request out of the same batch, as in `servedRequest`, where the command replaces its request and the count stays at 1. -/
theorem not_sluiceIssues : ¬ Obligations.SluiceIssues := by
  unfold Obligations.SluiceIssues
  rintro ⟨issues, -⟩
  have begun : servedRequest.begun := by unfold State.begun; decide
  have free : servedRequest.free_ := ⟨rfl, fun _ none => absurd none List.not_mem_nil⟩
  obtain ⟨-, -, -, -, fill, -⟩ := issues servedRequest 0 0 1 0 0 begun free rfl (.inl rfl) (.inl rfl) (by decide)
    (fun _ none => absurd none List.not_mem_nil) rfl rfl (by decide)
  obtain ⟨t, runs, -, -, -, -, -, counted⟩ := fill
  obtain ⟨u, runs', one⟩ := slfill_servedRequest
  cases runs.symm.trans runs'
  have two : 1 = 1 + 1 := by
    calc 1 = _ := one.symm
      _ = _ := counted (.inl (by decide))
      _ = 1 + 1 := congrArg (· + 1) servedRequest_batch
  exact absurd two (by decide)
end Sys2Proof.Machine
end

section
/-! PROOF. O20: what an allocation and the start of a thread leave alone, dispatch, and the refill from the ring. -/

namespace Sys2Proof.Machine

/-! ### What an allocation leaves alone -/

/-- A core but for its event counters and what an allocation sets up: its tasks, their banks' formats, tiles, accumulators and pattern
slots (R93, R253, R277). -/
def Core.unallocated (x : Core) : Core :=
  { x with pmc := [], tasks := [], bfmt := [], tile := [], tshape := [], tscale := [], accv := [], engErr := [], ashape := [], pslots := [] }

/-- The hubs are as before, and of every core all but its event counters and the formats of its banks. -/
structure BanksOnly (s t : State) : Prop where
  hubs : t.hubs = s.hubs
  cores : ∀ d, { t.core d with pmc := [], bfmt := [] } = { s.core d with pmc := [], bfmt := [] }

theorem BanksOnly.refl (s : State) : BanksOnly s s := ⟨rfl, fun _ => rfl⟩

theorem BanksOnly.trans {s t u : State} (h : BanksOnly s t) (g : BanksOnly t u) : BanksOnly s u :=
  ⟨g.hubs.trans h.hubs, fun d => (g.cores d).trans (h.cores d)⟩

theorem BanksOnly.of_module {s t : State} (hubs : t.hubs = s.hubs) (cores : t.cores = s.cores) : BanksOnly s t :=
  ⟨hubs, fun d => by unfold State.core; rw [cores]⟩

theorem BanksOnly.modCore (s : State) (c : Nat) {f : Core → Core}
    (h : ∀ x, { f x with pmc := [], bfmt := [] } = { x with pmc := [], bfmt := [] }) : BanksOnly s (s.modCore c f) := by
  refine ⟨rfl, fun d => ?_⟩
  rw [core_modCore]
  split
  · exact h _
  · rfl

theorem BanksOnly.unallocated {s t : State} (h : BanksOnly s t) (d : Nat) : (t.core d).unallocated = (s.core d).unallocated := by
  have forgets := congrArg Core.unallocated (h.cores d)
  exact forgets

theorem BanksOnly.countIn (s : State) (c ev : Nat) (k : Option Nat) (n : Nat) : BanksOnly s (s.countIn c ev k n) := by
  unfold State.countIn
  dsimp only
  split
  · exact .refl s
  · exact .modCore s c (f := fun x => { x with pmc := _ }) fun _ => rfl

theorem BanksOnly.countCorrected (s : State) (l : List (Nat × Bool)) : BanksOnly s (s.countCorrected l) := by
  refine foldl_keeps BanksOnly .refl (fun _ _ _ => .trans) _ (fun s g => ?_) l s
  split
  · exact .countIn ..
  · exact .countIn ..
  · exact .refl s

theorem BanksOnly.correct (s : State) (pa n : Nat) : BanksOnly s (s.correct pa n) := by
  unfold State.correct
  dsimp only
  split
  · exact .refl s
  · exact .trans (.countCorrected s _) (.of_module rfl rfl)

theorem BanksOnly.discardWrite (s : State) (src pa : Nat) : BanksOnly s (s.discardWrite src pa) := by
  unfold State.discardWrite
  dsimp only
  split
  · split <;> exact .of_module rfl rfl
  · exact .of_module rfl rfl

theorem BanksOnly.storeAt (s : State) (pa : Nat) (l : List Byte) : BanksOnly s (s.storeAt pa l) := by
  unfold State.storeAt State.fillWords
  split <;> exact .of_module rfl rfl

theorem BanksOnly.answer (s : State) (f : Flight) (v : W64) (fl : Flags) (p : Bool) : BanksOnly s (s.answer f v fl p) := .of_module rfl rfl

theorem BanksOnly.performWaiter (s : State) (f : Flight) : BanksOnly s (s.performWaiter f) := by
  unfold State.performWaiter
  split
  · dsimp only
    split
    · exact (BanksOnly.correct s _ _).trans (.of_module rfl rfl)
    · exact (BanksOnly.correct s _ _).trans (.answer ..)
  · split
    · exact (BanksOnly.discardWrite s _ _).trans (.answer ..)
    · exact (BanksOnly.storeAt s _ _).trans (.answer ..)
  · exact .answer ..
  · exact .refl s

theorem BanksOnly.wakeChain (fuel : Nat) (s : State) (ws : List Nat) : BanksOnly s (s.wakeChain ws fuel) := by
  induction fuel generalizing s ws with
  | zero => exact .refl s
  | succ n ih =>
    unfold State.wakeChain
    split
    · exact .refl s
    · exact (BanksOnly.performWaiter s _).trans (ih _ _)

theorem BanksOnly.wake (s : State) (pa n : Nat) : BanksOnly s (s.wake pa n) := by
  unfold State.wake
  dsimp only
  split
  · split
    · next home _ =>
      obtain ⟨l, e⟩ := rebalance_flights home (s.wakeChain (wordsOf pa n) s.flights.length)
      rw [e]
      exact (BanksOnly.wakeChain _ s _).trans (.of_module rfl rfl)
    · exact .wakeChain _ s _
  · exact .refl s

theorem BanksOnly.clearBank (s : State) (c b : Nat) : BanksOnly s (s.clearBank c b) := by
  unfold State.clearBank
  refine .trans ?_ (.wake _ _ _)
  refine .trans ?_ (.modCore _ c fun _ => rfl)
  exact .of_module rfl rfl

/-- The task that an allocation enters (R362). -/
def Core.newTask (x : Core) (res : Nat) (reply root : W64) (asp : W16) : Task :=
  { live := true, banks := (x.freeOf 128 Task.banks).take (resBanks res), tiles := (x.freeOf 8 Task.tiles).take (resTiles res),
    accs := (x.freeOf 4 Task.accs).take (resAccs res), sluice := resSluice res, pair := resPair res, res := w32 res, reply := reply,
    ptroot := root, aspace := asp }

/-- An allocation enters its task and sets up what the task has; it leaves the hubs and the rest of its core. -/
theorem allocate_spec (s : State) (c h res : Nat) (reply root : W64) (asp : W16) :
    (s.allocate c h res reply root asp).hubs = s.hubs ∧
      ((s.allocate c h res reply root asp).core c).unallocated = (s.core c).unallocated ∧
      (s.allocate c h res reply root asp).taskOf c h = (s.core c).newTask res reply root asp := by
  have banks : BanksOnly s (((s.core c).freeOf 128 Task.banks).take (resBanks res) |>.foldl (fun s b => s.clearBank c b) s) :=
    foldl_keeps BanksOnly .refl (fun _ _ _ => .trans) _ (fun s b => .clearBank s c b) _ _
  unfold State.allocate State.taskOf
  simp only [core_modCore, if_pos, look_put_eq]
  exact ⟨banks.hubs, banks.unallocated c, rfl⟩

/-! ### The start of a thread -/

/-- A thread of task `h` before its first instruction, with registers zero (R200, R362). -/
structure Slot.Fresh (t : Slot) (h : Nat) (evec : W64) : Prop where
  live : t.live = true
  task : t.task = h
  privS : t.privS = false
  evec : t.evec = evec
  sr : t.sr = []
  sPoison : t.sPoison = 0

/-- A new thread of a task that no pre-emption waits for; `f` sets it up (R362). -/
theorem startThread_spec {s : State} {c k h : Nat} (f : Slot → Slot) (unmarked : (s.taskOf c h).preempted = none) :
    (s.startThread c k h f).hubs = s.hubs ∧ (∀ n, (s.startThread c k h f).taskOf c n = s.taskOf c n) ∧
      ∃ t stop, (s.startThread c k h f).slot c k = { f t with halted := stop } ∧ t.Fresh h (s.core c).devec := by
  unfold State.startThread
  simp only [unmarked]
  split
  · refine ⟨rfl, fun n => ?tasks, _, _, (slot_modCore ?slots c k).trans (slot_setSlot_same _ _ _ _), ⟨rfl, rfl, rfl, rfl, rfl, rfl⟩⟩
    case slots => exact fun _ => rfl
    case tasks =>
      unfold State.taskOf
      rw [core_modCore, if_pos rfl, core_setSlot, if_pos rfl]
      rfl
  · refine ⟨rfl, fun n => ?_, _, _, slot_setSlot_same _ _ _ _, ⟨rfl, rfl, rfl, rfl, rfl, rfl⟩⟩
    unfold State.taskOf
    rw [core_setSlot, if_pos rfl]
    rfl

/-- A record's thread as it starts: its arguments in s1 to s4, with their poison marks, at the record's entry (R362, R400). -/
def Slot.loaded (l : List Byte) (bad : List Nat) (t : Slot) : Slot :=
  { (t.withArgs ((upto 0 4).map (recArg l))).withMarks bad with pc := w64 (recEntry l) &&& ~~~ (3 : W64) }

/-- The first thread of a record without SLUICE and PAIR starts in the lowest free slot (R362). -/
theorem startFirst_single {s : State} {c h k : Nat} {l : List Byte} {bad ks : List Nat} (free : (s.core c).freeSlots = k :: ks)
    (sluice : resSluice (recRes l) = false) (pair : resPair (recRes l) = false) :
    s.startFirst c h l bad = s.startThread c k h (Slot.loaded l bad) := by
  unfold State.startFirst
  simp only [sluice, pair, free, Bool.false_eq_true, if_false, List.getD_cons_zero]
  rfl

theorem scalar_putS {t : Slot} {d : Nat} {v : W64} (written : d ≠ 0) (n : BitVec 6) :
    (t.putS d v).scalar n = if n.toNat = d then v else t.scalar n := by
  unfold Slot.putS Slot.scalar
  rw [if_neg written]
  by_cases zero : n = 0
  · rw [if_pos zero, if_pos zero, if_neg]
    rw [zero]
    exact Ne.symm written
  · rw [if_neg zero, if_neg zero, look_put_eq]

theorem sPoison_putS {t : Slot} {d : Nat} {v : W64} (written : d ≠ 0) {n : Nat} (small : n < 64) :
    bitAt (t.putS d v).sPoison n = if n = d then false else bitAt t.sPoison n := by
  unfold Slot.putS
  rw [if_neg written]
  exact (bitAt_setBit _ _ _ _ small).trans (by simp only [eq_comm])

/-- The arguments go to s1 to s4. -/
theorem withArgs_eq (l : List Byte) (t : Slot) : t.withArgs ((upto 0 4).map (recArg l)) =
    (((t.putS 1 (recArg l 0)).putS 2 (recArg l 1)).putS 3 (recArg l 2)).putS 4 (recArg l 3) := rfl

theorem still_loaded (l : List Byte) (bad : List Nat) (t : Slot) : noS (t.loaded l bad).still = noS t.still := by
  have args : noS (t.loaded l bad).still = noS (t.withArgs ((upto 0 4).map (recArg l))).still := rfl
  rw [args, withArgs_eq, still_putS, still_putS, still_putS, still_putS]

theorem scalar_loaded {l : List Byte} {bad : List Nat} {t : Slot} (clear : t.sr = []) (n : BitVec 6) :
    (t.loaded l bad).scalar n = if 1 ≤ n.toNat ∧ n.toNat ≤ 4 then recArg l (n.toNat - 1) else 0 := by
  have zero : t.scalar n = 0 := by unfold Slot.scalar; rw [clear]; split <;> rfl
  have args : (t.loaded l bad).scalar n = (t.withArgs ((upto 0 4).map (recArg l))).scalar n := rfl
  rw [args, withArgs_eq, scalar_putS (by decide), scalar_putS (by decide), scalar_putS (by decide), scalar_putS (by decide), zero]
  by_cases argument : 1 ≤ n.toNat ∧ n.toNat ≤ 4
  · have which : n.toNat = 1 ∨ n.toNat = 2 ∨ n.toNat = 3 ∨ n.toNat = 4 := by omega
    rcases which with e | e | e | e <;> simp [e]
  · rw [if_neg argument, if_neg (by omega), if_neg (by omega), if_neg (by omega), if_neg (by omega)]

theorem sPoison_loaded {l : List Byte} {bad : List Nat} {t : Slot} (clear : t.sPoison = 0) {n : Nat} (small : n < 64)
    (args : ∀ i, i ∈ bad → 1 ≤ i ∧ i ≤ 4) : bitAt (t.loaded l bad).sPoison n = decide (n ∈ bad) := by
  have start : bitAt (t.withArgs ((upto 0 4).map (recArg l))).sPoison n = false := by
    rw [withArgs_eq, sPoison_putS (by decide) small, sPoison_putS (by decide) small, sPoison_putS (by decide) small,
      sPoison_putS (by decide) small, clear]
    simp [bitAt]
  have marks : bitAt (t.loaded l bad).sPoison n =
      if 1 ≤ n ∧ n ≤ 4 then bad.contains n else bitAt (t.withArgs ((upto 0 4).map (recArg l))).sPoison n := by
    have sets : (t.loaded l bad).sPoison = setBit (setBit (setBit (setBit (t.withArgs ((upto 0 4).map (recArg l))).sPoison
      1 (bad.contains 1)) 2 (bad.contains 2)) 3 (bad.contains 3)) 4 (bad.contains 4) := rfl
    rw [sets, bitAt_setBit _ _ _ _ small, bitAt_setBit _ _ _ _ small, bitAt_setBit _ _ _ _ small, bitAt_setBit _ _ _ _ small]
    by_cases argument : 1 ≤ n ∧ n ≤ 4
    · have which : n = 1 ∨ n = 2 ∨ n = 3 ∨ n = 4 := by omega
      rcases which with rfl | rfl | rfl | rfl <;> rfl
    · rw [if_neg argument, if_neg (by omega), if_neg (by omega), if_neg (by omega), if_neg (by omega)]
  rw [marks, start]
  by_cases marked : n ∈ bad
  · simp [marked, args n marked]
  · simp [marked]

/-! ### Dispatch and refill -/

theorem hub_modHub_same (s : State) (h : Nat) (f : Hub → Hub) : (s.modHub h f).hub h = f (s.hub h) := by
  unfold State.modHub
  exact (look_put_eq h).trans (if_pos rfl)

/-- The record that comes next goes from the bank to its task; no mark beyond its arguments kills its thread. -/
theorem dispatch_runs {s : State} {c h : Nat} {r : QRec} {hs : List Nat} (active : s.coreActive c = true) (next : s.nextRecord c = some r)
    (free : (s.core c).freeTasks = h :: hs) (args : ∀ i, i ∈ r.poison → 1 ≤ i ∧ i ≤ 4) :
    exec (.dispatch c) s = .next (((s.modHub (c / 16) fun x => { x with bank := x.bank.erase r }).allocate c h (recRes r.bytes)
      (recReply r.bytes) r.root r.asp).startFirst c h r.bytes r.poison) := by
  have sound : (r.poison.any fun i => i == 0 || decide (5 ≤ i)) = false := by
    rw [List.any_eq_false]
    intro i mem
    have := args i mem
    simp
    omega
  show execDispatch c s = _
  unfold execDispatch
  simp only [active, next, free, sound, Bool.not_true, Bool.false_eq_true, if_false]

/-- Bytes without a latent error are read as they stand. -/
theorem correct_sound {s : State} {pa n : Nat} (sound : ∀ g, g ∈ s.latent → ¬ (pa / 8 ≤ g.1 ∧ g.1 ≤ (pa + n - 1) / 8)) :
    s.correct pa n = s := by
  have none : (s.latent.filter fun g => decide (pa / 8 ≤ g.1) && decide (g.1 ≤ (pa + n - 1) / 8)) = [] := by
    rw [List.filter_eq_nil_iff]
    intro g mem
    simpa using sound g mem
  unfold State.correct
  simp only [none, List.isEmpty_nil, if_true]

theorem freeSlots_congr {x y : Core} (same : x.unallocated = y.unallocated) : x.freeSlots = y.freeSlots :=
  (congrArg Core.freeSlots same : x.unallocated.freeSlots = y.unallocated.freeSlots)

theorem devec_congr {x y : Core} (same : x.unallocated = y.unallocated) : x.devec = y.devec :=
  (congrArg Core.devec same : x.unallocated.devec = y.unallocated.devec)

/-- The state after a dispatch: the hub without the record, the task with its resources, and its thread (R360 to R362). -/
theorem dispatch_starts {s : State} {c h k : Nat} {r : QRec} {hs ks : List Nat} (active : s.coreActive c = true)
    (next : s.nextRecord c = some r) (freeTask : (s.core c).freeTasks = h :: hs) (freeSlot : (s.core c).freeSlots = k :: ks)
    (sluice : resSluice (recRes r.bytes) = false) (pair : resPair (recRes r.bytes) = false) (args : ∀ i, i ∈ r.poison → 1 ≤ i ∧ i ≤ 4) :
    ∃ t u, exec (.dispatch c) s = .next t ∧ (t.hub (c / 16)).bank = (s.hub (c / 16)).bank.erase r ∧
      t.taskOf c h = (s.core c).newTask (recRes r.bytes) (recReply r.bytes) r.root r.asp ∧
      t.slot c k = Slot.loaded r.bytes r.poison u ∧ u.Fresh h (s.core c).devec := by
  let taken := s.modHub (c / 16) fun x => { x with bank := x.bank.erase r }
  obtain ⟨hubs, core, task⟩ := allocate_spec taken c h (recRes r.bytes) (recReply r.bytes) r.root r.asp
  have unmarked : ((taken.allocate c h (recRes r.bytes) (recReply r.bytes) r.root r.asp).taskOf c h).preempted = none := by rw [task]; rfl
  obtain ⟨hubs', tasks, u, stop, slot, fresh⟩ := startThread_spec (k := k) (Slot.loaded r.bytes r.poison) unmarked
  have devec := devec_congr core
  refine ⟨_, { u with halted := stop }, dispatch_runs active next freeTask args, ?_⟩
  rw [startFirst_single ((freeSlots_congr core).trans freeSlot) sluice pair]
  refine ⟨?bank, (tasks h).trans task, slot, fresh.live, fresh.task, fresh.privS, fresh.evec.trans devec, fresh.sr, fresh.sPoison⟩
  unfold State.hub
  rw [hubs', hubs]
  exact congrArg Hub.bank (hub_modHub_same s (c / 16) _)

/-- A hub whose ring of `cap` entries has given up its oldest one, `r`: a record goes into the bank, anything else is dropped (R357). -/
def Hub.refilled (x : Hub) (r : QRec) (cap : Nat) : Hub :=
  let good := recordOk r.bytes && !recSib r.bytes
  { x with bank := if good then x.bank ++ [r] else x.bank, drops := if good then x.drops else satAt 0xFFFF (x.drops + 1),
           ringHead := (x.ringHead + 1) % cap, ringCount := x.ringCount - 1 }

theorem refilled_good {r : QRec} (valid : recordOk r.bytes = true) (alone : recSib r.bytes = false) (x : Hub) (cap : Nat) :
    (x.refilled r cap).bank = x.bank ++ [r] ∧ (x.refilled r cap).drops = x.drops := by
  simp only [Hub.refilled, valid, alone, Bool.not_false, Bool.and_self, if_true, and_self]

theorem refilled_bad {r : QRec} (bad : recordOk r.bytes = false ∨ recSib r.bytes = true) (x : Hub) (cap : Nat) :
    (x.refilled r cap).bank = x.bank ∧ (x.drops < 0xFFFF → (x.refilled r cap).drops = x.drops + 1) := by
  have dropped : (recordOk r.bytes && !recSib r.bytes) = false := by rcases bad with h | h <;> simp [h]
  simp only [Hub.refilled, dropped, Bool.false_eq_true, if_false, satAt_eq_min, true_and]
  exact Nat.min_eq_right

/-- A refill moves the ring's oldest entry, whose bytes hold no latent error (R357). -/
theorem refill_runs {s : State} {h a : Nat} (place : a = s.ringBase h + (s.hub h).ringHead * 128) (room : (s.hub h).bank.length < 256)
    (waiting : 0 < (s.hub h).ringCount) (fits : 0 < s.ringCap h) (takes : s.homeOpen 4096 a = true) (sound : s.correct a 128 = s) :
    exec (.ringRefill h) s = .next (s.modHub h fun x =>
      x.refilled (QRec.ofRing (readBytes s.mem a 128) fun i => s.poisoned (a + 8 * i) 8) (s.ringCap h)) := by
  show execRingRefill h s = _
  unfold execRingRefill
  simp only [← place, room, waiting, fits, takes, sound, and_self, if_true]
  rfl

/-- Settles O20. -/
theorem dispatchResults : Obligations.DispatchResults := by
  refine ⟨?dispatch, ?refill⟩
  case dispatch =>
    intro s c h k r hs ks active next freeTask freeSlot sluice pair args
    obtain ⟨t, u, runs, bank, task, slot, fresh⟩ := dispatch_starts active next freeTask freeSlot sluice pair args
    refine ⟨t, runs, bank, ?_⟩
    have still := still_loaded r.bytes r.poison u
    rw [task, slot]
    exact ⟨rfl, rfl, rfl, rfl, (congrArg Slot.live still).trans fresh.live, (congrArg Slot.task still).trans fresh.task,
      (congrArg Slot.privS still).trans fresh.privS, rfl, (congrArg Slot.evec still).trans fresh.evec,
      fun n => ⟨scalar_loaded fresh.sr n, sPoison_loaded fresh.sPoison n.isLt args⟩⟩
  case refill =>
    intro s h a room waiting fits takes sound r
    have last : a + 128 - 1 = a + 127 := Nat.add_succ_sub_one a 127
    have correct : s.correct a 128 = s := correct_sound (by rw [last]; exact sound)
    refine ⟨_, refill_runs rfl room waiting fits takes correct, ?_⟩
    rw [hub_modHub_same]
    exact ⟨rfl, rfl, rfl, fun valid alone => refilled_good valid alone _ _, fun bad => refilled_bad bad _ _⟩

end Sys2Proof.Machine
end

section
/-! PROOF. O60: module reset. -/

namespace Sys2Proof.Machine

/-- At tick 0 every die is in cycle 1 (R219). -/
theorem cyc_reset (d : Nat) : State.reset.cyc d = 1 := by
  have die : State.reset.die d = {} := rfl
  have time : State.reset.time = 0 := rfl
  simp [State.cyc, die, time]

/-- Settles O60: the state after reset lists nothing, and what a table does not list is zero, full, present or not live. -/
theorem resetState : Obligations.ResetState := by
  refine ⟨reset_mem_wf, fun _ => ⟨rfl, rfl, rfl⟩, rfl, rfl, fun d => ⟨cyc_reset d, rfl, rfl, rfl, rfl⟩, fun _ => rfl, ?_⟩
  exact ⟨rfl, rfl, rfl, rfl, rfl, rfl, rfl, rfl, rfl, rfl, fun _ _ => rfl, rfl, fun _ _ => rfl, fun _ => rfl⟩

end Sys2Proof.Machine
end

section
/-! PROOF. O29: the checks of an access, in the order of R151, and the traps of scalar and vector accesses that fail them. -/

namespace Sys2Proof.Machine

/-! ### The checks of R151 -/

/-- Bits [63:57] of an address must be clear (R62). -/
theorem resolve_high {s : State} {x : Ctx} {va : W64} {a : Acc} (high : 2 ^ 57 ≤ va.toNat) : s.resolve x va a = .error (.trap 4 0) :=
  if_pos high

/-- An address of the own-scratchpad window beyond the task's banks (R64). -/
theorem resolve_beyond_banks {s : State} {x : Ctx} {va : W64} {a : Acc} (window : va.toNat < 0x80000)
    (beyond : (s.taskOf x.core x.task).banks.length ≤ va.toNat / 4096) : s.resolve x va a = .error (.trap 5 0x100) := by
  have low : ¬ 2 ^ 57 ≤ va.toNat := by omega
  have none : s.bankOf x.core x.task (va.toNat / 4096) = none := List.getElem?_eq_none beyond
  unfold State.resolve
  simp only [if_neg low, if_pos window, none]

theorem resolveM_misaligned {s : State} {va : W64} {n lane : Nat} {a : Acc} (odd : va.toNat % n ≠ 0) :
    resolveM va n a lane s = .error (.trap 3 va (w64 lane)) := if_pos odd

theorem resolveM_trap {s : State} {va : W64} {n lane c d : Nat} {a : Acc} (aligned : va.toNat % n = 0)
    (fails : s.resolve s.myCtx va a = .error (.trap c d)) : resolveM va n a lane s = .error (.trap c va (w64 (lane + d))) := by
  unfold resolveM
  simp only [aligned, ne_eq, not_true_eq_false, if_false, fails]

/-- An access that passes the checks. -/
theorem resolveM_reaches {s : State} {va : W64} {n lane : Nat} {a : Acc} {l : Loc} (h : s.Reaches va n a l) :
    resolveM va n a lane s = .ok (l, s) := by
  obtain ⟨aligned, resolves, host⟩ := h
  unfold resolveM
  simp only [aligned, ne_eq, not_true_eq_false, if_false, resolves]
  split
  · next region => exact absurd (host _ region) (by decide)
  · next region => exact absurd (host _ region) (by decide)
  · rfl

/-- An access that fails them traps, with one cause or another. -/
theorem resolveM_fails {s : State} {va : W64} {n lane : Nat} {a : Acc} (h : s.Fails va n a) (data : a ≠ .fetch) :
    ∃ c st, resolveM va n a lane s = .error (.trap c va st) := by
  by_cases aligned : va.toNat % n = 0
  · rcases h with odd | ⟨c, d, fails⟩ | ⟨writes, l, o, resolves, region⟩
    · exact absurd aligned odd
    · exact ⟨c, _, resolveM_trap aligned fails⟩
    · refine ⟨5, w64 lane, ?_⟩
      unfold resolveM
      simp only [aligned, ne_eq, not_true_eq_false, if_false, resolves, region]
      cases a with
      | load => exact absurd rfl writes
      | fetch => exact absurd rfl data
      | store => rfl
      | atomic => rfl
  · exact ⟨3, _, resolveM_misaligned aligned⟩

/-! ### Scalar accesses -/

/-- `s[a] + sext(i) × scale` is the sum of the numbers. -/
theorem scaled_eq {n : Nat} (base : W64) (i : BitVec n) (scale : Nat) :
    scaled base i scale = BitVec.ofInt 64 (base.toInt + scale * i.toInt) := by
  rw [BitVec.ofInt_add, BitVec.ofInt_mul, BitVec.ofInt_toInt, BitVec.ofInt_natCast]
  rfl

/-- Nothing of the thread's own is outstanding into a destination that is open. -/
theorem roomFor_open {s : State} {d : BitVec 6} (o : s.me.openS d) : roomFor d.toNat s = .ok ((), s) := by
  have port : s.me.isPort d.toNat = false := by
    rcases o with rfl | ⟨port, -⟩
    · rfl
    · exact port
  have idle : ¬ (d.toNat ≠ 0 ∧ bitAt s.me.sAwait d.toNat = true) := by
    rintro ⟨some, awaits⟩
    rcases o with rfl | ⟨-, idle⟩
    · exact some rfl
    · rw [idle] at awaits
      exact Bool.false_ne_true awaits
  unfold roomFor
  rw [bind_ok rfl, port]
  exact if_neg idle

/-- A load or store of `n` bytes at `va` traps on the checks of R62, R64 and R151, in their order. -/
def State.ChecksAddress (s : State) (j : Instr) (va : W64) (n : Nat) : Prop :=
  (va.toNat % n ≠ 0 → Traps j s 3 va 0) ∧ (va.toNat % n = 0 → 2 ^ 57 ≤ va.toNat → Traps j s 4 va 0) ∧
    (va.toNat % n = 0 → va.toNat < 0x80000 → (s.taskOf s.cur.core s.me.task).banks.length ≤ va.toNat / 4096 → Traps j s 5 va 0x100)

/-- An instruction that stops where its address does. -/
theorem checksAddress_of {s : State} {j : Instr} {m : M Unit} {va : W64} {n : Nat} {a : Acc} (b : s.begun) (handler : s.me.evec ≠ 0)
    (untraced : s.untraced) (runs : exec j s = run m s) (stops : ∀ e, resolveM va n a 0 s = .error e → m s = .error e) :
    s.ChecksAddress j va n :=
  ⟨fun odd => traps_of runs (stops _ (resolveM_misaligned odd)) b handler untraced (by decide) (by decide),
   fun aligned high => traps_of runs (stops _ (resolveM_trap aligned (resolve_high high))) b handler untraced (by decide) (by decide),
   fun aligned window beyond => traps_of runs (stops _ (resolveM_trap aligned (resolve_beyond_banks window beyond))) b handler untraced
     (by decide) (by decide)⟩

/-- A load whose address fails stops there. -/
theorem loadM_stops {s : State} {d a : BitVec 6} {i : BitVec 11} {n : Nat} {signed : Bool} {e : Stop} (ready : s.me.readyS a)
    (o : s.me.openS d) (fails : resolveM (scaled (s.me.scalar a) i n) n .load 0 s = .error e) : loadM d a i n signed s = .error e := by
  unfold loadM sendLoad
  rw [bind_ok (readS_ready ready), bind_ok (roomFor_open o), bind_error fails]

/-- A store whose address fails stops there. -/
theorem storeM_stops {s : State} {d a : BitVec 6} {i : BitVec 11} {n : Nat} {e : Stop} (ready : s.me.readyS a) (data : s.me.readyS d)
    (fails : resolveM (scaled (s.me.scalar a) i n) n .store 0 s = .error e) : storeM d a i n s = .error e := by
  unfold storeM sendStore
  rw [bind_ok (readS_ready ready), bind_ok (readS_ready data), bind_error fails]

/-- R62, R64, R151: scalar loads and stores. -/
theorem scalarAddressTraps : Sys2Proof.Says.AddressTraps := by
  intro s d a b i begun handler untraced ready va bad
  have load {j : Instr} {n : Nat} {signed : Bool} (o : s.me.openS d) (runs : exec j s = run (loadM d a i n signed) s) : bad j n := by
    have at_ : scaled (s.me.scalar a) i n = va n := scaled_eq _ i n
    exact checksAddress_of begun handler untraced runs fun e fails => loadM_stops ready o (by rw [at_]; exact fails)
  have store {j : Instr} {n : Nat} (data : s.me.readyS b) (runs : exec j s = run (storeM b a i n) s) : bad j n := by
    have at_ : scaled (s.me.scalar a) i n = va n := scaled_eq _ i n
    exact checksAddress_of begun handler untraced runs fun e fails => storeM_stops ready data (by rw [at_]; exact fails)
  clear_value bad
  exact ⟨fun o => ⟨load o rfl, load o rfl, load o rfl, load o rfl, load o rfl, load o rfl, load o rfl⟩,
    fun data => ⟨store data rfl, store data rfl, store data rfl, store data rfl⟩⟩

/-! ### The lanes of a vector access -/

theorem upto_eq_range' (lo n : Nat) : upto lo n = List.range' lo n := by
  induction n generalizing lo with
  | zero => rfl
  | succ n ih => rw [upto, ih, List.range'_succ]

/-- A lane of E stands after the lanes of E below it. -/
theorem lanesOf_split {e : W16} {i : Nat} (hi : i < 16) (active : bitAt e i = true) :
    ∃ below above, lanesOf e = below ++ i :: above ∧ ∀ j, j ∈ below → j < i ∧ bitAt e j = true := by
  have split : upto 0 16 = upto 0 i ++ i :: upto (i + 1) (15 - i) := by
    have join := List.range'_append_1 (s := 0) (m := i) (n := 15 - i + 1)
    rw [Nat.zero_add, show i + (15 - i + 1) = 16 by omega, List.range'_succ] at join
    simp only [upto_eq_range', join]
  refine ⟨(upto 0 i).filter fun j => bitAt e j, (upto (i + 1) (15 - i)).filter fun j => bitAt e j, ?_, fun j hj => ?_⟩
  · rw [lanesOf, split, List.filter_append, List.filter_cons, if_pos active]
  · rw [List.mem_filter, upto_eq_range', List.mem_range'_1] at hj
    obtain ⟨⟨-, below⟩, active⟩ := hj
    exact ⟨by omega, active⟩

/-- Lane `i` of E is the first that traps (R250): its address is misaligned, and each lane of E below it passes the checks, or is a helper
that fails them. -/
def State.FirstBadLane (s : State) (e : W16) (addr : Nat → W64) (a : Acc) (i : Nat) : Prop :=
  (addr i).toNat % 4 ≠ 0 ∧
    ∀ j, j < i → bitAt e j = true → (∃ l, s.Reaches (addr j) 4 a l) ∨ (bitAt s.me.hlp j = true ∧ s.Fails (addr j) 4 a)

theorem checkLane_passes {s : State} {a : Acc} {addr : Nat → W64} {j : Nat} (data : a ≠ .fetch)
    (h : (∃ l, s.Reaches (addr j) 4 a l) ∨ (bitAt s.me.hlp j = true ∧ s.Fails (addr j) 4 a)) :
    ∃ r, checkLane a addr s.me.hlp j s = .ok (r, s) := by
  unfold checkLane
  rcases h with ⟨l, reaches⟩ | ⟨helper, fails⟩
  · exact ⟨some l, by rw [resolveM_reaches reaches]⟩
  · obtain ⟨c, st, stops⟩ := resolveM_fails (lane := j) fails data
    exact ⟨none, by rw [stops]; exact if_pos helper⟩

theorem checkLane_misaligned {s : State} {a : Acc} {addr : Nat → W64} {hlp : W16} {i : Nat} (odd : (addr i).toNat % 4 ≠ 0)
    (live : bitAt hlp i = false) : checkLane a addr hlp i s = .error (.trap 3 (addr i) (w64 i)) := by
  unfold checkLane
  rw [resolveM_misaligned odd]
  exact if_neg (by rw [live]; exact Bool.false_ne_true)

/-- The checks stop at the first lane that stops. -/
theorem checkLanes_stops {s : State} {a : Acc} {addr : Nat → W64} {hlp : W16} {i : Nat} {e : Stop} {below above : List Nat}
    (pass : ∀ j, j ∈ below → ∃ r, checkLane a addr hlp j s = .ok (r, s)) (stops : checkLane a addr hlp i s = .error e) :
    checkLanes a addr hlp (below ++ i :: above) s = .error e := by
  induction below with
  | nil => rw [List.nil_append, checkLanes, bind_error stops]
  | cons j below ih =>
    obtain ⟨r, ok⟩ := pass j (List.mem_cons_self ..)
    rw [List.cons_append, checkLanes, bind_ok ok, bind_error (ih fun k hk => pass k (List.mem_cons_of_mem _ hk))]

theorem checkLanes_firstBad {s : State} {e : W16} {addr : Nat → W64} {a : Acc} {i : Nat} (data : a ≠ .fetch) (hi : i < 16)
    (active : bitAt e i = true) (live : bitAt s.me.hlp i = false) (first : s.FirstBadLane e addr a i) :
    checkLanes a addr s.me.hlp (lanesOf e) s = .error (.trap 3 (addr i) (w64 i)) := by
  obtain ⟨odd, before⟩ := first
  obtain ⟨below, above, split, low⟩ := lanesOf_split hi active
  rw [split]
  refine checkLanes_stops (fun j hj => ?_) (checkLane_misaligned odd live)
  obtain ⟨lt, on⟩ := low j hj
  exact checkLane_passes data (before j lt on)

/-! ### Vector accesses -/

theorem readGranules_sound {s : State} {l : List Nat} (sound : s.me.rErr = []) : readGranules l s = .ok ((), s) := by
  unfold readGranules
  rw [sound]
  rfl

theorem soundK_ok {s : State} {k : BitVec 3} (sound : s.me.rErr = []) : soundK k s = .ok ((), s) := by
  unfold soundK
  split
  · rfl
  · exact readGranules_sound sound

theorem soundA_ok {s : State} {n : BitVec 4} (sound : s.me.rErr = []) : soundA n s = .ok ((), s) := readGranules_sound sound

theorem readV_ready {s : State} {n : BitVec 5} (h : s.me.readyV n) : readV n s = .ok ((upto 0 16).map (s.me.lane n.toNat), s) := by
  obtain ⟨full, idle, clean, correct⟩ := h
  have sound : ¬ (s.me.vErr.any fun g => g / 8 == n.toNat) = true := by
    simp only [List.any_eq_true, beq_iff_eq, not_exists, not_and]
    exact correct
  simp only [readV, full, idle, clean, sound, Bool.not_true, Bool.false_eq_true, if_false]

/-- The lanes of E, with the active mask written out (R206, R240). -/
theorem effective_eq (t : Slot) (k : BitVec 3) : t.effective k = (t.act ||| t.hlp) &&& (if k = 0 then 0xFFFF else look 0 t.kr k.toNat) := by
  unfold Slot.effective Slot.mask
  by_cases zero : k = 0
  · rw [if_pos zero, if_pos zero, BitVec.and_self]
    exact (BitVec.and_allOnes (x := t.act ||| t.hlp)).symm
  · rw [if_neg zero, if_neg zero, if_neg zero]

/-- A vector load stops at the first lane that traps, before it has sent any element. -/
theorem vloadM_stops {s : State} {d : BitVec 5} {k : BitVec 3} {addr : Nat → W64} {e : Stop} (sound : s.me.rErr = []) (o : s.me.openV d)
    (fails : checkLanes .load addr s.me.hlp (lanesOf (s.me.effective k)) s = .error e) : vloadM d k addr s = .error e := by
  have free : freeV d.toNat s = .ok ((), s) := if_neg (by rw [show bitAt s.me.vAwait d.toNat = false from o]; exact Bool.false_ne_true)
  unfold vloadM
  rw [bind_ok free, bind_ok (soundK_ok sound), bind_ok rfl]
  exact bind_error fails

/-- A vector store likewise. -/
theorem vstoreM_stops {s : State} {d : BitVec 5} {k : BitVec 3} {addr : Nat → W64} {e : Stop} (sound : s.me.rErr = []) (ready : s.me.readyV d)
    (fails : checkLanes .store addr s.me.hlp (lanesOf (s.me.effective k)) s = .error e) : vstoreM d k addr s = .error e := by
  unfold vstoreM
  rw [bind_ok (readV_ready ready), bind_ok (soundK_ok sound), bind_ok rfl]
  exact bind_error fails

/-- The address of a lane is the sum of the numbers (R205, R249). -/
theorem laneAddr_eq (t : Slot) (n : BitVec 4) (i : Nat) : laneAddr t n i = BitVec.ofInt 64 ((t.aff n).1.toNat + i * (t.aff n).2.toInt) := by
  rw [BitVec.ofInt_add, BitVec.ofInt_mul, BitVec.ofInt_natCast, BitVec.ofInt_natCast, BitVec.ofNat_toNat, BitVec.setWidth_eq]
  rfl

theorem offsetAddr_eq (t : Slot) (n : BitVec 4) (imm : BitVec 14) (i : Nat) :
    offsetAddr t n imm i = BitVec.ofInt 64 ((t.aff n).1.toNat + i * (t.aff n).2.toInt + 4 * imm.toInt) := by
  rw [BitVec.ofInt_add, ← laneAddr_eq, BitVec.ofInt_mul]
  rfl

theorem indexAddr_eq {x : BitVec 5} (t : Slot) (n : BitVec 4) (scale : Nat) {i : Nat} (hi : i < 16) :
    indexAddr t n ((upto 0 16).map (t.lane x.toNat)) scale i =
      BitVec.ofInt 64 ((t.aff n).1.toNat + i * (t.aff n).2.toInt + scale * (t.lane x.toNat i).toInt) := by
  have lane : ((upto 0 16).map (t.lane x.toNat)).getD i 0 = t.lane x.toNat i := by
    rw [List.getD_eq_getElem?_getD, List.getElem?_map, upto_eq_range', List.getElem?_range' hi, Nat.zero_add, Nat.one_mul]
    rfl
  rw [BitVec.ofInt_add, ← laneAddr_eq, BitVec.ofInt_mul, BitVec.ofInt_natCast]
  unfold indexAddr
  rw [lane]
  rfl

theorem State.FirstBadLane.congr {s : State} {e : W16} {addr addr' : Nat → W64} {a : Acc} {i : Nat} (same : ∀ j, j ≤ i → addr' j = addr j)
    (h : s.FirstBadLane e addr a i) : s.FirstBadLane e addr' a i := by
  obtain ⟨odd, before⟩ := h
  refine ⟨by rw [same i le_rfl]; exact odd, fun j lt on => ?_⟩
  rw [same j lt.le]
  exact before j lt on

/-- A vector instruction that reads its affine register. -/
theorem withBase_sound {α : Type} {s : State} {n : BitVec 4} {f : Slot → M α} (sound : s.me.rErr = []) :
    (soundA n >>= fun _ => getMe >>= f) s = f s.me s := by
  rw [bind_ok (soundA_ok sound), bind_ok rfl]

/-- A vector instruction that reads its index register first. -/
theorem withIndex_ready {α : Type} {s : State} {x : BitVec 5} {n : BitVec 4} {f : List W32 → Slot → M α} (sound : s.me.rErr = [])
    (ready : s.me.readyV x) :
    (readV x >>= fun l => soundA n >>= fun _ => getMe >>= f l) s = f ((upto 0 16).map (s.me.lane x.toNat)) s.me s := by
  rw [bind_ok (readV_ready ready), withBase_sound sound]

/-- A vector access that stops where the checks of its lanes do. -/
theorem traps_firstBad {s : State} {j : Instr} {m : M Unit} {addr : Nat → W64} {a : Acc} {k : BitVec 3} {i : Nat} (begun : s.begun)
    (handler : s.me.evec ≠ 0) (untraced : s.untraced) (runs : exec j s = run m s)
    (stops : ∀ e, checkLanes a addr s.me.hlp (lanesOf (s.me.effective k)) s = .error e → m s = .error e) (data : a ≠ .fetch) (hi : i < 16)
    (active : bitAt (s.me.effective k) i = true) (live : bitAt s.me.hlp i = false) (first : s.FirstBadLane (s.me.effective k) addr a i) :
    Traps j s 3 (addr i) (w64 i) :=
  traps_of runs (stops _ (checkLanes_firstBad data hi active live first)) begun handler untraced (by decide)
    ((Nat.mod_le _ _).trans_lt (hi.trans (by decide)))

/-- R250: the first lane that is no helper and is misaligned. -/
theorem vectorTraps : Sys2Proof.Says.VectorTraps := by
  intro s d x n k imm i begun untraced handler e lane off index hi active live first
  obtain ⟨-, -, -, sound, -⟩ := id begun
  have lanes : s.me.effective k = e := effective_eq s.me k
  have offset (j : Nat) (_ : j ≤ i) : offsetAddr s.me n imm j = off j := offsetAddr_eq s.me n imm j
  have indexed (scale j : Nat) (hj : j ≤ i) : indexAddr s.me n ((upto 0 16).map (s.me.lane x.toNat)) scale j = index scale j :=
    indexAddr_eq s.me n scale (hj.trans_lt hi)
  have firstTraps {j : Instr} {m : M Unit} {addr addr' : Nat → W64} {a : Acc} (data : a ≠ .fetch) (h : first addr' a)
      (same : ∀ j, j ≤ i → addr j = addr' j) (runs : exec j s = run m s)
      (stops : ∀ r, checkLanes a addr s.me.hlp (lanesOf (s.me.effective k)) s = .error r → m s = .error r) :
      Traps j s 3 (addr' i) (w64 i) := by
    rw [← same i le_rfl]
    rw [← lanes] at active
    refine traps_firstBad begun handler untraced runs stops data hi active live ?_
    rw [lanes]
    exact State.FirstBadLane.congr same h
  have load {j : Instr} {m : M Unit} {addr addr' : Nat → W64} (o : s.me.openV d) (h : first addr' .load)
      (same : ∀ j, j ≤ i → addr j = addr' j) (runs : exec j s = run m s) (vload : m s = vloadM d k addr s) :
      Traps j s 3 (addr' i) (w64 i) :=
    firstTraps (by decide) h same runs fun _ fails => vload.trans (vloadM_stops sound o fails)
  have store {j : Instr} {m : M Unit} {addr addr' : Nat → W64} (ready : s.me.readyV d) (h : first addr' .store)
      (same : ∀ j, j ≤ i → addr j = addr' j) (runs : exec j s = run m s) (vstore : m s = vstoreM d k addr s) :
      Traps j s 3 (addr' i) (w64 i) :=
    firstTraps (by decide) h same runs fun _ fails => vstore.trans (vstoreM_stops sound ready fails)
  refine ⟨fun o h => load o h offset rfl (withBase_sound sound), fun ready h => store ready h offset rfl (withBase_sound sound), fun ready => ?_⟩
  exact ⟨fun o h => load o h (indexed 1) rfl (withIndex_ready sound ready), fun data h => store data h (indexed 1) rfl (withIndex_ready sound ready),
    fun o h => load o h (indexed 4) rfl (withIndex_ready sound ready), fun data h => store data h (indexed 4) rfl (withIndex_ready sound ready)⟩

/-- Settles O29: each access stops at the first check of R151 that it fails, before it has sent anything. -/
theorem addressTraps : Obligations.AddressTraps := ⟨scalarAddressTraps, vectorTraps⟩

end Sys2Proof.Machine
end

section
/-! PROOF. O15: MOVTC and MOVC that wait for an event, the completion of those waits, and the register writes and reads that are steps of
their own. -/

namespace Sys2Proof.Machine

/-! ### The completion of a wait -/

/-- The module is the same, and one thread stands where it stood and waits as it waited. -/
structure KeepsPlace (c k : Nat) (s t : State) : Prop where
  module : { t with cores := [] } = { s with cores := [] }
  pc : (t.slot c k).pc = (s.slot c k).pc
  wait : (t.slot c k).wait = (s.slot c k).wait

theorem KeepsPlace.refl (c k : Nat) (s : State) : KeepsPlace c k s s := ⟨rfl, rfl, rfl⟩

theorem KeepsPlace.trans {c k : Nat} {s t u : State} (h : KeepsPlace c k s t) (g : KeepsPlace c k t u) : KeepsPlace c k s u :=
  ⟨g.module.trans h.module, g.pc.trans h.pc, g.wait.trans h.wait⟩

theorem KeepsPlace.modSlot {c k : Nat} (s : State) (d j : Nat) {f : Slot → Slot} (pc : ∀ t, (f t).pc = t.pc)
    (wait : ∀ t, (f t).wait = t.wait) : KeepsPlace c k s (s.modSlot d j f) := by
  refine ⟨rfl, ?_, ?_⟩ <;> rw [slot_modSlot] <;> split
  · exact pc _
  · rfl
  · exact wait _
  · rfl

theorem pc_putS (t : Slot) (d : Nat) (v : W64) : (t.putS d v).pc = t.pc := by unfold Slot.putS; split <;> rfl

theorem wait_putS (t : Slot) (d : Nat) (v : W64) : (t.putS d v).wait = t.wait := by unfold Slot.putS; split <;> rfl

/-- Fills that land write scalar registers alone. -/
theorem KeepsPlace.landFills {c k : Nat} (s : State) (d lead : Nat) : KeepsPlace c k s (s.landFills d lead) := by
  unfold State.landFills
  dsimp only
  split
  · split
    · exact .refl ..
    · refine (KeepsPlace.modSlot s d lead (f := fun l => { l with lvq := l.lvq.filter _ }) (fun _ => rfl) fun _ => rfl).trans
        (.modSlot _ d _ (fun t => ?_) fun t => ?_)
      · exact foldl_keeps (fun t u : Slot => u.pc = t.pc) (fun _ => rfl) (fun _ _ _ h g => g.trans h) _ (fun t _ => pc_putS t _ _) _ t
      · exact foldl_keeps (fun t u : Slot => u.wait = t.wait) (fun _ => rfl) (fun _ _ _ h g => g.trans h) _ (fun t _ => wait_putS t _ _) _ t
  · exact .refl ..

theorem KeepsPlace.landMine {c k : Nat} (s : State) (d j : Nat) : KeepsPlace c k s (s.landMine d j) := by
  unfold State.landMine
  split
  · exact .landFills ..
  · exact .refl ..

theorem KeepsPlace.publish {c k : Nat} (s : State) (d : Nat) (b : Bundle) : KeepsPlace c k s (s.publish d b) := by
  obtain ⟨module, -, threads, -⟩ := publish_keeps s c d k b
  exact ⟨module, (congrArg Slot.pc (threads c k) :), (congrArg Slot.wait (threads c k) :)⟩

theorem slot_takeHeads (s : State) (c d k : Nat) (l : List Nat) : (s.takeHeads c l).slot d k = s.slot d k := by
  unfold State.takeHeads
  split
  · rfl
  · refine slot_modCore ?_ d k
    exact fun _ => rfl

theorem module_takeHeads (s : State) (c : Nat) (l : List Nat) : { s.takeHeads c l with cores := [] } = { s with cores := [] } := by
  unfold State.takeHeads
  split <;> rfl

/-- An instruction is retired by taking its port entries, moving its thread on, and landing the fills of its pair. -/
theorem retire_takes (s : State) (c k : Nat) :
    s.retire c k none = ((s.takeHeads c (s.slot c k).pops).setSlot c k ((s.slot c k).past none)).landMine c k := by
  unfold State.retire
  simp only [slot_takeHeads]
  rfl

/-- Whatever its pair and its ports, a thread that has passed its instruction goes on at its next address. -/
theorem passed_goesOn (s : State) (c k : Nat) (w : W32) :
    { s.passed c k w none with cores := [] } = { s with cores := [] } ∧ ((s.passed c k w none).slot c k).pc = (s.slot c k).next.pc ∧
      ((s.passed c k w none).slot c k).wait = .run := by
  have retired : KeepsPlace c k ((s.takeHeads c (s.slot c k).pops).setSlot c k ((s.slot c k).past none)) (s.retire c k none) := by
    rw [retire_takes]; exact .landMine ..
  have passed : KeepsPlace c k (s.retire c k none) (s.passed c k w none) := by
    unfold State.passed
    dsimp only
    split
    · exact .publish ..
    · exact .refl ..
  obtain ⟨module, pc, wait⟩ := retired.trans passed
  rw [slot_setSlot_same] at pc wait
  exact ⟨module.trans (module_takeHeads ..), pc, wait⟩

theorem landMine_none {s : State} {c k : Nat} (h : s.noLanding c k) : s.landMine c k = s := by
  unfold State.landMine
  split
  · next j trails => exact landFills_none (noLanding_at h trails)
  · rfl

/-- With no fill to land, the thread itself is as its instruction left it, but for bundles in transit to it. -/
theorem passed_slot {s : State} {c k : Nat} (w : W32) (h : s.noLanding c k) :
    { (s.passed c k w none).slot c k with chFly := [] } = { (s.slot c k).past none with chFly := [] } := by
  have heads : (s.takeHeads c (s.slot c k).pops).noLanding c k := by rw [noLanding_congr fun d j => slot_takeHeads s c d j _]; exact h
  have still := noLanding_mod heads (f := fun _ => (s.slot c k).past none) (by rw [past_role, slot_takeHeads]) (by rw [past_lvq, slot_takeHeads])
  have retired : (s.retire c k none).slot c k = (s.slot c k).past none := by
    rw [retire_takes]; exact (congrArg (fun t : State => t.slot c k) (landMine_none still)).trans (slot_setSlot_same ..)
  unfold State.passed
  dsimp only
  split
  · rw [(publish_keeps _ c c k _).threads c k, retired]
  · rw [retired]

/-! ### The waits of HMAP, PDIRBASE, RSTPOST and PMRD -/

theorem output_single {s : State} (r : s.me.role = .single) (kind : Nat) (va : W64) (size : Nat) (data : List W64) :
    output kind va size data s = .ok (true, s) := by
  unfold output
  simp only [r]

theorem writeCreg_hmap {s : State} {v : W64} (r : s.me.role = .single) (word : s.hmapsel < 80) :
    writeCreg 0x374 v s = .error (.busy s 3 (.hmap s.hmapsel v)) := by
  have wait : (askM State.hmapsel >>= fun w => if w < 80 then busyM 3 (.hmap w v) else pure ()) s
      = .error (.busy s 3 (.hmap s.hmapsel v)) := (bind_ok rfl).trans (congrFun (if_pos word) s)
  exact (bind_ok (output_single r ..)).trans wait

theorem writeCreg_pdirbase {s : State} {v : W64} (r : s.me.role = .single) : writeCreg 0x312 v s = .error (.busy s 3 (.pdirbase v)) :=
  bind_ok (output_single r ..)

theorem writeCreg_rstpost {s : State} {v : W64} (r : s.me.role = .single) : writeCreg 0x331 v s = .error (.busy s 3 (.rstpost v)) :=
  bind_ok (output_single r ..)

/-- A MOVTC at S whose write waits. -/
theorem movtc_begins {s : State} {a : BitVec 6} {n : BitVec 14} {code : Nat} {w : Busy} (ready : s.me.readyS a) (priv : s.me.privS = true)
    (waits : writeCreg n.toNat (s.me.scalar a) s = .error (.busy s code w)) (plain : cregPlain n.toNat = true := by decide)
    (shadow : inRange n.toNat 0x180 0x187 = false ∧ n.toNat ≠ 0x190 := by decide) : Begins (.movtc a n) s code w := by
  obtain ⟨m, runs, writes⟩ := movtc_runs ready (cregCheck_ok (fun _ => priv) (beyond_plain plain _)) shadow
  rw [priv, Bool.not_true, Bool.false_and, if_neg Bool.false_ne_true, waits] at writes
  rw [Begins, runs]
  exact run_waits writes

/-- MOVC of PMRD waits for the named core's answer (R409). -/
theorem movc_pmrd_begins {s : State} {d : BitVec 6} (o : s.me.openS d) (r : s.me.role = .single) :
    Begins (.movc d 0x2B9) s 3 (.pmrd d.toNat) := by
  have check : cregCheck 0x2B9 s = .ok ((), s) := cregCheck_ok (fun priv => absurd priv (by decide)) (beyond_plain rfl _)
  have waits : readPmrd d.toNat s = .error (.busy s 3 (.pmrd d.toNat)) := by
    have reserved : reserveInput (cregKey 0x2B9) s = .ok ((), s) := by unfold reserveInput; rw [r]
    unfold readPmrd
    rw [bind_ok (roomFor_open o), bind_ok rfl, r]
    exact bind_ok reserved
  exact run_waits ((bind_ok check).trans waits)

theorem hmapWrite_completes {s : State} {c k code w : Nat} {v : W64} (waits : (s.slot c k).wait = .busy code (.hmap w v)) :
    exec (.hmapWrite c k) s = .next ({ s with hmap := put s.hmap w v }.complete c k fun t => t) := by
  show execHmapWrite c k s = _
  unfold execHmapWrite
  rw [waits]

theorem pdirbaseWrite_completes {s : State} {c k code : Nat} {v : W64} (waits : (s.slot c k).wait = .busy code (.pdirbase v)) :
    exec (.pdirbaseWrite c k) s = .next ((s.writeModule c 0x312 v).complete c k fun t => t) := by
  show execPdirbaseWrite c k s = _
  unfold execPdirbaseWrite
  rw [waits]

/-- A wait that ends without a write of its thread's registers. -/
theorem complete_goesOn (s : State) (c k : Nat) :
    { s.complete c k (fun t => t) with cores := [] } = { s with cores := [] } ∧
      ((s.complete c k fun t => t).slot c k).pc = (s.slot c k).next.pc ∧ ((s.complete c k fun t => t).slot c k).wait = .run := by
  have thread : (s.modSlot c k fun t => t).slot c k = s.slot c k := slot_setSlot_same ..
  have h := passed_goesOn (s.modSlot c k fun t => t) c k (s.slot c k).word
  rw [thread] at h
  exact h

/-- What enters a leading thread's load-value queue changes nothing else of the thread. -/
theorem lvNote_rest (t : Slot) (key v : W64) : (t.lvNote key v).role = t.role ∧ (t.lvNote key v).next.pc = t.next.pc ∧
    (t.lvNote key v).sr = t.sr ∧ (t.lvNote key v).sFull = t.sFull ∧ (t.lvNote key v).sPoison = t.sPoison ∧
    (t.lvNote key v).sErr = t.sErr := by
  unfold Slot.lvNote
  split
  · exact ⟨rfl, next_pc_congr rfl rfl rfl, rfl, rfl, rfl, rfl⟩
  · exact ⟨rfl, rfl, rfl, rfl, rfl, rfl⟩

theorem noLanding_lvNote {s : State} {c k : Nat} (h : s.noLanding c k) (key v : W64) :
    (s.modSlot c k fun t => t.lvNote key v).noLanding c k := by
  obtain ⟨role, -⟩ := lvNote_rest (s.slot c k) key v
  cases r : (s.slot c k).role with
  | trailing j => exact noLanding_mod h role (by unfold Slot.lvNote; rw [r])
  | single => unfold State.noLanding; rw [slot_modSlot, if_pos ⟨rfl, rfl⟩, role, r]
  | leading j => unfold State.noLanding; rw [slot_modSlot, if_pos ⟨rfl, rfl⟩, role, r]

/-- A value that ends a wait is written, and the thread goes on (R227, R409). -/
theorem complete_putS {s : State} {c k : Nat} (d : BitVec 6) (v key : W64) (h : s.noLanding c k) :
    let t := (s.modSlot c k fun t => t.putS d.toNat v).complete c k fun t => t.lvNote key v
    (t.slot c k).pc = (s.slot c k).next.pc ∧ (t.slot c k).wait = .run ∧ HoldsS (s.by_ c k) t d v := by
  intro t
  have put := noLanding_mod h (f := fun t => t.putS d.toNat v) (role_putS ..) (lvq_putS ..)
  have thread : ((s.modSlot c k fun t => t.putS d.toNat v).modSlot c k fun t => t.lvNote key v).slot c k =
      ((s.slot c k).putS d.toNat v).lvNote key v := by
    rw [slot_modSlot, if_pos ⟨rfl, rfl⟩, slot_modSlot, if_pos ⟨rfl, rfl⟩]
  have past : { t.slot c k with chFly := [] } = { (((s.slot c k).putS d.toNat v).lvNote key v).past none with chFly := [] } := by
    rw [← thread]; exact passed_slot _ (noLanding_lvNote put key v)
  obtain ⟨sr, full, poison, err⟩ := past_sr (((s.slot c k).putS d.toNat v).lvNote key v)
  obtain ⟨-, next, sr', full', poison', err'⟩ := lvNote_rest ((s.slot c k).putS d.toNat v) key v
  refine ⟨(congrArg Slot.pc past :).trans (next.trans (next_pc_putS ..)), (congrArg Slot.wait past :), ?_⟩
  exact .of_put (s := s.by_ c k) (t := t) rfl ((congrArg Slot.sr past :).trans (sr.trans sr'))
    ((congrArg Slot.sFull past :).trans (full.trans full')) ((congrArg Slot.sPoison past :).trans (poison.trans poison'))
    ((congrArg Slot.sErr past :).trans (err.trans err'))

theorem pmrdRead_completes {s : State} {c k code : Nat} {d : BitVec 6} (waits : (s.slot c k).wait = .busy code (.pmrd d.toNat))
    (register : (s.slot c k).isPort d.toNat = false) :
    exec (.pmrdRead c k) s = .next ((s.bump.modSlot c k fun t => t.putS d.toNat (s.pmrdValue c k)).complete c k
      fun t => t.lvNote (cregKey 0x2B9) (s.pmrdValue c k)) := by
  have ready : s.destReady c k d.toNat = true := by unfold State.destReady; simp [register]
  have put : s.bump.putDest c k d.toNat (s.pmrdValue c k) false = s.bump.modSlot c k fun t => t.putS d.toNat (s.pmrdValue c k) := by
    have register' : (s.bump.slot c k).isPort d.toNat = false := register
    unfold State.putDest
    simp [register']
  show execPmrdRead c k s = _
  unfold execPmrdRead
  simp only [waits, ready, if_true, put]

theorem pmrdValue_counter {s : State} {c k : Nat} (there : coreExists (fieldN (s.slot c k).pmrsel 0 12) = true)
    (part : s.partOf (fieldN (s.slot c k).pmrsel 0 12) = s.partOf c) (counter : fieldN (s.slot c k).pmrsel 19 2 = 0) :
    s.pmrdValue c k = look 0 (s.core (fieldN (s.slot c k).pmrsel 0 12)).pmc (fieldN (s.slot c k).pmrsel 16 3) := by
  simp only [State.pmrdValue, there, part, counter, Bool.not_true, bne_self_eq_false, Bool.or_self, Bool.false_eq_true, if_false]

theorem pmrdValue_elsewhere {s : State} {c k : Nat} (h : coreExists (fieldN (s.slot c k).pmrsel 0 12) = false ∨
    s.partOf (fieldN (s.slot c k).pmrsel 0 12) ≠ s.partOf c) : s.pmrdValue c k = BitVec.allOnes 64 := by
  have absent : (!coreExists (fieldN (s.slot c k).pmrsel 0 12) || s.partOf (fieldN (s.slot c k).pmrsel 0 12) != s.partOf c) = true := by
    rcases h with h | h <;> simp [h]
  exact if_pos absent

/-- R80, R143, R393, R409: the instructions begin their waits, and the events end them. -/
theorem slowControlRegisters : Sys2Proof.Says.SlowControlRegisters := by
  refine ⟨fun s a _ ready r priv => ?movtc, fun s d _ o r => movc_pmrd_begins o r, fun s c k code => ⟨?hmap, ?pdirbase, ?pmrd⟩⟩
  case movtc =>
    exact ⟨fun word => movtc_begins ready priv (writeCreg_hmap r word), movtc_begins ready priv (writeCreg_pdirbase r),
      movtc_begins ready priv (writeCreg_rstpost r)⟩
  case hmap =>
    intro w v waits
    obtain ⟨module, pc, wait⟩ := complete_goesOn { s with hmap := put s.hmap w v } c k
    have hmap : ({ s with hmap := put s.hmap w v }.complete c k fun t => t).hmap = put s.hmap w v := (congrArg State.hmap module :)
    refine ⟨_, hmapWrite_completes waits, ?_, fun j other => ?_, pc, wait⟩
    · rw [hmap, look_put_same]
    · rw [hmap, look_put_ne _ _ _ (Ne.symm other)]
  case pdirbase =>
    intro v waits
    obtain ⟨module, pc, wait⟩ := complete_goesOn (s.writeModule c 0x312 v) c k
    have base : ((s.writeModule c 0x312 v).complete c k fun t => t).pdirbase = put s.pdirbase (s.partOf c) (v &&& ~~~ w64 0x1FFFF) :=
      (congrArg State.pdirbase module :)
    refine ⟨_, pdirbaseWrite_completes waits, ?_, pc, wait⟩
    rw [base, look_put_same]
    exact clear_low v 17
  case pmrd =>
    intro d waits register landing o i
    obtain ⟨pc, wait, value, full, poison, err⟩ := complete_putS (s := s.bump) d (s.pmrdValue c k) (cregKey 0x2B9) landing
    refine ⟨_, pmrdRead_completes waits register, pc, wait, fun there part counter => ?_, fun elsewhere => ?_⟩
    · rw [← pmrdValue_counter there part counter]; exact ⟨value, full, poison, err⟩
    · rw [← pmrdValue_elsewhere elsewhere]; exact ⟨value, full, poison, err⟩

/-! ### QCFG -/

theorem foldl_upto_four {α : Type} (g : α → Nat → α) (x : α) : (upto 0 4).foldl g x = g (g (g (g x 0) 1) 2) 3 := rfl

/-- Four fields of 16 bits, put side by side, are the fields of the doubleword. -/
theorem portCfg_fields {f : Nat → Nat} (small : ∀ n, f n < 2 ^ 16) {p : Nat} (hp : p < 4) :
    portCfg (w64 ((upto 0 4).foldl (fun a n => a + f n * 2 ^ (16 * n)) 0)) p = f p := by
  have h0 := small 0
  have h1 := small 1
  have h2 := small 2
  have h3 := small 3
  have fits : 0 + f 0 * 2 ^ (16 * 0) + f 1 * 2 ^ (16 * 1) + f 2 * 2 ^ (16 * 2) + f 3 * 2 ^ (16 * 3) < 2 ^ 64 := by omega
  rw [foldl_upto_four, portCfg, fieldN, w64, BitVec.toNat_ofNat, Nat.mod_eq_of_lt fits]
  interval_cases p <;> omega

/-- Another thread of the core has a port enabled. -/
def State.portHeld (s : State) (c k p : Nat) : Bool :=
  (upto 0 16).any fun j => j != k && (s.slot c k).partner != some j && (s.slot c j).live && portOn (s.slot c j).qcfg p

theorem portHeld_false {s : State} {c k p : Nat} (r : (s.slot c k).role = .single) :
    s.portHeld c k p = false ↔ ∀ j, j < 16 → j ≠ k → (s.slot c j).live = true → portOn (s.slot c j).qcfg p = false := by
  have alone : (s.slot c k).partner = none := by unfold Slot.partner; rw [r]
  simp [State.portHeld, alone, upto_eq_range', List.mem_range'_1]

/-- The field that a write of QCFG leaves for a port: bits [5:0], without EN where the side has no neighbour or the port is held (R207). -/
def State.qcfgField (s : State) (c k : Nat) (v : W64) (p : Nat) : Nat :=
  let f := portCfg v p % 64
  if f % 2 = 1 ∧ ((neighbour c (portSide v p)).isNone ∨ s.portHeld c k p) then f - 1 else f

theorem qcfgField_spec (s : State) (c k : Nat) (v : W64) (p : Nat) :
    s.qcfgField c k v p / 2 = portCfg v p % 64 / 2 ∧
      (s.qcfgField c k v p % 2 = 1 ↔ portCfg v p % 2 = 1 ∧ ¬ ((neighbour c (portSide v p)).isNone ∨ s.portHeld c k p)) := by
  unfold State.qcfgField
  by_cases off : (neighbour c (portSide v p)).isNone ∨ s.portHeld c k p
  · simp only [off, and_true, not_true_eq_false, and_false, iff_false]
    split <;> omega
  · simp only [off, and_false, if_false, not_false_eq_true, and_true, true_and]
    omega

theorem qcfg_writeQcfg (s : State) (c k : Nat) (v : W64) :
    ((s.writeQcfg c k v).slot c k).qcfg = w64 ((upto 0 4).foldl (fun a n => a + s.qcfgField c k v n * 2 ^ (16 * n)) 0) := by
  unfold State.writeQcfg
  dsimp only
  rw [slot_modSlot, if_pos ⟨rfl, rfl⟩]
  rfl

/-- A write of QCFG, port by port (R207). -/
theorem writeQcfg_port {s : State} {c k p : Nat} {v : W64} (r : (s.slot c k).role = .single) (hp : p < 4) :
    let q := ((s.writeQcfg c k v).slot c k).qcfg
    portOut q p = portOut v p ∧ portSide q p = portSide v p ∧ portPeer q p = portPeer v p ∧
      (portOn q p = true ↔ portOn v p = true ∧ (neighbour c (portSide v p)).isSome = true ∧
        ∀ j, j < 16 → j ≠ k → (s.slot c j).live = true → portOn (s.slot c j).qcfg p = false) := by
  intro q
  have field : portCfg q p = s.qcfgField c k v p := by
    show portCfg ((s.writeQcfg c k v).slot c k).qcfg p = _
    rw [qcfg_writeQcfg]
    refine portCfg_fields (fun n => ?_) hp
    obtain ⟨rest, -⟩ := qcfgField_spec s c k v n
    omega
  obtain ⟨rest, on⟩ := qcfgField_spec s c k v p
  have enabled : ¬ ((neighbour c (portSide v p)).isNone ∨ s.portHeld c k p) ↔
      (neighbour c (portSide v p)).isSome = true ∧ s.portHeld c k p = false := by
    cases neighbour c (portSide v p) <;> simp
  rw [← portHeld_false r, ← enabled]
  simp only [portOut, portSide, portPeer, portOn, field, decide_eq_true_eq, decide_eq_decide] at on ⊢
  exact ⟨by omega, by omega, by omega, on⟩

/-! ### ACCPUT -/

/-- The core after a write of ACCPUT: two elements of the accumulator have changed (R395). -/
def Core.accWritten (x : Core) (acc e : Nat) (v : W64) : Core :=
  { x with accv := put (put x.accv (acc * 8192 + e) (v.setWidth 32)) (acc * 8192 + e + 1) (w32 (fieldN v 32 32)),
           engErr := del x.engErr (4096 * (8 + acc) + e / 2) }

/-- The thread after a write of ACCPUT at element `e`: ELEM of ACCIDX has advanced (R395). -/
def Slot.accAdvanced (t : Slot) (e : Nat) (v : W64) : Slot :=
  { t with accput := v, accidx := w64 (fieldN t.accidx 16 2 * 2 ^ 16 + (e + 2) % 8192) }

theorem slot_accWritten (s : State) (c acc e d k : Nat) (v : W64) :
    (s.modCore c fun x => x.accWritten acc e v).slot d k = s.slot d k :=
  slot_modCore (f := fun x => x.accWritten acc e v) (fun _ => rfl) d k

theorem putAcc_eq (s : State) (c k acc : Nat) (v : W64) :
    let e := fieldN (s.slot c k).accidx 0 13
    s.putAcc c k acc v = (s.modCore c fun x => x.accWritten acc e v).setSlot c k ((s.slot c k).accAdvanced e v) := by
  intro e
  have written : s.putAcc c k acc v = (s.modCore c fun x => x.accWritten acc e v).modSlot c k fun t => t.accAdvanced e v := rfl
  rw [written, State.modSlot, slot_accWritten]

theorem accWritten_elements (x : Core) (acc e : Nat) (v : W64) :
    look 0 (x.accWritten acc e v).accv (acc * 8192 + e) = v.extractLsb' 0 32 ∧
      look 0 (x.accWritten acc e v).accv (acc * 8192 + e + 1) = v.extractLsb' 32 32 := by
  refine ⟨?_, (look_put_same ..).trans (ofNat_fieldN v 32 32)⟩
  exact (look_put_ne _ _ _ (Nat.succ_ne_self _)).trans ((look_put_same ..).trans (setWidth_eq_field v 32))

theorem elem_accAdvanced (t : Slot) (e : Nat) (v : W64) : (t.accAdvanced e v).accidx.toNat % 8192 = (e + 2) % 8192 := by
  simp only [Slot.accAdvanced, fieldN, w64, BitVec.toNat_ofNat]
  omega

/-- R395: ACCPUT. -/
theorem accputWrite_runs {s : State} {v : W64} {a : Nat} (b : s.begun)
    (acc : (s.taskOf s.cur.core s.me.task).accs[fieldN s.me.accidx 16 2]? = some a) (unlocked : s.myCore.accLocked a = false) :
    let e := s.me.accidx.toNat % 8192
    ∃ t, exec (.accputWrite v) s = .next t ∧ Passed s t s.me.next.pc (fun x => { x with accput := 0, accidx := 0 }) ∧
      Beyond whole (fun x => { x with accv := [], engErr := [] }) s t ∧
      look 0 (t.core s.cur.core).accv (a * 8192 + e) = v.extractLsb' 0 32 ∧
      look 0 (t.core s.cur.core).accv (a * 8192 + e + 1) = v.extractLsb' 32 32 ∧
      (t.thread s).accidx.toNat % 8192 = (e + 2) % 8192 := by
  intro e
  obtain ⟨npc, taken, -, -, -, landing⟩ := b
  have field : fieldN s.me.accidx 0 13 = e := by simp [fieldN, e]
  have writes : writeAccput v s = .ok ((), s.putAcc s.cur.core s.cur.slot a v) := by
    unfold writeAccput
    rw [bind_ok rfl, bind_ok rfl, bind_ok rfl, acc]
    exact congrFun (if_neg (by rw [unlocked]; exact Bool.false_ne_true)) s
  have put : s.putAcc s.cur.core s.cur.slot a v = (s.modCore s.cur.core fun x => x.accWritten a e v).setMe (s.me.accAdvanced e v) := by
    rw [putAcc_eq, ← field]; rfl
  rw [put] at writes
  have still : (s.modCore s.cur.core fun x => x.accWritten a e v).noLanding s.cur.core s.cur.slot := by
    rw [noLanding_congr fun d k => slot_accWritten s _ a e d k v]; exact landing
  have thread : (s.modCore s.cur.core fun x => x.accWritten a e v).slot s.cur.core s.cur.slot = s.me := slot_accWritten ..
  obtain ⟨t, runs, only, -, past⟩ := run_done writes npc (by rw [me_setMe]; exact taken)
    (noLanding_mod still (f := fun _ => s.me.accAdvanced e v) (by rw [thread]; rfl) (by rw [thread]; rfl)) rfl rfl
  rw [me_setMe] at past
  have core : { t.core s.cur.core with slots := [] } = { s.myCore.accWritten a e v with slots := [] } := by
    rw [only.cores, State.setMe, rest_setSlot, core_modCore, if_pos rfl]; rfl
  have accv : (t.core s.cur.core).accv = (s.myCore.accWritten a e v).accv := (congrArg Core.accv core :)
  have outside : Beyond whole (fun x => { x with accv := [], engErr := [] }) s
      ((s.modCore s.cur.core fun x => x.accWritten a e v).setMe (s.me.accAdvanced e v)) :=
    (Beyond.modCore s (fun x => x.accWritten a e v) (fun _ => rfl) fun _ => rfl).trans (.of_only (.setMe _ _)) rfl rfl
  obtain ⟨low, high⟩ := accWritten_elements s.myCore a e v
  refine ⟨t, runs, .of_past past (next_pc_congr rfl rfl rfl) rfl, outside.trans (.of_only only) rfl rfl, ?_, ?_, ?_⟩
  · rw [accv]; exact low
  · rw [accv]; exact high
  · have kept : (t.thread s).accidx = (s.me.accAdvanced e v).accidx := by rw [past]; exact (congrArg Slot.accidx (past_still _) :)
    rw [kept]; exact elem_accAdvanced s.me e v

/-! ### SLREQ, QRING, DROPD -/

theorem slreq_writeSlreq (s : State) (c : Nat) (v : W64) :
    ((s.writeSlreq c v).core c).slreq.open_ = false ∧ ((s.writeSlreq c v).core c).slreq.slot = v.toNat % 16 := by
  unfold State.writeSlreq
  rw [core_modCore, if_pos rfl]
  exact ⟨rfl, by simp [fieldN]⟩

/-- A write of QRING: AGE always; SIZE and OFFSET where the ring fits and is empty (R358). -/
theorem hub_writeQring (s : State) (h : Nat) (v : W64) :
    ((s.writeQring h v).hub h).age = v.toNat % 2 ^ 16 ∧
      (let size := v.toNat / 2 ^ 32 % 64
       let off := v.toNat / 2 ^ 24 % 64
       if size = 0 ∨ 64 < off + size ∨ (s.hub h).ringCount ≠ 0 then
         ((s.writeQring h v).hub h).size = (s.hub h).size ∧ ((s.writeQring h v).hub h).offset = (s.hub h).offset
       else ((s.writeQring h v).hub h).size = size ∧ ((s.writeQring h v).hub h).offset = off) := by
  unfold State.writeQring
  dsimp only
  rw [hub_modHub_same]
  by_cases kept : fieldN v 32 6 = 0 ∨ 64 < fieldN v 24 6 + fieldN v 32 6 ∨ (s.hub h).ringCount ≠ 0
  · rw [if_pos kept]
    exact ⟨by simp [fieldN], (if_pos kept).mpr ⟨rfl, rfl⟩⟩
  · rw [if_neg kept]
    exact ⟨by simp [fieldN], (if_neg kept).mpr ⟨rfl, rfl⟩⟩

/-- A read of DROPD takes the record at the head of the queue, and nothing from an empty queue (R396). -/
theorem core_popDrop (s : State) (c : Nat) :
    (∀ q w r, (s.core c).dropq = (q, w) :: r → ((s.popDrop c).core c).dropq = r ∧ ((s.popDrop c).core c).dropv = w) ∧
      ((s.core c).dropq = [] → ((s.popDrop c).core c).dropq = [] ∧ ((s.popDrop c).core c).dropv = (s.core c).dropv) := by
  unfold State.popDrop
  rw [core_modCore, if_pos rfl]
  refine ⟨fun q w r head => ?_, fun empty => ?_⟩
  · rw [head]; exact ⟨rfl, rfl⟩
  · rw [empty]; exact ⟨empty, rfl⟩

/-- R111, R207, R358, R395, R396: each event through the lemma for its register. -/
theorem coreRegisterEvents : Sys2Proof.Says.CoreRegisterEvents := by
  intro s v c h
  exact ⟨⟨_, rfl, slreq_writeSlreq s c v⟩, ⟨_, rfl, hub_writeQring s (c / 16) v⟩, fun r => ⟨_, rfl, fun p hp => writeQcfg_port r hp⟩,
    fun b a acc unlocked => accputWrite_runs b acc unlocked, ⟨_, rfl, core_popDrop s c⟩⟩

/-- Settles O15: the waits of the slow registers, and the registers that a core writes or reads in one step. -/
theorem registerEvents : Obligations.RegisterEvents := ⟨slowControlRegisters, coreRegisterEvents⟩

end Sys2Proof.Machine
end

section
/-! PROOF. O12, refuted: a TLBINV also waits for sluice elements, of which the statement's premises say nothing. -/

namespace Sys2Proof.Machine

/-- An element of a copy, sent through page 1 and still to be performed. -/
def sentElement : SlWrite :=
  { id := 7, elem := 0, val := {}, code := 0, topinf := false, pa := scratchAddr 0 0, polder := none, page := some 1 }

/-- A copy with that element under way. -/
def sendingCopy : SlCmd :=
  { uid := 6, num := 0, cmd := 0, fl := 0, slot := 0, tid := 0, task := 0, batch := 0, privS := false, op1 := 0, op2 := 0, desc := [],
    root := 0, asp := 0, srcfg := 0, srbase := 0, time := 0, started := true, pend := [sentElement] }

/-- A thread at S stands in a TLBINV that has removed the translation of page 1, and waits for what was under way through it: the element
of the copy.  No access of a thread and no message is under way. -/
def waitingTlbinv : State :=
  { cores := [(0, { slots := [(0, { live := true, privS := true, wip := some ([], [7]) })], slcmds := [sendingCopy] })] }

/-- Before the translation of page 1 was removed, the element was what a TLBINV of that page had to wait for (R385). -/
theorem sentElement_through :
    (waitingTlbinv.modCore 0 fun x => { x with tlb := [⟨0x10000, 16, 0, 0x2C, 0⟩] }).throughEntries 0 0x10000 0 = [7] := by decide

/-- While the element is under way, the TLBINV parks. -/
theorem tlbinv_parks : ∃ t, exec (.tlbinv 0 0) waitingTlbinv = .next t ∧ (t.thread waitingTlbinv).wait = .park 3 0 := ⟨_, rfl, by decide⟩

/-- Refutes O12: the statement has a TLBINV go on once no access that it waits for is among the threads' accesses and none of its messages
is left; but it waits for sluice elements as well (R385), and in `waitingTlbinv`, where one is under way, it parks. -/
theorem not_invalidation : ¬ Obligations.Invalidation := by
  unfold Obligations.Invalidation
  rintro ⟨⟨-, tlbinv, -⟩, -⟩
  have begun : waitingTlbinv.begun := by unfold State.begun; decide
  obtain ⟨-, -, completes⟩ := tlbinv waitingTlbinv 0 0 begun rfl rfl (.inl rfl) (.inl rfl) (by decide)
  obtain ⟨t, runs, went⟩ := completes [] [7] rfl (fun _ none => absurd none List.not_mem_nil) (fun _ none => absurd none List.not_mem_nil)
  obtain ⟨u, runs', parked⟩ := tlbinv_parks
  cases runs.symm.trans runs'
  have both : Wait.run = .park 3 0 := went.wait.symm.trans parked
  cases both

end Sys2Proof.Machine
end
